-- ==== Sys2Proof/Word.lean ====
section
/-!
DEFINITION. The plain word types of the HJ2618/HJ2614 and nothing else: a 32-bit register word (R36), a byte, a
48-bit mesh-clock instant (R55), an EUI-64 and the handles of the node directory and neighbour tables.
-/

namespace Sys2Proof

/-- A 32-bit register word (R36). -/
abbrev Word := BitVec 32

/-- One octet. -/
abbrev Byte := BitVec 8

/-- A mesh-clock instant: NS[47:0], a count of nanoseconds modulo 2^48 (R55, R56). -/
abbrev Instant := BitVec 48

/-- An EUI-64. -/
abbrev Eui := BitVec 64

/-- A host function number, 0 to 7 (R10). -/
abbrev Fn := Fin 8

/-- A berth number, 0 to 5 (R10). -/
abbrev Berth := Fin 6

/-- A node directory handle, 0 to 0x3FFFE; 0x3FFFF stands for none (R194). -/
abbrev Handle := Nat

/-- The handle that stands for no node, 0x3FFFF. -/
def noNode : Handle := 0x3FFFF

end Sys2Proof
end

