-- ==== Sys2Proof/Machine/SMap.lean ====
section
/-!
DEFINITION. Sparse tables as plain data: a list of (key, value) pairs with strictly rising keys. Every table of the
device that is mostly empty (registers, neighbour tables, the node directory, the index, queues by key) is one.
-/

namespace Sys2Proof.Machine

/-- A sparse table: (key, value) pairs, keys strictly rising in the canonical form. -/
abbrev SMap (α : Type) := List (Nat × α)

/-- The value listed for `k`, if any. -/
def SMap.find {α : Type} : SMap α → Nat → Option α
  | [], _ => none
  | (j, v) :: t, k => if j = k then some v else SMap.find t k

/-- The table with `k` listed as `v`, keys kept rising. -/
def SMap.put {α : Type} : SMap α → Nat → α → SMap α
  | [], k, v => [(k, v)]
  | (j, u) :: t, k, v =>
    if k < j then (k, v) :: (j, u) :: t else if j = k then (k, v) :: t else (j, u) :: SMap.put t k v

/-- The table with `k` unlisted. -/
def SMap.del {α : Type} (m : SMap α) (k : Nat) : SMap α := m.filter fun p => p.1 ≠ k

/-- Every listed key lies above `b` and the keys rise strictly. -/
def SMap.risesFrom {α : Type} : Option Nat → SMap α → Bool
  | _, [] => true
  | none, (j, _) :: t => SMap.risesFrom (some j) t
  | some b, (j, _) :: t => decide (b < j) && SMap.risesFrom (some j) t

/-- The canonical form of a sparse table: its keys rise strictly. -/
def SMap.wf {α : Type} (m : SMap α) : Bool := SMap.risesFrom none m

/-- The table with the entry of `k`, if listed, changed by `f`. -/
def SMap.modify {α : Type} (m : SMap α) (k : Nat) (f : α → α) : SMap α :=
  match SMap.find m k with
  | some v => SMap.put m k (f v)
  | none => m

/-- The keys listed. -/
def SMap.keys {α : Type} (m : SMap α) : List Nat := m.map Prod.fst

/-- Whether some listed entry satisfies `p`. -/
def SMap.has {α : Type} (m : SMap α) (k : Nat) : Bool := (SMap.find m k).isSome

end Sys2Proof.Machine
end

