-- ==== Sys2Proof/Machine/StTime.lean ====
section
/-!
DEFINITION. The state of the TIME island (R55 to R88) that its registers do not themselves hold: the mesh clock and
MONO, the reference servo, slot timing, the RSN and epoch, the capture FIFOs, the triggers and the tide link.
-/

namespace Sys2Proof.Machine

/-- A residue slot number: four residues, each valid by its type (R7, R69). -/
structure Rsn where
  r256 : Fin 256
  r255 : Fin 255
  r253 : Fin 253
  r251 : Fin 251
  deriving DecidableEq, Repr

/-- A slot's name: its epoch and its RSN (R7, R73). -/
structure SlotName where
  epoch : BitVec 16
  rsn : Rsn
  deriving DecidableEq, Repr

/-- TIME_STATUS.REF_STATE (R64, R87). -/
inductive RefState where
  | none
  | acquiring
  | locked
  | holdover
  deriving DecidableEq, Repr

/-- Where slot timing stands (R66): stopped, a start armed, running, or running with a stop scheduled. -/
inductive SlotState where
  | stopped
  | armed
  | running
  | stopping
  deriving DecidableEq, Repr

/-- One entry of a capture FIFO: the instant and whether the edge rose (R82). -/
structure CaptEntry where
  ns : Instant
  rising : Bool
  deriving DecidableEq, Repr

/-- One capture input: its FIFO, oldest first, and the entry that the last LO read latched (R82). -/
structure CaptS where
  fifo : List CaptEntry
  latched : Option CaptEntry
  deriving DecidableEq, Repr

/-- One trigger (R81): the leading edge of its pulse while that is active; and the next leading edge of an INSTANT or PERIODIC
trigger, or the last one of a SLOT trigger. -/
structure TrigS where
  active : Option Instant
  next : Option Instant
  deriving DecidableEq, Repr

/-- The slot timing that a follower adopted from the tide source (R85): its slot length, a slot start and that slot's name. -/
structure TideAdopt where
  lenUs : Nat
  start : Instant
  name : SlotName
  deriving DecidableEq, Repr

/-- The TIME island. -/
structure TimeS where
  /-- NS[47:0] over FRAC[31:0]: the mesh clock in units of 2^-32 ns (R55). -/
  clock : BitVec 80
  /-- MONO: 64 bits of ns over 32 bits of fraction (R60). -/
  mono : BitVec 96
  /-- The servo's integral term in ns (R63). -/
  integ : Int
  /-- servo_corr in 2^-32 ns per tick, within ±2,147,484 (R57, R63). -/
  servoCorr : Int
  /-- TIME_ADJ_REM in 2^-32 ns (R62). -/
  adjRem : Int
  ref : RefState
  /-- expected_ns of the next reference edge, once anchored (R63, R64). -/
  expected : Option Instant
  /-- Consecutive accepted edges with |e| ≤ 50 ns, and with |e| > 50 ns (R64, R85). -/
  goodRun : Nat
  badRun : Nat
  /-- Consecutive rejected PPS edges (R64), or consecutive bad tide messages (R85). -/
  rejRun : Nat
  /-- MONO in ns when the last reference edge or valid tide pair arrived (R64, R85). -/
  lastRefMono : Nat
  slots : SlotState
  /-- S_k of the current slot while slots run; the armed first slot start while a start is armed (R66, R67). -/
  slotStart : Instant
  name : SlotName
  epochSat : Bool
  /-- The epoch latched by a function's last TIME_RSN read (R58). -/
  epochLatch : SMap (BitVec 16)
  /-- MONO at which the pending TIME values apply while SLOTS is 0 (R66). -/
  bufferEnd : Option Nat
  /-- MONO of the next virtual slot start while SLOTS is 0 (R96). -/
  nextVirtual : Nat
  capts : List CaptS
  trigs : List TrigS
  /-- TIDE_PPS_OUT sequence number of the next tide message (R84). -/
  tideSeq : BitVec 8
  /-- MONO of the last TIDE_PPS_OUT rising edge (R83). -/
  tideLastPulse : Option Nat
  /-- The octets of the message of that pulse (R84). -/
  tideOctets : List Byte
  adopted : Option TideAdopt
  /-- The loss of the tide link was reported, and no valid pair came since (R85). -/
  tideLostTold : Bool
  deriving DecidableEq, Repr

/-- The TIME island after a reset that re-runs start-up: clocks at 0 (R55, R60), slots stopped, every run empty.
(DESIGN CHOICE, log 7) -/
def TimeS.reset : TimeS where
  clock := 0
  mono := 0
  integ := 0
  servoCorr := 0
  adjRem := 0
  ref := .none
  expected := none
  goodRun := 0
  badRun := 0
  rejRun := 0
  lastRefMono := 0
  slots := .stopped
  slotStart := 0
  name := ⟨0, ⟨0, 0, 0, 0⟩⟩
  epochSat := false
  epochLatch := []
  bufferEnd := none
  nextVirtual := 0
  capts := List.replicate 4 ⟨[], none⟩
  trigs := List.replicate 8 ⟨none, none⟩
  tideSeq := 0
  tideLastPulse := none
  tideOctets := []
  adopted := none
  tideLostTold := false

end Sys2Proof.Machine
end

