-- ==== Sys2Proof/Machine/StFrame.lean ====
section
/-!
DEFINITION. What travels on the air, as the model holds it: a frame is a record of the parts the spec names (addresses,
DSN, security, IEs, upper-layer content), and a secured frame names the key it was really sealed under, so that authentication
succeeds exactly with that key. Octets.lean spells the octets of the device's own frames.
-/

namespace Sys2Proof.Machine

/-- A link address of a frame (R160, R187). -/
inductive Addr where
  | none
  | short (a : BitVec 16)
  | eui (e : Eui)
  deriving DecidableEq, Repr

/-- The broadcast address 0xFFFF (R169). -/
def Addr.broadcast : Addr := .short 0xFFFF

/-- A key as the cryptography sees it: the 128-bit mould it derives from, its use (1 LINK, 2 SEAL, 3 BCAST), the EUI-64 it
is cast for (0 for a broadcast key) and the cast generation (R317, R318). (DESIGN CHOICE, log 4) -/
structure CastKey where
  mould : BitVec 128
  use : Nat
  eui : Eui
  gen : BitVec 8
  deriving DecidableEq, Repr

/-- The link security of a frame: level, key identifier mode, key index, Frame Counter Suppression and ASN in Nonce (R325), and the
key and slot (nonce) under which it was really secured; `intact` is false when it was altered afterwards (R150, R160 step 5).
(DESIGN CHOICE, log 4) -/
structure FrameSec where
  level : Nat
  keyMode : Nat
  keyIndex : Nat
  suppressed : Bool
  asnNonce : Bool
  key : CastKey
  slot : SlotName
  intact : Bool
  deriving DecidableEq, Repr

/-- One run of wide slot offsets in a Quay Wide-Cell IE (R166). -/
structure WideRun where
  start : Nat
  count : Nat
  deriving DecidableEq, Repr

/-- The IEs the device composes or reads (R14, R149, R151). -/
inductive Ie where
  /-- Quay Time IE: FLAGS and SFD_TIME (R79). -/
  | quayTime (flags : Byte) (sfdTime : Instant)
  /-- Time Correction IE: µs, and NACK (R163). -/
  | timeCorrection (us : Int) (nack : Bool)
  /-- TSCH Synchronization IE: ASN and join metric (R174). -/
  | tschSync (asn : Nat) (joinMetric : Nat)
  /-- Timeslot IE, full form: MAC_TS_ID, the template registers in µs and the slot length (R174). -/
  | timeslot (id : Nat) (template : List Nat) (lenUs : Nat)
  /-- Channel Hopping IE, short form (R174). -/
  | hopShort (seqId : Nat)
  /-- Channel Hopping IE, full form: the fields of R461. -/
  | hopFull (seqId page nChannels phyCfg len : Nat) (seq : List Nat) (currentHop dwell : Nat)
  /-- Slotframe and Link IE: for each advertised slotframe its handle, length and advertised cells (R174). -/
  | slotframes (l : List (Nat × Nat × List (Word × Word)))
  /-- Quay Wide-Cell IE (R166). -/
  | wideCell (sf baPeriod baChofs : Nat) (runs : List WideRun)
  /-- Quay Block-Ack IE: ASN16, SLOTS, CH_BASE, CH_COUNT, the set bits and one hash per set bit (R170). -/
  | blockAck (asn16 slots chBase chCount : Nat) (bits : List Nat) (hashes : List Nat)
  /-- Quay Symbol IE of a campaign: campaign, nonce, FLAGS, F, T, Z - 1, block, first ESI, COUNT, the symbols (R303). -/
  | symbols (camp : Byte) (nonce : BitVec 16) (flags f t zm1 sbn esi count : Nat) (octets : List Byte)
  /-- A vendor specific IE as received, payload or header, by OUI, KIND and content: no definition reads one, whatever its OUI and
  KIND (R151). -/
  | vendor (payload : Bool) (oui : BitVec 24) (kind : Byte) (content : List Byte)
  /-- Any other IE, whose content is ignored. -/
  | other (id : Nat)
  deriving DecidableEq, Repr

/-- Node state in a Quay Report IE (R306). -/
structure Report where
  camp : Byte
  nonce : BitVec 16
  status : Nat
  blocks : Nat
  deriving DecidableEq, Repr

/-- The seal envelope of a CoAP message (R230): its header, the rest of the nonce and of the associated data under which it was
really sealed (R231: sender, direction, code, token), and what the ciphertext holds for whoever has the key.
(DESIGN CHOICE, log 4) -/
structure Seal where
  version : Nat
  kind : Nat
  gen6 : Nat
  seq : Nat
  actAt : Option Nat
  key : CastKey
  sender : Eui
  upward : Bool
  code : Nat
  token : List Byte
  intact : Bool
  plain : List Byte
  deriving DecidableEq, Repr

/-- CoAP message types (R227). -/
inductive CoapType where
  | con
  | non
  | ack
  | rst
  deriving DecidableEq, Repr

/-- A CoAP message: header, token, and options and payload as they follow the token; `wellFormed` is false for a malformed
header or options (R227). -/
structure Coap where
  typ : CoapType
  code : Nat
  mid : BitVec 16
  token : List Byte
  body : List Byte
  wellFormed : Bool
  envelope : Option Seal
  timedAt : Option Nat
  report : Option Report
  deriving DecidableEq, Repr

/-- An IPv6 address. -/
abbrev Ip6 := BitVec 128

/-- The interface identifier of an EUI-64: bit 1 of its first octet inverted (R228). -/
def iidOf (e : Eui) : BitVec 64 := e ^^^ 0x0200000000000000

/-- The address of a prefix and a node (R216, R228). -/
def Ip6.of (p : BitVec 64) (e : Eui) : Ip6 := BitVec.ofNat 128 (p.toNat * 2 ^ 64 + (iidOf e).toNat)

/-- The upper 64 bits of an address. -/
def Ip6.upper (a : Ip6) : BitVec 64 := BitVec.ofNat 64 (a.toNat / 2 ^ 64)

/-- The EUI-64 of an address's interface identifier (R211 step 2). -/
def Ip6.node (a : Ip6) : Eui := iidOf (BitVec.ofNat 64 a.toNat)

/-- A multicast address: its first octet is 0xFF. -/
def Ip6.isMulticast (a : Ip6) : Bool := a.toNat / 2 ^ 120 = 0xFF

/-- The group address ff03::1:g (R250). -/
def Ip6.group (g : Nat) : Ip6 := BitVec.ofNat 128 (0xFF03 * 2 ^ 112 + 2 ^ 16 + g)

/-- One Transit Information option of a DAO: Path Control, Path Sequence, Path Lifetime and the Parent Address, where it carries
one (R211). -/
structure Transit where
  control : Nat
  sequence : Byte
  lifetime : Byte
  parent : Option Ip6
  deriving DecidableEq, Repr

/-- One RPL Target of a DAO: its prefix length and prefix (R211). -/
structure DaoTarget where
  len : Nat
  addr : Ip6
  deriving DecidableEq, Repr

/-- A DAO (R211). -/
structure Dao where
  inst : Nat
  /-- The DODAGID, when present. -/
  dodag : Option Ip6
  kFlag : Bool
  daoSeq : Byte
  targets : List DaoTarget
  transits : List Transit
  deriving DecidableEq, Repr

/-- The DODAG Configuration option (R210, RFC 6550). -/
structure DodagConf where
  doublings : Nat
  imin : Nat
  redundancy : Nat
  maxRankInc : Nat
  minHopRankInc : Nat
  ocp : Nat
  defLifetime : Nat
  unit : Nat
  deriving DecidableEq, Repr

/-- The Prefix Information option (R210, RFC 6550): an infinite lifetime is 0xFFFFFFFF. -/
structure PrefixInfo where
  len : Nat
  onLink : Bool
  auto : Bool
  valid : Nat
  preferred : Nat
  pfx : Ip6
  deriving DecidableEq, Repr

/-- A DIO (R210, RFC 6550). -/
structure Dio where
  inst : Nat
  version : Nat
  rank : Nat
  grounded : Bool
  mop : Nat
  prf : Nat
  dtsn : Nat
  dodag : Ip6
  conf : Option DodagConf
  info : Option PrefixInfo
  deriving DecidableEq, Repr

/-- RPL control messages (R209, R210); `unsupported` is one of a kind that R209 does not support. -/
inductive Rpl where
  | dio (d : Dio)
  | dis
  | dao (d : Dao)
  | daoAck (inst : Nat) (seq : Byte) (status : Nat)
  | unsupported
  deriving DecidableEq, Repr

/-- What an IPv6 packet carries above its headers (R227, R228, R256): UDP whose octets spell a CoAP message, with its ports; other
UDP; ICMPv6. -/
inductive Body where
  | coap (sport dport : Nat) (m : Coap)
  | udp (sport dport : Nat) (payload : List Byte)
  | echoRequest (payload : List Byte)
  | echoReply (payload : List Byte)
  | icmp (typ : Nat) (payload : List Byte)
  | rpl (m : Rpl)
  deriving DecidableEq, Repr

/-- The 6LoWPAN dispatch of a packet (R235): uncompressed IPv6; IPHC with its context octet, where CID is 1, and M, SAC, SAM, DAC
and DAM; the mesh and broadcast headers of RFC 4944; a dispatch of RFC 8138; any other. -/
inductive Dispatch where
  | ipv6
  | iphc (contexts : Option (Nat × Nat)) (m sac : Bool) (sam : Nat) (dac : Bool) (dam : Nat)
  | mesh
  | broadcast
  | rfc8138
  | unknown
  deriving DecidableEq, Repr

/-- An extension header of a packet (R213, R216, R235, R250): Hop-by-Hop with the RPL option (RPLInstanceID and F flag) or the MPL
option (sequence); Routing with its type, Segments Left, CmprI, CmprE and the listed nodes; Fragment; Destination Options; and an
IPv6 packet within (Next Header 41). -/
inductive ExtHdr where
  | hopByHop (rpl : Option (Nat × Bool)) (mpl : Option Byte)
  | routing (typ segmentsLeft cmprI cmprE : Nat) (hops : List Eui)
  | fragment
  | destOptions
  | ipInIp
  deriving DecidableEq, Repr

/-- An IPv6 packet as 6LoWPAN carries it: dispatch, addresses, extension headers, C of its UDP NHC, and its uncompressed length. -/
structure Packet where
  dispatch : Dispatch
  src : Ip6
  dst : Ip6
  exts : List ExtHdr
  udpC : Bool
  size : Nat
  body : Body
  deriving DecidableEq, Repr

/-- R235: the device accepts a packet of this dispatch. -/
def Dispatch.accepted : Dispatch → Bool
  | .ipv6 => true
  | .iphc c m _ _ dac _ => (c.all fun p => p.1 = 0 && p.2 = 0) && !(m && dac)
  | .mesh | .broadcast | .rfc8138 | .unknown => false

/-- R235: an extension header that an upward packet may carry. -/
def ExtHdr.accepted : ExtHdr → Bool
  | .hopByHop _ _ | .fragment | .destOptions => true
  | .routing _ _ _ _ _ | .ipInIp => false

/-- R235: the form of an upward packet is one that the device accepts. -/
def Packet.accepted (p : Packet) : Bool := p.dispatch.accepted && p.exts.all ExtHdr.accepted && !p.udpC

/-- The RPL option of a packet (R213). -/
def Packet.rplOpt (p : Packet) : Option (Nat × Bool) := p.exts.findSome? fun x => match x with
  | .hopByHop r _ => r
  | _ => none

/-- The sequence of a packet's MPL option (R250). -/
def Packet.mplSeq (p : Packet) : Option Byte := p.exts.findSome? fun x => match x with
  | .hopByHop _ m => m
  | _ => none

/-- The content of a data frame above the MAC (R235, R236). -/
inductive Upper where
  | none
  | octets (bs : List Byte)
  | packet (p : Packet)
  /-- A FRAG1 or FRAGN fragment: datagram_tag, datagram_size, offset, length, an identity of its octets, and the packet
  that the whole datagram spells. -/
  | fragment (tag size offset len digest : Nat) (p : Packet)
  deriving DecidableEq, Repr

/-- Frame types (R149, R160). -/
inductive FrameKind where
  | beacon
  | data
  | ack
  | other
  deriving DecidableEq, Repr

/-- A MAC frame. (DESIGN CHOICE, log 65) -/
structure Frame where
  kind : FrameKind
  version : Nat
  pan : Option (BitVec 16)
  dst : Addr
  src : Addr
  dsn : Option Byte
  ar : Bool
  sec : Option FrameSec
  ies : List Ie
  upper : Upper
  deriving DecidableEq, Repr

/-- The octets of a received frame's PSDU, FCS included: of the encodings that the standard allows its sender, the model does not say
which it took. (DESIGN CHOICE, log 65) -/
opaque Frame.received : Frame → List Byte

end Sys2Proof.Machine
end

