-- ==== Sys2Proof/Machine/StRadio.lean ====
section
/-!
DEFINITION. The state of the six berths and of BCOM (R89 to R148) that their registers do not themselves hold: the
demodulators, receive records, gain, calibration, synthesisers, transmissions, blanks, coexistence groups, the duty
buckets and the trellis decoder pool.
-/

namespace Sys2Proof.Machine

/-- Demodulator states (R106). -/
inductive DemodState where
  | off
  | search
  | sync
  | phr
  | payload
  | blanked
  deriving DecidableEq, Repr

/-- ABORT_REASON of a receive record (R117). -/
inductive AbortReason where
  | phrInvalid
  | sustain
  | recaptured
  | blanked
  | quayFull
  | config
  | poisoned
  deriving DecidableEq, Repr

/-- The code of an abort reason (R117). -/
def AbortReason.code : AbortReason → Nat
  | .phrInvalid => 1
  | .sustain => 2
  | .recaptured => 3
  | .blanked => 4
  | .quayFull => 5
  | .config => 6
  | .poisoned => 7

/-- A receive record (R116) and the frame it holds; `endAt` is the end of its last symbol. -/
structure RxRec where
  psduLen : Nat
  fcsOk : Bool
  fcs4 : Bool
  whitened : Bool
  coded : Bool
  abort : Option AbortReason
  sfdTime : Instant
  rssi : Int
  floor : Int
  cfo : Int
  name : SlotName
  /-- The start of that slot, while slot timing ran (R160). -/
  slotStart : Option Instant
  entry : Nat
  berth : Nat
  mode : Nat
  clip : Bool
  gainStep : Bool
  channel : Nat
  gain : Nat
  decoder : Option Nat
  recapture : Bool
  ackLate : Bool
  seq : BitVec 32
  endAt : Instant
  frame : Option Frame
  deriving DecidableEq, Repr

/-- One demodulator: its state, L_p, its entry's floor as the preamble met it (both 0.25 dBm at the ball; the average stands still
outside SEARCH, R112), whether its detection captured over another frame,
and its open record (R106, R107, R112). -/
structure Demod where
  st : DemodState
  lp : Int
  floor : Int
  recapture : Bool
  record : Option RxRec
  deriving DecidableEq, Repr

/-- Transmit outcomes (R133). -/
inductive TxOutcome where
  | sent
  | lockMiss
  | duty
  | lbtBusy
  | coexDenied
  | coupling
  | berthUnavailable
  | underrun
  | fenced
  | coexRevoked
  | unlocked
  | gateClosed
  | poisoned
  | maskTrip
  | regRefused
  | tooLong
  deriving DecidableEq, Repr

/-- The code of an outcome (R133). -/
def TxOutcome.code : TxOutcome → Nat
  | .sent => 0
  | .lockMiss => 1
  | .duty => 2
  | .lbtBusy => 3
  | .coexDenied => 4
  | .coupling => 5
  | .berthUnavailable => 6
  | .underrun => 7
  | .fenced => 8
  | .coexRevoked => 9
  | .unlocked => 10
  | .gateClosed => 11
  | .poisoned => 12
  | .maskTrip => 13
  | .regRefused => 14
  | .tooLong => 15

/-- Transmit classes (R181), with the Enh-ACK beside them (R163). -/
inductive TxClass where
  | eb
  | ba
  | urgent
  | bulk
  | campaign
  | ack
  deriving DecidableEq, Repr

/-- The code of a class (R181); an Enh-ACK belongs to no class and takes precedence with the EBs. -/
def TxClass.code : TxClass → Nat
  | .eb => 0
  | .ba => 1
  | .urgent => 2
  | .bulk => 3
  | .campaign => 4
  | .ack => 0

/-- Where a queued frame came from, and so where its end is told (R183, R240, R250, R257, R305). -/
inductive TxOwner where
  | mac
  | txn (token : Nat)
  | datagram (id : Nat)
  | raw (id : Nat)
  | mpl (id copy : Nat)
  | campaign (id : Nat)
  | rpl
  | upAck
  deriving DecidableEq, Repr

/-- Where a queued frame goes: to a neighbour, or as a broadcast once by one berth (R181, R208, R250), or once by some berth of a
band, 0 below 1 GHz and 1 at 2.4 GHz (R305). -/
inductive TxDest where
  | unicast (node : Handle) (eui : Eui)
  | broadcast (berth : Nat)
  | band (b : Nat)
  deriving DecidableEq, Repr

/-- A frame queued in the MAC engine (R181 to R183). -/
structure TxFrame where
  id : Nat
  cls : TxClass
  dst : TxDest
  owner : TxOwner
  frame : Frame
  /-- PSDU octets, FCS included. -/
  len : Nat
  /-- Mode of R104, for frames that fix one (broadcast, raw). -/
  mode : Option Nat
  /-- Requested power, else TX_PWR.LEVEL (R128). -/
  power : Option Int
  /-- The one slot and channel a raw frame is eligible in (R257). -/
  rawAt : Option (SlotName × Nat)
  attempts : Nat
  deferrals : Nat
  /-- No transmission starts at or after this slot (R243). -/
  guardSlot : Option SlotName
  deriving DecidableEq, Repr

/-- A transmission planned for a berth, waiting for its go instant or on air (R121, R126, R127). -/
structure Tx where
  cls : TxClass
  frame : Frame
  queued : Option TxFrame
  len : Nat
  chan : Nat
  khz : Nat
  mode : Nat
  coded : Bool
  fcs4 : Bool
  whitened : Bool
  power : Int
  refAt : Instant
  preAt : Instant
  goAt : Instant
  lastAt : Instant
  endAt : Instant
  airtimeUs : Nat
  band : Nat
  mask : Option Nat
  node : Handle
  shared : Bool
  name : SlotName
  coexHeld : Bool
  chargedBucket : Nat
  /-- The crypto pool has begun it (R79, R323), with this AES engine; it found no key. -/
  begun : Bool
  aes : Nat
  stale : Bool
  /-- Its outcome was given; its blank interval still runs. -/
  done : Bool
  deriving DecidableEq, Repr

/-- One berth's island. -/
structure BerthS where
  demods : List Demod
  /-- Applied bins of the channel entries: none when disabled or failed (R93). -/
  bins : List (Option Int)
  loLock : Bool
  calBusy : Bool
  calValid : Bool
  trackLimit : Bool
  /-- Event 8n + 3 is not raised again before a full calibration (R98). -/
  trackLatched : Bool
  dcRes : Nat
  imageRej : Nat
  gain : Nat
  nextGain : Nat
  gainDeferred : Bool
  firstSlot : Bool
  /-- Peak of the slot so far and of the last completed slot, dB below full scale (R100). -/
  peakNow : Option Nat
  peakLast : Nat
  clipNow : Bool
  clipLast : Bool
  demodPeak : Nat
  demodLastPeak : Nat
  recSeq : BitVec 32
  /-- Entries whose channel carries a classic receive cell in this slot, and whether the berth has transmit work (R155). -/
  ackMask : List Nat
  txWork : Bool
  txLock : Bool
  synKhz : Nat
  vcoBand : Nat
  synCal : Bool
  /-- MONO in ns at which the band refresh starts, t = 2 µs of its slot (R124). -/
  synCalMono : Nat
  /-- A retune that is still to start in this slot (R123): its instant, and whether it is due only without an Enh-ACK request. -/
  retuneDue : Option (Instant × Bool)
  /-- The frame on air was sent to its last symbol; its blank interval still runs (R123, R133). -/
  airSent : Bool
  /-- MONO in ns at which a band refresh became due (R124). -/
  refreshDue : Option Nat
  refreshOverdue : Bool
  /-- MONO and temperature (0.25 °C) of the last refresh or full calibration. -/
  refreshMono : Nat
  refreshTemp : Int
  /-- Planned transmissions, earliest go instant first, and the one on air. -/
  requests : List Tx
  onAir : Option Tx
  /-- The blank interval is open, and the instant at which it closes (R103, R127). -/
  blankEnd : Option Instant
  /-- The end of the last blank interval (R144). -/
  lastBlank : Option Instant
  /-- Filter taps by 64 * entry + tap; an unlisted tap has its reset value (R134). -/
  taps : SMap (BitVec 16)
  /-- Temperature of the berth's own sensor, 0.25 °C (R459). -/
  temp : Int
  deriving DecidableEq, Repr

/-- A demodulator after reset. -/
def Demod.reset : Demod := ⟨.off, 0, 0, false, none⟩

/-- A berth's channel entries: 48 below berth 4, 16 on berths 4 and 5 (R92). -/
def berthEntries (n : Nat) : Nat := if n < 4 then 48 else 16

/-- A berth after a reset that re-runs start-up. (DESIGN CHOICE, log 7) -/
def BerthS.reset (n : Nat) : BerthS where
  demods := List.replicate (berthEntries n) Demod.reset
  bins := List.replicate (berthEntries n) none
  loLock := false
  calBusy := false
  calValid := false
  trackLimit := false
  trackLatched := false
  dcRes := 0
  imageRej := 0
  gain := 0
  nextGain := 0
  gainDeferred := false
  firstSlot := true
  peakNow := none
  peakLast := 0
  clipNow := false
  clipLast := false
  demodPeak := 0
  demodLastPeak := 0
  recSeq := 0
  ackMask := []
  txWork := false
  txLock := false
  synKhz := 0
  vcoBand := 0
  synCal := false
  synCalMono := 0
  retuneDue := none
  airSent := false
  refreshDue := none
  refreshOverdue := false
  refreshMono := 0
  refreshTemp := 0
  requests := []
  onAir := none
  blankEnd := none
  lastBlank := none
  taps := []
  temp := 0

/-- A coded frame waiting for, or held by, a trellis engine (R113, R114). -/
structure Coded where
  record : RxRec
  ackDue : Bool
  deriving DecidableEq, Repr

/-- The trellis decoder pool: the queue of coded frames, and what each of the eight engines holds (R113 to R115). -/
structure DecoderS where
  queue : List Coded
  engines : List (Option Coded)
  deriving DecidableEq, Repr

/-- BCOM beyond its registers: the levels of the COEX_GNT balls, the duty buckets per band entry keyed by bucket number,
the bucket that holds MONO, and fusing in progress (R138, R143, R145). -/
structure BcomS where
  gnt : List Bool
  duty : List (SMap Nat)
  bucket : Nat
  fusing : Bool
  deriving DecidableEq, Repr

end Sys2Proof.Machine
end

