-- ==== Sys2Proof/Machine/StTables.lean ====
section
/-!
DEFINITION. The state of the MAC engine (R149 to R185), of the neighbour tables, the node directory, the cuckoo index,
the stray list, table locks and RPL (R186 to R224).
-/

namespace Sys2Proof.Machine

/-- One cell of the cell table as its two data words (R153). -/
structure Cell where
  d0 : Word
  d1 : Word
  deriving DecidableEq, Repr

/-- The tables that MAC_COMMIT applies: the cells by index and the hopping entries by 256 * sequence + index (R153, R154). -/
structure MacTables where
  cells : SMap Cell
  hops : SMap Nat
  deriving DecidableEq, Repr

/-- A slot waiting for block-ack coverage: its slot count A (R72) and whether it was a wide slot of the band (R168). -/
structure BaSlot where
  count : Nat
  wide : Bool
  /-- Its channel offsets below this one are covered (R172). -/
  base : Nat
  deriving DecidableEq, Repr

/-- A block-ack bit: slot count, channel offset and hash (R172). -/
structure BaBit where
  count : Nat
  offset : Nat
  hash : Nat
  deriving DecidableEq, Repr

/-- Block acknowledgement of one band (R168, R172). -/
structure BaS where
  slots : List BaSlot
  bits : List BaBit
  deriving DecidableEq, Repr

/-- An Enh-ACK that the device expects: the queued frame, its channel, the neighbour and the DSN, and the window of the
first preamble symbol (R164). -/
structure AwaitAck where
  queued : TxFrame
  khz : Nat
  eui : Eui
  dsn : Option Byte
  shared : Bool
  opens : Instant
  closes : Instant
  deriving DecidableEq, Repr

/-- EB state of a berth (R174, R175). -/
structure EbS where
  due : Bool
  suppressed : Nat
  forced : Bool
  deriving DecidableEq, Repr

/-- What identifies a reception that was already processed (R161). -/
structure Reception where
  khz : Nat
  src : Addr
  dsn : Option Byte
  sfdTime : Instant
  /-- The record that was kept of it passed step 6 of R160. -/
  passed : Bool
  deriving DecidableEq, Repr

/-- The MAC engine. -/
structure MacS where
  staging : MacTables
  active : MacTables
  ebs : List EbS
  /-- Block acknowledgement of the sub-GHz and of the 2.4 GHz band. -/
  ba : List BaS
  /-- Queued frames, oldest first. -/
  queue : List TxFrame
  nextId : Nat
  awaiting : List AwaitAck
  /-- Closed records waiting for RECEIVE_RECORD, oldest first. -/
  records : List RxRec
  recent : List Reception
  /-- Neighbour handles whose loss MAC_NBR_DRIFT.LOST shows (R179). -/
  lost : List Nat
  dsnNext : Byte
  /-- The slot planned last (R182). -/
  planned : Option SlotName
  deriving DecidableEq, Repr

/-- A neighbour entry (R188); only valid entries are listed in a table. -/
structure Nbr where
  eui : Eui
  short : BitVec 16
  lqm : Int
  node : Handle
  home : Bool
  hasDrift : Bool
  held : Bool
  shortSeen : Bool
  misses : Nat
  be : Nat
  rssiAvg : Int
  d : Int
  oLast : Int
  tLast : Instant
  backoff : Nat
  /-- The slot of the neighbour's last accepted frame, once there is one, which all its entries share (R162). -/
  seen : Bool
  last : SlotName
  /-- The last four accepted (DSN, AGE) pairs, newest first. -/
  dup : List (Byte × Nat)
  rxCnt : Nat
  txFail : Nat
  learned : SlotName
  /-- Whether a frame was accepted yet (`valid` of R176), and MONO in ns of the last record that counts for ageing (R191). -/
  accepted : Bool
  heardMono : Nat
  deriving DecidableEq, Repr

/-- A node's STATE in the directory (R196). -/
inductive NodeState where
  | heard
  | routed
  | expired
  | named
  | suspect
  | overflow
  | reserved (code : Fin 16)
  deriving DecidableEq, Repr

/-- A directory entry (R195): every field of its eight words; only VALID entries are listed. -/
structure DirEnt where
  eui : Eui
  parent0 : Nat
  parent1 : Nat
  depth : Nat
  tenant : Nat
  state : NodeState
  pref : Nat
  castGen : BitVec 8
  campState : Nat
  lastRsn : Word
  lastEpoch : BitVec 16
  daoLife : Nat
  sealTxSeq : Nat
  sealRxHigh : Nat
  daoSeq : Byte
  campId : Byte
  sealRxWin : BitVec 32
  campPos : BitVec 16
  nbr : Nat
  nbrValid : Bool
  mid0 : BitVec 16
  mid1 : BitVec 16
  rxCnt : Nat
  txFail : Nat
  groups : List Nat
  /-- The words of the entry whose check fails: a read of one meets an uncorrectable error (R200, R348). -/
  bad : List Nat
  deriving DecidableEq, Repr

/-- One way of an index bucket (R201). -/
structure Way where
  handle1 : Nat
  tag : Nat
  deriving DecidableEq, Repr

/-- A stray (R207): its EUI-64, its parent (none: the root), and MONO in ns at which it leaves the list, if ever. -/
structure Stray where
  eui : Eui
  parent : Option Handle
  until? : Option Nat
  deriving DecidableEq, Repr

/-- A table lock (R219). -/
structure TblLock where
  handle : Handle
  fn : Nat
  untilMono : Nat
  deriving DecidableEq, Repr

/-- A learn or LQM event held by the home arbiter (R192). -/
structure ArbEvent where
  eui : Eui
  nbr : Nat
  lqm : Int
  sfdTime : Instant
  /-- MONO in ns at which it is released. -/
  releaseMono : Nat
  deriving DecidableEq, Repr

/-- The DIO Trickle timer (R210): its interval in ms, MONO in ns of its next firing and of the interval's end, and the DIOs
heard in the interval. -/
structure TrickleS where
  intervalMs : Nat
  fireMono : Option Nat
  endMono : Nat
  heard : Nat
  deriving DecidableEq, Repr

/-- A table command that has reached the engine (R217): from the TBL registers of a function, or from a descriptor of its ring S2. -/
inductive TblRef where
  | regs (fn : Nat)
  | desc (fn index : Nat)
  deriving DecidableEq, Repr

/-- The function that gave a table command. -/
def TblRef.fn : TblRef → Nat
  | .regs f | .desc f _ => f

/-- The table engine, index engine, arbiter and RPL. -/
structure TablesS where
  nbrs : SMap Nbr
  /-- Per berth: the next index never used, and the indices freed, longest ago first (R187). -/
  nbrNext : List Nat
  nbrFreed : List (List Nat)
  dir : SMap DirEnt
  /-- The next handle never used and the handles freed, longest ago first (R194). -/
  dirNext : Nat
  dirFreed : List Handle
  /-- Handles a checkpoint load left in use below dirNext are listed in dir; index buckets by number (R201). -/
  index : SMap (List Way)
  /-- The bucket under repair (R205). -/
  repairing : Option Nat
  seed0 : BitVec 64
  seed1 : BitVec 64
  strays : List Stray
  locks : List TblLock
  /-- Table commands in the order in which they reached the engine (R217). -/
  cmdq : List TblRef
  arb : List ArbEvent
  arbReleased : Option Instant
  trickle : TrickleS
  /-- MONO minute count of the last DAO lifetime tick (R212). -/
  daoMinute : Nat
  deriving DecidableEq, Repr

end Sys2Proof.Machine
end

