-- ==== Sys2Proof/Machine/StRings.lean ====
section
/-!
DEFINITION. The host side of the device (R46 to R50, R261 to R296): return entries, descriptors, upward items, DMA jobs,
fault records, the state of each host function and of the stevedores, and the log of what leaves the device.
-/

namespace Sys2Proof.Machine

/-- A 32-byte return entry (R272, R46), but for its PHASE bit, which follows from its index. -/
structure Entry where
  tag : Word
  status : Nat
  opcode : Nat
  interim : Bool
  result : Word
  node : Nat
  ts : Instant
  aux : BitVec 64
  deriving DecidableEq, Repr

/-- Where a descriptor stands: fetched and not started, its payload gather running, gathered and ready for its engine,
with its engine, or with a response or image being written to host memory (R269, R283, R286). -/
inductive DescPhase where
  | waiting
  | gather
  | ready
  | engine
  | respond
  deriving DecidableEq, Repr

/-- A fetched descriptor: its ring, its number, its 64 bytes, and the payload gathered for it (R265, R269, R286). The number is its
ring index with the count of the ring's restarts above it, so that no two descriptors of a ring share one (R275). -/
structure DescS where
  ring : Nat
  index : Nat
  bytes : List Byte
  phase : DescPhase
  payload : List Byte
  poisoned : Bool
  deriving DecidableEq, Repr

/-- A posted receive buffer (R270, R287), with QUIET_OK of its post (R269). -/
structure RxPost where
  tag : Word
  addr : Nat
  index : Nat
  quietOk : Bool
  deriving DecidableEq, Repr

/-- An upward item: the delivery header of R251 and its content, and what its C1 entry carries. -/
structure UpItem where
  src : Eui
  token : List Byte
  node : Nat
  kind : Nat
  coapType : Nat
  opened : Bool
  linkUnsec : Bool
  late : Bool
  code : Nat
  berth : Nat
  midOrSport : Nat
  dport : Nat
  content : List Byte
  status : Nat
  ts : Instant
  name : SlotName
  /-- Its content is found truncated in the hold (R287). -/
  abandoned : Bool
  deriving DecidableEq, Repr

/-- What a DMA job moves (R277, R283). The engines' own jobs name the campaign, or the area of a checkpoint. The write of a return
entry and a delivery take up what they write when their first sling is done or faults: until then it stands in its queue. -/
inductive JobWhat where
  | doorbell
  | fetch (ring index : Nat)
  | gather (ring index : Nat)
  /-- A write to host memory that ends a descriptor: response buffer, image, report, statement; `timed` when the completion has a
  TIMESTAMP of its own. -/
  | respond (ring index : Nat) (done : Entry) (timed : Bool)
  /-- The write of a return entry or an event entry to its ring. -/
  | entry (ring : Nat) (own : Option Entry)
  | status
  | deliver (own : Option (RxPost × UpItem))
  | campGather (camp sbn : Nat)
  | campRecord (camp : Nat) (seq : Word) (back : Bool)
  | campResume (ring index : Nat)
  | ckptWrite
  | ckptBack
  /-- The read of a checkpoint image (R380). -/
  | ckptLoad (ring index : Nat)
  deriving DecidableEq, Repr

/-- A DMA job and its resume record (R277): OFFSET is `moved`; `octets` are what a read brought so far, or all that a write
brings; `paged` when a page request for it succeeded and its next translation is the second (R280); `slot` the fault record it
last filled (R284); `abort` when a drop or flush waits for its sling boundary (R285); `aux` what its abandoned descriptor reports
(R273). -/
structure Job where
  fn : Nat
  what : JobWhat
  cls : Nat
  addr : Nat
  total : Nat
  moved : Nat
  write : Bool
  octets : List Byte
  poisoned : Bool
  paged : Bool
  slot : Option Nat
  abort : Bool
  aux : Nat
  deriving DecidableEq, Repr

/-- A valid fault record and the job that it parks (R282, R295). -/
structure FaultRec where
  job : Job
  auto : Bool
  kind : Nat
  /-- MONO in ns at which its page request times out; none while the fault waits for a free page request (R280). -/
  pageUntil : Option Nat
  deriving DecidableEq, Repr

/-- One ring of a function (R264 to R266, R276, R289): S rings hold the device HEAD and the TAIL last seen, C rings the
HEAD last seen and the device TAIL. -/
structure RingS where
  head : Word
  tail : Word
  /-- Descriptors fetched and not yet completed, in ring order. -/
  descs : List DescS
  fetching : Bool
  /-- Entries since the ring's last message, and MONO in ns of the oldest of them (R276). -/
  unsignalled : Nat
  oldest : Option Nat
  /-- MONO in ns at which a flush forces the rest (R289). -/
  flushUntil : Option Nat
  /-- The TAIL up to which a flush acts while it runs (R289). -/
  flushTo : Option Word
  /-- Held entries of the ring being written after a re-enable under R291, counted from that enable. -/
  catching : Option Nat
  /-- Restarts of the ring's indices (R265): the upper part of its descriptors' numbers. -/
  lap : Nat
  deriving DecidableEq, Repr

/-- An occurrence of an event on its way to a function (R45, R46): its record, and whether it set a pending bit that was 0. -/
structure EvOcc where
  code : Nat
  injected : Bool
  result : Word
  node : Nat
  ts : Instant
  aux : BitVec 64
  newly : Bool
  deriving DecidableEq, Repr

/-- A source's holdoff for a function (R47): MONO in ns at which it ends, and the occurrences merged with the latest. -/
structure Holdoff where
  untilMono : Nat
  merged : Nat
  latest : Option EvOcc
  deriving DecidableEq, Repr

/-- How a host access reaches the register path (R36): an aligned 32-bit access, or one of any other size, alignment or byte
enables. -/
inductive Shape where
  | word
  | malformed
  deriving DecidableEq, Repr

/-- The request header that AER logs with a Completer Abort (R41): a read or a write, its BAR0 offset and its shape. -/
structure AerLog where
  read : Bool
  off : Nat
  shape : Shape
  deriving DecidableEq, Repr

/-- One host function (R262 to R296) beyond its registers. -/
structure FnS where
  busMaster : Bool
  ats : Bool
  pri : Bool
  quiesced : Bool
  /-- Descriptor fetches are stopped by the holding queue (R288). -/
  backPaused : Bool
  rings : List RingS
  /-- A doorbell read that has completed and is not yet acted on (R267). -/
  doorbell : Option (List Byte)
  /-- SEQ of the doorbell copy last acted on (R268). -/
  seqSeen : BitVec 16
  /-- Return entries produced and not yet written or held, oldest first, with their ring ids. -/
  out : List (Nat × Entry)
  /-- The holding queue, oldest first (R288). -/
  held : List (Nat × Entry)
  posts : List RxPost
  /-- Upward items that have a place and wait for RECEIVE_DELIVERY, oldest first (R251, R255). -/
  ups : List UpItem
  faults : List (Option FaultRec)
  /-- MONO in ns of the latest activity (R291). -/
  liveMono : Nat
  /-- A pending loss notice: the number lost, 0xFFFF_FFFF when unknown (R274). -/
  loss : Option Nat
  /-- The last Completer Abort that AER logged (R41). -/
  aer : Option AerLog
  /-- MSI-X Enable and Function Mask (R48, R262). -/
  msixEn : Bool
  msixFnMask : Bool
  msixMask : List Bool
  msixPend : List Bool
  /-- A status block write is due (R268), and the vectors of event entries whose messages follow it (R48). -/
  statusDue : Bool
  evtDue : List Nat
  /-- Max_Payload_Size in bytes, 128 or 256 (R261). -/
  maxPayload : Nat
  evq : List EvOcc
  holdoffs : SMap Holdoff
  /-- Sequence of the function's next transaction token (R237). -/
  tokenSeq : BitVec 25
  /-- TBL_DATA words that hold a copy of a bad word, until they are written (R221). -/
  tblBad : List Nat
  deriving DecidableEq, Repr

/-- A cached translation (R279): function, and a range of 2^`span` pages of 4 KiB from `page`. -/
structure AtcEnt where
  fn : Nat
  page : Nat
  span : Nat
  deriving DecidableEq, Repr

/-- An ATS Invalidate Request that is not answered yet (R281): its pages, and the slings that used a translation of them, by stevedore
and address. -/
structure InvalReq where
  fn : Nat
  page : Nat
  count : Nat
  slings : List (Nat × Nat)
  deriving DecidableEq, Repr

/-- A PCIe port: whether its link is up, its PERST_N level, its translation cache, most recently used first, and its Invalidate
Requests that wait, oldest first (R261, R279, R281, R402). -/
structure PortS where
  linkUp : Bool
  perstHigh : Bool
  atc : List AtcEnt
  invals : List InvalReq
  deriving DecidableEq, Repr

/-- A port before its link comes up. -/
def PortS.reset : PortS := ⟨false, true, [], []⟩

/-- What leaves the device, as the outside sees it. (DESIGN CHOICE, log 11) -/
inductive Out where
  /-- A return entry written to ring `ring` of function `fn` at index `index` with PHASE `phase` (R272): its address and its octets. -/
  | entry (fn ring : Nat) (index : Word) (phase : Bool) (e : Entry) (addr : Nat) (octets : List Byte)
  /-- A status block write: S_HEAD, C_TAIL, DB_SEQ_SEEN, FN_STATE, HELD and TIMESTAMP, its address and its octets (R268). -/
  | statusBlock (fn : Nat) (heads tails : List Word) (seq : BitVec 16) (state held : Nat) (ts : Instant) (addr : Nat)
      (octets : List Byte)
  /-- Octets written to host memory, as one TLP. -/
  | hostWrite (fn addr : Nat) (octets : List Byte) (poisoned : Bool)
  | msix (fn vector : Nat)
  | pageRequest (fn page : Nat)
  | translationRequest (fn page : Nat)
  /-- The answer to an ATS Invalidate Request (R281). -/
  | invalidated (fn page count : Nat)
  /-- The data of a register read that completed. -/
  | readData (fn off : Nat) (value : Word)
  /-- A read that completed with Completer Abort (R41). -/
  | completerAbort (fn off : Nat)
  /-- A non-fatal error that a function signals to its root port (R41). -/
  | nonFatalError (fn : Nat)
  /-- A frame that started on air: berth, channel centre in kHz, instant of its first preamble symbol, power; mode, coding, whitening;
  the frame and the octets of its PSDU. -/
  | air (berth khz : Nat) (preAt : Instant) (power : Int) (mode : Nat) (coded whitened : Bool) (f : Frame) (psdu : List Byte)
  /-- A frame that ended on air before its last symbol (R132). -/
  | airEnd (berth : Nat) (outcome : TxOutcome)
  /-- A tide message (R83, R84): MONO in ns at its first start bit, and its octets. -/
  | tide (mono : Nat) (octets : List Byte)
  /-- The word that the TAP shifts out under IDCODE (R417). -/
  | idcode (word : Word)
  /-- I²C octets returned (R430). -/
  | i2c (octets : List Byte)
  deriving DecidableEq, Repr

/-- A ring after a function's reset. -/
def RingS.reset : RingS := ⟨0, 0, [], false, 0, none, none, none, none, 0⟩

/-- A function after a device reset, FLR or port reset (R293, R401). (DESIGN CHOICE, log 7) -/
def FnS.reset : FnS where
  busMaster := false
  ats := false
  pri := false
  quiesced := false
  backPaused := false
  rings := List.replicate 8 RingS.reset
  doorbell := none
  seqSeen := 0
  out := []
  held := []
  posts := []
  ups := []
  faults := List.replicate 16 none
  liveMono := 0
  loss := some 0xFFFFFFFF
  aer := none
  msixEn := false
  msixFnMask := false
  msixMask := List.replicate 16 true
  msixPend := List.replicate 16 false
  statusDue := false
  evtDue := []
  maxPayload := 128
  evq := []
  holdoffs := []
  tokenSeq := 0
  tblBad := []

end Sys2Proof.Machine
end

