-- ==== Sys2Proof/Machine/StSvc.lean ====
section
/-!
DEFINITION. The state of the service engine (R225 to R260) and of the campaign engine (R297 to R315) that their registers
do not themselves hold.
-/

namespace Sys2Proof.Machine

/-- Where a transaction stands (R240): its frames with the MAC engine, waiting for its ACK, or waiting for a separate
response. -/
inductive TxnPhase where
  | sending
  | waitAck
  | waitResp
  deriving DecidableEq, Repr

/-- One transaction of the transaction table (R237 to R243). -/
structure Txn where
  token : Word
  fn : Nat
  /-- The descriptor that carries it: ring and index; for a fan-out member the group job's. -/
  ring : Nat
  index : Nat
  tag : Word
  /-- The fan-out it belongs to, if any (R248). -/
  group : Option Nat
  target : Eui
  handle : Option Handle
  mid : BitVec 16
  con : Bool
  code : Nat
  cls : TxClass
  /-- Options and payload as the host gave them. -/
  body : List Byte
  /-- The envelope, once built (R232). -/
  envelope : Option Seal
  sealed : Bool
  phase : TxnPhase
  retxLeft : Nat
  /-- The current ACK timeout in ms and MONO in ns of its end, once running (R240). -/
  timeoutMs : Nat
  ackMono : Option Nat
  /-- MONO in ns of the end of the wait for a separate response. -/
  respMono : Option Nat
  deadline : Option SlotName
  actAt : Option SlotName
  respAddr : Nat
  respLen : Nat
  /-- CoAP transmissions made, and whether any frame was sent. -/
  made : Nat
  sent : Bool
  acked : Bool
  /-- Frames of the present transmission still with the MAC engine, and whether one has started. -/
  framesLeft : Nat
  begun : Bool
  deriving DecidableEq, Repr

/-- A MSG_GROUP sent as a fan-out (R248, R249). -/
structure GroupJob where
  id : Nat
  fn : Nat
  ring : Nat
  index : Nat
  tag : Word
  group : Nat
  code : Nat
  cls : TxClass
  con : Bool
  sealed : Bool
  report : Bool
  retxMax : Nat
  actAt : Option SlotName
  deadline : Option SlotName
  body : List Byte
  members : Nat
  /-- The next handle to look at. -/
  next : Handle
  outstanding : Nat
  anySent : Bool
  succeeded : Nat
  failed : Nat
  cause : Nat
  deriving DecidableEq, Repr

/-- A copy of an MPL message that the MAC engine still holds frames of: its number, those frames, and whether one was sent
(R249, R250). -/
structure MplPart where
  copy : Nat
  framesLeft : Nat
  sent : Bool
  deriving DecidableEq, Repr

/-- A MSG_GROUP sent by MPL (R250). -/
structure MplJob where
  id : Nat
  fn : Nat
  ring : Nat
  index : Nat
  tag : Word
  group : Nat
  cls : TxClass
  actAt : Option SlotName
  deadline : Option SlotName
  members : Nat
  packet : Packet
  /-- Waiting for one of the 16 places. -/
  waiting : Bool
  /-- Copies sent (R249), and copies handed to the MAC engine. -/
  copies : Nat
  fired : Nat
  intervalMs : Nat
  doublings : Nat
  fireMono : Option Nat
  endMono : Nat
  /-- Copies of others heard in the interval. -/
  heard : Nat
  parts : List MplPart
  /-- No further copy follows. -/
  stopped : Bool
  /-- The status of a frame that preparation refused, 0 for none (R133, R249). -/
  cause : Nat
  deriving DecidableEq, Repr

/-- A DGRAM_SEND in progress (R256). -/
structure DgramJob where
  id : Nat
  fn : Nat
  ring : Nat
  index : Nat
  tag : Word
  handle : Option Handle
  deadline : Option SlotName
  framesLeft : Nat
  attempts : Nat
  sent : Bool
  deriving DecidableEq, Repr

/-- A RAW_FRAME in progress (R257). -/
structure RawJob where
  id : Nat
  fn : Nat
  ring : Nat
  index : Nat
  tag : Word
  deriving DecidableEq, Repr

/-- A fragment held by a reassembly context: offset, length, identity of its octets (R236). -/
structure Frag where
  offset : Nat
  len : Nat
  digest : Nat
  deriving DecidableEq, Repr

/-- A reassembly context (R236). -/
structure Reasm where
  src : Eui
  tag : Nat
  size : Nat
  frags : List Frag
  openMono : Nat
  /-- A fragment came without link security, or carries poison. -/
  linkUnsec : Bool
  poisoned : Bool
  deriving DecidableEq, Repr

/-- An upward packet or fragment on its way through the service engine: the content, and the record that brought it (R17,
R251, R254). -/
structure UpPkt where
  /-- The link source's EUI-64. -/
  link : Eui
  upper : Upper
  sfdTime : Instant
  name : SlotName
  berth : Nat
  linkUnsec : Bool
  /-- Its data carries poison (R350). -/
  poisoned : Bool
  deriving DecidableEq, Repr

/-- An RPL message for the device, with the node that sent it, the link it came by, and whether it was a multicast
(R209 to R213). -/
structure RplIn where
  src : Eui
  link : Eui
  msg : Rpl
  multicast : Bool
  name : SlotName
  deriving DecidableEq, Repr

/-- An upward CON waiting for a place (R255): the message to be acknowledged, its node and UDP port, and MONO in ns at which it is
dropped. -/
structure UpWait where
  fn : Nat
  item : UpItem
  msg : Coap
  ackNode : Eui
  port : Nat
  untilMono : Nat
  deriving DecidableEq, Repr

/-- The service engine: the transactions, group jobs, MPL messages, datagrams and raw frames in progress, the OWNER of each
group where it differs from the harbour master function (R246), reassembly, and what arrived from the MAC engine. -/
structure SvcS where
  txns : List Txn
  groups : List GroupJob
  mpls : List MplJob
  dgrams : List DgramJob
  raws : List RawJob
  nextId : Nat
  owners : SMap Nat
  reasm : List Reasm
  /-- Upward packets and fragments waiting for the engine, oldest first. -/
  upq : List UpPkt
  rplq : List RplIn
  waits : List UpWait
  deriving DecidableEq, Repr

/-- One source block of a campaign (R301, R302, R307, R310). -/
structure CampBlk where
  k : Nat
  nextEsi : Nat
  /-- The confirmed ESI_LIMIT. -/
  limit : Nat
  retired : Bool
  exhausted : Bool
  deriving DecidableEq, Repr

/-- Where a campaign stands (R297, R298, R308, R313). -/
inductive CampPhase where
  /-- Its CAMPAIGN_START is still open: the RESUME read or the first record is under way. -/
  | starting
  | running
  | ended (reason : Nat)
  deriving DecidableEq, Repr

/-- A record not yet confirmed (R309, R310): its SEQ, the end reason it carries, and the ESI_LIMIT of each block. -/
structure CampRec where
  seq : Word
  endReason : Nat
  limits : List Nat
  deriving DecidableEq, Repr

/-- One campaign (R297 to R313). -/
structure Camp where
  id : Nat
  owner : Nat
  /-- The CAMPAIGN_START descriptor while it is open: ring, index, HOST_TAG, and whether it resumes. -/
  ring : Nat
  index : Nat
  tag : Word
  resume : Bool
  nonce : BitVec 16
  imgAddr : Nat
  f : Nat
  t : Nat
  kmax : Nat
  group : Nat
  budget : Nat
  startAt : Option SlotName
  endBy : Option SlotName
  ckptAddr : Nat
  ckptLen : Nat
  skipped : Nat
  phase : CampPhase
  paused : Bool
  /-- START_AT was reached, or none was given (R298). -/
  started : Bool
  /-- It waits in CKPT_WAIT, and event 140 was raised for this wait (R310). -/
  ckptWait : Bool
  /-- No symbol fits a frame (R303). -/
  noFit : Bool
  blks : List CampBlk
  /-- Next block to visit. -/
  nextSbn : Nat
  position : Word
  /-- SEQ of the last confirmed record, and the records not yet confirmed, oldest first. -/
  seq : Word
  records : List CampRec
  confirmedMono : Nat
  /-- CAMP_SCHED.CKPT_S has passed since the last confirmed record, and its record was built (R310). -/
  timerDone : Bool
  windowMono : Nat
  windowUsed : Nat
  /-- Members of its group that carried its CAMP_ID when the target set was formed and are no targets (R300). -/
  excluded : List Handle
  deriving DecidableEq, Repr

/-- The campaign engine: its campaigns, active and ended, the blocks prepared, with their source octets, or in preparation,
the campaign served last, and the visit under way: campaign, block and frames left (R302, R305). -/
structure CampS where
  camps : List Camp
  prepared : List (Nat × Nat × List Byte)
  preparing : List (Nat × Nat)
  turn : Nat
  visit : Option (Nat × Nat × Nat)
  deriving DecidableEq, Repr

/-- The service engine after a reset that re-runs start-up. (DESIGN CHOICE, log 7) -/
def SvcS.reset : SvcS := ⟨[], [], [], [], [], 0, [], [], [], [], []⟩

/-- The campaign engine after a reset that re-runs start-up. (DESIGN CHOICE, log 7) -/
def CampS.reset : CampS := ⟨[], [], [], 0, none⟩

end Sys2Proof.Machine
end

