-- ==== Sys2Proof/Machine/StSys.lean ====
section
/-!
DEFINITION. The state of the fabric's units, of the keys and the plinth, of the hold, of the claim bus, of the own firmware
and its flash, and of start-up and test (R16 to R33, R316 to R436) that their registers do not themselves hold.
-/

namespace Sys2Proof.Machine

/-- What a fabric link serves: a fenceable unit by its id (R28), or a unit of FABRIC_CORE_FAULT by its bit (R30, R32). -/
inductive Link where
  | unit (u : Fin 31)
  | core (bit : Fin 16)
  deriving DecidableEq, Repr

/-- The fabric (R20 to R31): MONO in ns of the replays of the last second, the runs of the voltage policy, the latch of event
180, the unfence test running, and the pilot cores' states. -/
structure FabricS where
  replays : List Nat
  /-- Consecutive refusals of the token that a link's holding latch keeps, by link; an unlisted link has none (R27). -/
  refused : List (Link × Nat)
  lowRun : Nat
  highRun : Nat
  /-- Event 180 was raised and RATE has not risen since (R20). -/
  lowLatched : Bool
  unfencing : Option Nat
  /-- FABRIC_PILOT_STATE of each core (R29, R376). -/
  pilots : List Nat
  deriving DecidableEq, Repr

/-- A mould slot (R319): USE, current and prior key, MONO in ns at which the grace ends, VERSION, and whether its current key
was invalidated. -/
structure Mould where
  use : Nat
  current : Option (BitVec 128)
  prior : Option (BitVec 128)
  /-- USE of the prior key. -/
  priorUse : Nat
  graceMono : Option Nat
  version : BitVec 8
  retired : Bool
  deriving DecidableEq, Repr

/-- A cast cache entry that is not pinned (R321): its slot and VERSION, whether it derives from the prior key, the EUI-64 and
generation. -/
structure CacheEnt where
  slot : Nat
  version : BitVec 8
  fromPrior : Bool
  eui : Eui
  gen : BitVec 8
  deriving DecidableEq, Repr

/-- A pinned entry of the cast cache: a node's old generation in grace (R324). -/
structure GenGrace where
  eui : Eui
  gen : BitVec 8
  untilMono : Nat
  deriving DecidableEq, Repr

/-- A staging word and the function that wrote it (R320, R333, R389). -/
abbrev Staged := Option (Word × Nat)

/-- The key store, the cast cache and the DRBG (R316 to R328). -/
structure KeysS where
  slots : List Mould
  staging : List Staged
  cache : List CacheEnt
  graces : List GenGrace
  drbgReady : Bool
  drbgBlocked : Bool
  entropyFail : Bool
  reseedMono : Nat
  /-- Keys and slots already used for a frame of the slot named (R327). -/
  nonces : List (CastKey × SlotName)
  deriving DecidableEq, Repr

/-- The plinth (R329 to R334), on VBAT: the root when valid, the tamper configuration's lock, the seconds count, the staged
image key and the provisioning operation running. -/
structure PlinthS where
  vbat : Bool
  root : Option (BitVec 256)
  lfsr : List (BitVec 15)
  /-- PLINTH_SECONDS in XREF_IN ticks of 25 ns. -/
  ticks : Nat
  imgStaging : List Staged
  provisioning : Option Nat
  /-- MONO in ns at which a scuttle's reset follows (R331). -/
  scuttleMono : Option Nat
  deriving DecidableEq, Repr

/-- An identity key: its modulus, and the root whose identityWrapKey (K_IDW) it is wrapped under (R334). (DESIGN CHOICE, log 4) -/
structure Identity where
  modulus : BitVec 3072
  wrappedBy : BitVec 256
  deriving DecidableEq, Repr

/-- An OTP image-key entry: the fleet image key, and the root whose imageWrapKey (K_IMW) it is wrapped under (R333).
(DESIGN CHOICE, log 4) -/
structure ImgKey where
  key : BitVec 256
  wrappedBy : BitVec 256
  /-- Its fusing failed or was cut short, so that it never unwraps. -/
  broken : Bool
  deriving DecidableEq, Repr

/-- A correctable-error log entry (R345). -/
structure CeEnt where
  loc : BitVec 26
  bit : Nat
  count : Nat
  recurring : Bool
  deriving DecidableEq, Repr

/-- A field-repair entry of OTP (R359, R360). -/
structure Repair where
  bank : Nat
  row : Nat
  void : Bool
  /-- Fused since the last start-up. -/
  pending : Bool
  deriving DecidableEq, Repr

/-- The hold beyond its contents, which live with their owners (R340 to R361). -/
structure HoldS where
  log : List CeEnt
  /-- Locations whose uncorrectable read has raised event 160 and that were not written since (R348). -/
  seen : List (BitVec 26)
  /-- MONO in ns of the CEs of the last second, and of the last event 163 (R344). -/
  ces : List Nat
  rateMono : Option Nat
  /-- Event 166 was raised and FREE has not risen above WARN since (R356). -/
  poolLow : Bool
  /-- A flush that waits (R357): the queue, MONO in ns of its forcing, and the items that were in progress. A repair in progress
  (R361): bank and row. -/
  flushing : Option (Nat × Nat × List Nat)
  repairing : Option (Nat × Nat)
  /-- HOLD_POOL.LOW_WATER (R356). -/
  lowWater : Nat
  /-- Ids of the queues whose producer stalls for want of a cell (R356). -/
  stalled : List Nat
  deriving DecidableEq, Repr

/-- CLAIM_STATUS.STATE (R363). -/
inductive ClaimState where
  | none
  | standby
  | rising
  | active
  | diag
  deriving DecidableEq, Repr

/-- The code of a claim state (R383). -/
def ClaimState.code : ClaimState → Nat
  | .none => 0
  | .standby => 1
  | .rising => 2
  | .active => 3
  | .diag => 4

/-- The header of a checkpoint (R378), as far as a load or takeover uses it. -/
structure CkptHeader where
  full : Bool
  writing : Bool
  formatOk : Bool
  crcOk : Bool
  seq : Word
  prevSeq : Word
  srcEui : Eui
  incarnation : BitVec 4
  rplVersion : Byte
  rplDtsn : Byte
  name : SlotName
  ns : Instant
  mid : BitVec 16
  frag : BitVec 16
  mplSeq : Byte
  dirMarked : Nat
  nbrMarked : Nat
  deriving DecidableEq, Repr

/-- A checkpoint image: its header, its entries by handle and by berth * 2048 + index, and the entries its change maps
mark (R378). A marked entry that is not listed is removed. -/
structure CkptImage where
  header : CkptHeader
  dir : SMap DirEnt
  nbrs : SMap Nbr
  dirMarks : List Nat
  nbrMarks : List Nat
  deriving DecidableEq, Repr

/-- A checkpoint being written (R379): its header, and the entries that it marks, ascending; a full one marks every entry and
lists none. -/
structure CkptWrite where
  header : CkptHeader
  dirMarks : List Nat
  nbrMarks : List Nat
  deriving DecidableEq, Repr

/-- The open CKPT_AREA (R378). -/
structure CkptArea where
  fn : Nat
  ring : Nat
  index : Nat
  tag : Word
  addr : Nat
  intervalS : Nat
  fullEach : Bool
  deriving DecidableEq, Repr

/-- A checkpoint load in progress (R380). -/
structure CkptLoad where
  fn : Nat
  ring : Nat
  index : Nat
  tag : Word
  image : CkptImage
  deriving DecidableEq, Repr

/-- The CLAIM island and the checkpoints (R363 to R384). -/
structure ClaimS where
  st : ClaimState
  /-- The highest claim that the other units of the bus present, and the settled bus value (R364). -/
  others : BitVec 4
  bus : BitVec 4
  /-- MONO in ns since which BOLLARD_3 is released, and whether QUIET is 1 (R367). -/
  quietFrom : Option Nat
  quiet : Bool
  /-- FAILOVER_N as other units pull it (R377). -/
  failoverIn : Bool
  /-- This unit drives FAILOVER_N low (R376). -/
  failoverOut : Bool
  gate : Bool
  /-- The unit holds the bus since this MONO in ns, and passed a release probe (R369). -/
  heldMono : Option Nat
  probed : Bool
  /-- MONO in ns at which the next periodic release probe of an active unit is due (R366). -/
  probeMono : Option Nat
  ckptLoaded : Bool
  lastHeader : Option CkptHeader
  area : Option CkptArea
  /-- The checkpoint being written, and the changes since the last one (R379). -/
  writing : Option CkptWrite
  nextFull : Bool
  dirChanged : List Nat
  nbrChanged : List Nat
  dueMono : Nat
  loading : Option CkptLoad
  /-- SEQ of the last checkpoint started in any area, and PREV_SEQ of the next one that is not full. -/
  ckptSeq : Word
  deriving DecidableEq, Repr

/-- The contents of an image slot in flash (R385). -/
abbrev ImageBytes := List Byte

/-- Slot states (R387). -/
inductive SlotSt where
  | empty
  | incomplete
  | staged
  | trial
  | confirmed
  | previous
  | rejected
  deriving DecidableEq, Repr

/-- The code of a slot state (R387). -/
def SlotSt.code : SlotSt → Nat
  | .empty => 0
  | .incomplete => 1
  | .staged => 2
  | .trial => 3
  | .confirmed => 4
  | .previous => 5
  | .rejected => 6

/-- Store roles (R393). -/
inductive StoreRole where
  | spare
  | inUse
  | trial
  | previous
  deriving DecidableEq, Repr

/-- The boot record in force (R386). -/
structure BootRec where
  incarnation : BitVec 4
  slotA : SlotSt
  slotB : SlotSt
  store0 : StoreRole
  store1 : StoreRole
  lastFallback : Nat
  seq : Word
  fallbacks : Nat
  deriving DecidableEq, Repr

/-- A settings store (R393): FORMAT and SEQ of its header, its item array, unlisted items at their reset value (R394), and its
journal, oldest first. -/
structure Store where
  format : Nat
  seq : Word
  items : SMap Word
  journal : List (Nat × Word)
  deriving DecidableEq, Repr

/-- The staging lease (R396). -/
structure Lease where
  holder : Nat
  len : Nat
  staged : Nat
  untilMono : Nat
  deriving DecidableEq, Repr

/-- A signer entry of OTP (R389). -/
structure Signer where
  fused : Bool
  hash : BitVec 256
  revoked : Bool
  /-- Its read-back failed. -/
  broken : Bool
  deriving DecidableEq, Repr

/-- Flash and OTP: what every reset keeps (R385, R401). -/
structure Flash where
  boot : BootRec
  /-- The octets of its two copies (R386). -/
  copies : List (List Byte)
  imageA : ImageBytes
  imageB : ImageBytes
  stores : List Store
  identity : Option Identity
  deriving DecidableEq, Repr

/-- The fused contents of OTP and the factory fuses (R1, R52, R139, R142, R333, R359, R389, R390). -/
structure Otp where
  /-- The part is the four-berth HJ2614 (R1). -/
  is2614 : Bool
  oui : BitVec 24
  eui : Eui
  maquette : Byte
  jtagId : BitVec 11
  /-- The 480 octets of the regulatory profile, once fused (R139, R143). -/
  profile : Option (List Byte)
  /-- The profile's fuses did not read back as they were fused (R143). -/
  profileBroken : Bool
  imgKeys : List ImgKey
  repairs : List Repair
  factorySpares : List Nat
  signers : List Signer
  secver : Nat
  deriving DecidableEq, Repr

/-- The own firmware while it runs (R391 to R396). -/
structure FwS where
  mode : Nat
  major : Byte
  minor : Byte
  /-- Slot B runs. -/
  slotB : Bool
  store : Nat
  prevUsed : Bool
  lastSigner : Nat
  secVersion : Nat
  /-- MONO in ns at which the trial window ends (R392). -/
  trialMono : Option Nat
  vouched : Bool
  /-- A fall-back reset follows at this MONO in ns, with its cause (R392). -/
  resetMono : Option (Nat × Nat)
  lease : Option Lease
  journalFull : Bool
  signStaging : List Staged
  imgKeyOk : Bool
  idValid : Bool
  booted : Bool
  /-- What the maquette measured at this boot: the image, the settings store and the profile (R335). -/
  meas : List (BitVec 256)
  /-- The ATTEST_REQs that have arrived, oldest first: function and ring index (R336). -/
  attests : List (Nat × Nat)
  deriving DecidableEq, Repr

/-- BRINGUP_STATUS.PHASE (R405). -/
inductive Phase where
  | fuses
  | fill
  | selftest
  | maquette
  | init
  | service
  | halted
  | recovery
  deriving DecidableEq, Repr

/-- The code of a phase (R405). -/
def Phase.code : Phase → Nat
  | .fuses => 0
  | .fill => 1
  | .selftest => 2
  | .maquette => 3
  | .init => 4
  | .service => 5
  | .halted => 6
  | .recovery => 7

/-- A word of a read port's FIFO, and whether it is the low half of a length slot (R408). -/
structure TapWord where
  value : Word
  first : Bool
  deriving DecidableEq, Repr

/-- A read port (R408, R409): its FIFO, oldest first, the last value returned, and the stalled reads, oldest first: the function and
MONO in ns at which the stall reaches its limit. -/
structure PortTap where
  fifo : List TapWord
  last : Word
  lastFirst : Bool
  stalled : List (Nat × Nat)
  deriving DecidableEq, Repr

/-- A dock or undock waiting for its slot start (R411, R412): berth, whether it docks, and slot starts still to pass. -/
structure DockCmd where
  berth : Nat
  enter : Bool
  starts : Nat
  deriving DecidableEq, Repr

/-- TAP instructions (R417). -/
inductive TapInstr where
  | bypass
  | idcode
  | samplePreload
  | extest
  | extestPulse
  | extestTrain
  | clamp
  | highz
  deriving DecidableEq, Repr

/-- Straps (R429). -/
structure Straps where
  hm : Fin 8
  claim : Fin 8
  boot : Fin 4
  i2c : Fin 4
  deriving DecidableEq, Repr

/-- Start-up, reset and in-service test (R400 to R419). -/
structure StartS where
  phase : Phase
  straps : Straps
  /-- VDDIO_B is in its 3.3 V mode (R439). -/
  bankB33 : Bool
  /-- POR_N is low, or a brown-out lasts, or the TAP holds the device in reset (R400, R403). -/
  held : Bool
  porLow : Bool
  brownOut : Bool
  cause : Nat
  resets : Nat
  functionsReady : Bool
  selftestOk : Bool
  ports : List PortTap
  docked : Option Nat
  dock : Option DockCmd
  dockTesting : Bool
  katUnit : Option Nat
  katNext : Nat
  /-- MONO in ns at which the last engine was taken for its known-answer test (R413). -/
  katMono : Nat
  tap : TapInstr
  /-- The registers whose first written value releases the balls of R424: BERTHn_TX_FEM by berth, BCOM_COEX_CFG by group. -/
  femDriven : List Bool
  coexDriven : List Bool
  deriving DecidableEq, Repr

/-- The MGMT island (R430 to R432): the pointer and the HOT alert's re-arm. -/
structure MgmtS where
  pointer : Byte
  id : Word
  vreq : Word
  state : Word
  temp : Int
  alert : Word
  limit : Word
  hotArmed : Bool
  deriving DecidableEq, Repr

end Sys2Proof.Machine
end

