-- ==== Sys2Proof/Machine/StInput.lean ====
section
/-!
DEFINITION. The operands of the commands that are not plain words: what the outside, or a measurement of the device, brings
with a step. Every type here is data of the command, none is state.
-/

namespace Sys2Proof.Machine

/-- The blocks of BAR0 (R34). -/
inductive Block where
  | ident
  | ring
  | xlate
  | tbl
  | evt
  | bringup
  | berth (n : Fin 6)
  | bcom
  | time
  | mac
  | route
  | svc
  | camp
  | key
  | plinth
  | hold
  | fabric
  | claim
  | fw
  | gevt
  | test
  deriving DecidableEq, Repr

/-- The class of an uncorrectable hold read (R342), coded as in HOLD_LAST_UE_INFO. -/
inductive UeClass where
  | ue
  | addr
  | poison
  deriving DecidableEq, Repr

/-- What reading the hold met (R342): nothing, a corrected bit at a location, or an uncorrectable word. (DESIGN CHOICE, log 53) -/
inductive HoldRead where
  | clean
  | ce (loc : BitVec 26) (bit : Fin 72)
  | bad (cls : UeClass) (loc : BitVec 26)
  deriving DecidableEq, Repr

/-- A structure of the hold read by its own engine (R352). -/
inductive Struct where
  | dir (h : Handle) (word : Nat)
  | bucket (b : Nat)
  | nbr (berth index : Nat)
  | txn (token : Word)
  | reasm (i : Nat)
  | group (g : Nat)
  | camp (id : Nat)
  | cache (i : Nat)
  | mould (slot : Fin 16)
  | other
  deriving DecidableEq, Repr

/-- A host's write to the MSI-X capability (R48, R262): the mask bit of one vector in the table in BAR2, or Enable and Function Mask. -/
inductive MsixWrite where
  | vector (v : Fin 16) (mask : Bool)
  | control (enable mask : Bool)
  deriving DecidableEq, Repr

/-- How a table command comes: through the TBL registers, or as a TABLE_OP descriptor on S2 (R217, R221). -/
inductive Via where
  | regs
  | ring
  deriving DecidableEq, Repr

/-- Work with a deadline or a guard slot (R240, R243, R250, R256). -/
inductive WorkRef where
  | txn (token : Word)
  | dgram (id : Nat)
  | mpl (id : Nat)
  deriving DecidableEq, Repr

/-- The fields of a tide message whose SYNC and CRC are right (R84), as a follower reads them; no name where RSN is invalid (R69). -/
structure TideMsg where
  slots : Bool
  time : Instant
  slotT : Nat
  name : Option SlotName
  slotLen : Nat
  deriving DecidableEq, Repr

/-- Why a demodulator may release from SYNC (R109): symbols without a complete SFD since the last symbol of the preamble pattern, or
symbols for which the pattern lasts. -/
inductive SyncEnd where
  | window (symbols : Nat)
  | preamble (symbols : Nat)
  deriving DecidableEq, Repr

/-- A decoded PHR (R105): whether it decodes at all, its mode-switch bit, FCS type, whitening and PSDU length. -/
structure Phr where
  valid : Bool
  modeSwitch : Bool
  fcs4 : Bool
  whitened : Bool
  len : Nat
  deriving DecidableEq, Repr

/-- What the demodulator measures at the SFD (R109, R112): the in-bin power over the SFD symbols in 0.25 dBm at the ball, the CFO in
its unit, whether the coded SFD matched, the instant as ns after the last tick (R451), the symbols for which the preamble pattern
lasted, and those between it and the SFD. -/
structure SfdMeas where
  rssi : Int
  cfo : Int
  coded : Bool
  ns : Fin 25
  preamble : Nat
  gap : Nat
  deriving DecidableEq, Repr

/-- The content of a frame that ended (R107, R113): what its PSDU spells, and whether the FCS holds. -/
structure RxBody where
  fcsOk : Bool
  frame : Option Frame
  poisoned : Bool
  deriving DecidableEq, Repr

/-- What a CCA brings before a transmission (R144): the mean in-bin power over the interval in 0.25 dBm at the measuring
berth's ball, or no measurement, where the berth that would measure cannot. -/
inductive Cca where
  | level (q : Int)
  | noBerth
  deriving DecidableEq, Repr

/-- What CKPT_LOAD's read of the image's header brings (R380): a header, with what the image holds; a completion error or a timeout; or
poison. -/
inductive CkptRead where
  | ok (image : CkptImage)
  | fault (timeout : Bool)
  | poisoned
  deriving DecidableEq, Repr

/-- What the dry-dock test finds (R412): the failing step where it is the calibration or the retune, the image rejection and the frames
received. -/
structure DockResult where
  failStep : Option (Fin 5)
  imageDb : Byte
  frames : BitVec 16
  deriving DecidableEq, Repr

end Sys2Proof.Machine
end

