-- ==== Sys2Proof/Syntax.lean ====
section
/-!
DEFINITION. The commands of the block: one constructor per row of the operation table, with what the row is given from
outside. The rows are the device's steps: host register accesses with an effect of their own, frames and edges that arrive,
timers, and completions of the device's units.
-/

namespace Sys2Proof

open Sys2Proof.Machine

/-- The commands. -/
inductive Instr where
  /-- LINK_PARITY_FAILURE (R27): A link receiver refuses a token whose parity fails, and the sender replays it from
  its holding latch. -/
  | linkParityFailure (link : Link) (again : Bool)
  /-- PILOT_WATCHDOG (R29): A pilot core fails to return to the scheduler within 10 ms and is fenced. -/
  | pilotWatchdog (core : Fin 4) (back : Nat)
  /-- FABRIC_RATE_WINDOW (R20): At the end of each 1 ms window the replica rings update FABRIC_RATE and LOW_WATER. -/
  | fabricRateWindow (rate : BitVec 16)
  /-- FABRIC_UNFENCE (R31): The harbour master function requests an unfence; the request is refused or the unit's link
  test starts. -/
  | fabricUnfence (fn : Fn) (v : Word)
  /-- FABRIC_UNFENCE_DONE (R31): The unfence test finishes; the unit rejoins service on a pass, FABRIC_STATUS shows
  the outcome, and event 178 is raised. -/
  | fabricUnfenceDone (pass : Bool)
  /-- CLR_LOW_WATER (R32): A write of FABRIC_CTRL.CLR_LOW_WATER resets LOW_WATER to 0xFFFF. -/
  | clrLowWater (fn : Fn) (v : Word)
  /-- QUAY_OVERFLOW (R26): A berth cannot place frame data in its full quay buffer and abandons the frame with ABORT
  reason QUAY_FULL. -/
  | quayOverflow (n : Berth) (entry : Nat)
  /-- REGISTER_WRITE (R37): A host write to a register that has no row of its own is checked at stage 1 and takes
  effect or becomes pending. -/
  | registerWrite (fn : Fn) (off : Nat) (v : Word) (shape : Shape)
  /-- POSTED_WRITE_ACK (R39): The far side of a quay takes a posted value, makes the stage-2 check and acknowledges,
  clearing BUSY. -/
  | postedWriteAck (b : Block)
  /-- CNT_SAT_CLEAR (R42): Writing 1 to a bit of a CNT_SAT register clears the bit and sets the counter to 0. -/
  | cntSatClear (fn : Fn) (off : Nat) (v : Word)
  /-- GEVT_INJECT (R54): The harbour master function raises any event code for test, with INJECTED = 1. -/
  | gevtInject (fn : Fn) (v : Word)
  /-- C3_EVENT_ENTRY_WRITE (R46): A delivered event is written as a C3 return entry, or lost when C3 is full, and its
  MSI-X message follows. -/
  | c3EventEntryWrite (fn : Fn)
  /-- EVT_HOLDOFF_END (R47): A source's holdoff ends, and one entry is written for the occurrences that were merged
  during it. -/
  | evtHoldoffEnd (fn : Fn) (code : Byte)
  /-- SLOT_START (R67): At the tick at which NS reaches S_k, the RSN and epoch advance or take a load, buffered values
  apply and the slot begins. -/
  | slotStart
  /-- SLOT_RUN_START (R66): Setting TIME_CTRL.SLOT_RUN arms the first slot start, or cancels a pending stop. -/
  | slotRunStart
  /-- SLOT_RUN_STOP (R66): Clearing SLOT_RUN cancels an armed start or schedules a stop at the end of the current
  slot. -/
  | slotRunStop
  /-- STOP_INSTANT (R66): At the stop instant buffered TIME values apply, the RSN advances once and SLOTS becomes 0.
  -/
  | stopInstant
  /-- TIME_BUFFER_INTERVAL_END (R66): While SLOTS is 0, the interval of TIME_SLOT_LEN in MONO ends and the pending
  TIME values apply. -/
  | timeBufferIntervalEnd
  /-- VIRTUAL_SLOT_START (R96): While SLOTS is 0, a virtual slot start applies the berths' and the MAC engine's
  buffered values and runs the AGC. -/
  | virtualSlotStart
  /-- DISC_CHANGE (R61): A write of TIME_CTRL.DISC selects the reference mode, and the last rate is held when the mode
  leaves PPS or TIDE. -/
  | discChange (disc : Fin 3)
  /-- TIDE_SRC_SELECT (R83): A write of TIME_CTRL.TIDE_SRC makes the device the tide source, or returns TIDE_TOD to an
  input. -/
  | tideSrcSelect (on : Bool)
  /-- SERVO_CLR (R65): TIME_CTRL.SERVO_CLR sets integ and servo_corr to 0. -/
  | servoClr
  /-- TIME_LOAD (R59): TIME_CTRL.LOAD sets NS to TIME_LOAD at the next tick, or is rejected. -/
  | timeLoad
  /-- TIME_SNAP (R58): TIME_CTRL.SNAP captures NS, FRAC, RSN, epoch, slot time and MONO on one tick. -/
  | timeSnap
  /-- TIME_RSN_READ (R58): A read of TIME_RSN latches the epoch of the same slot for the reading function. -/
  | timeRsnRead (fn : Fn)
  /-- TIME_ADJ (R62): A write of TIME_ADJ adds to TIME_ADJ_REM, which is then removed as a slew. -/
  | timeAdj (v : Word)
  /-- ADJ_DONE (R62): The slew remainder reaches 0, and event 57 is raised. -/
  | adjDone
  /-- TIME_CONV (R71): TIME_CONV_CTRL.GO converts between RSN and ASN and fills the converter outputs. -/
  | timeConv (v : Word)
  /-- PPS_EDGE (R64): An edge on PPS_IN is captured and accepted into the servo, or rejected by the window. -/
  | ppsEdge (rising : Bool) (sub : Fin 25)
  /-- PPS_LOST (R64): No PPS_IN edge arrives for 1.5 s; REF_STATE becomes holdover and the rate is held. -/
  | ppsLost
  /-- TRIG_CONFIG (R81): A trigger configuration is applied by the island, or rejected. -/
  | trigConfig (k : Fin 8) (v : Word)
  /-- TRIG_FIRED (R81): A trigger produces its leading edge on TRIG_k and optionally raises event 62. -/
  | trigFired (k : Fin 8)
  /-- CAPTURE (R82): A selected edge on CAPT_n is timestamped into the capture FIFO. -/
  | capture (c : Fin 4) (rising : Bool) (sub : Fin 25)
  /-- CAPT_LO_READ (R82): A read of TIME_CAPTn_LO latches the oldest capture entry. -/
  | captLoRead (fn : Fn) (c : Fin 4)
  /-- CAPT_HI_READ (R82): A read of TIME_CAPTn_HI returns the rest of the latched entry and removes it from the FIFO.
  -/
  | captHiRead (fn : Fn) (c : Fin 4)
  /-- TIDE_PULSE (R83): A tide source drives its TIDE_PPS_OUT pulse every PERIOD_MS ms. -/
  | tidePulse
  /-- TIDE_PAIR (R85): A follower pairs a TIDE_PPS_IN capture with its message and steps, slews or steers the clock.
  -/
  | tidePair (cap : Instant) (octets : List Byte)
  /-- TIDE_LOST (R85): No valid tide pair arrives for three periods; the follower enters holdover. -/
  | tideLost
  /-- RX_LO_LOCKED (R95): The RX LO locks after a retune or relock, and the demodulators resume searching. -/
  | rxLoLocked (n : Berth)
  /-- RX_LO_UNLOCK (R95): The RX LO loses lock; every demodulator goes OFF and event 8n + 2 is raised. -/
  | rxLoUnlock (n : Berth)
  /-- RX_CLIP (R102): An ADC clip marks the overlapping records CLIP and is counted once per slot. -/
  | rxClip (n : Berth) (peak : Nat)
  /-- RX_CAL (R99): BERTHn_RX_CAL.GO starts a 35 ms full calibration, or is rejected. -/
  | rxCal (n : Berth)
  /-- RX_CAL_DONE (R99): A calibration ends, sets CAL_VALID or CAL_FAIL and raises event 8n + 1. -/
  | rxCalDone (n : Berth) (dcRes imageRej : Nat) (ok : Bool)
  /-- PREAMBLE_DETECTED (R108): A demodulator in SEARCH detects a preamble and enters SYNC with L_p latched. -/
  | preambleDetected (n : Berth) (entry : Nat) (lp floor : Int)
  /-- SFD_MATCHED (R107): A demodulator in SYNC matches the SFD, opens a record and latches SFD_TIME, RSSI, FLOOR and
  CFO. -/
  | sfdMatched (n : Berth) (entry : Nat) (m : SfdMeas)
  /-- SYNC_RELEASE (R109): A demodulator in SYNC releases when its SFD window expires or the preamble persists too
  long. -/
  | syncRelease (n : Berth) (entry : Nat) (why : SyncEnd)
  /-- SUSTAIN_FAIL (R110): In-band energy stays below floor plus 6 dB for 8 symbols, and the demodulator returns to
  SEARCH. -/
  | sustainFail (n : Berth) (entry : Nat)
  /-- PHR_DECODED (R105): The PHR is decoded and the frame proceeds to PAYLOAD or is abandoned as PHR_INVALID. -/
  | phrDecoded (n : Berth) (entry : Nat) (phr : Phr)
  /-- RECAPTURED (R111): The watch correlator captures a stronger frame, and the demodulator abandons its current
  frame. -/
  | recaptured (n : Berth) (entry : Nat) (lp : Int)
  /-- LAST_SYMBOL_RECEIVED (R107): The last symbol is received; an uncoded record closes with its FCS checked, or soft
  decisions go to the decoder pool. -/
  | lastSymbolReceived (n : Berth) (entry : Nat) (body : RxBody)
  /-- DECODER_ENGINE_FREE (R114): A free trellis engine takes the oldest ACK_DUE frame, else the oldest OTHER frame.
  -/
  | decoderEngineFree (eng : Fin 8)
  /-- DECODE_DONE (R113): A trellis engine finishes a frame, removes whitening, checks the FCS and closes the record.
  -/
  | decodeDone (eng : Fin 8) (body : RxBody)
  /-- BLANK_END (R127): At T_end the blank closes, the front-end outputs return to receive and demodulators re-enter
  SEARCH. -/
  | blankEnd (n : Berth)
  /-- TX_SYNTH_LOCKED (R123): The TX synthesiser reaches lock, releasing transmit requests that waited for it. -/
  | txSynthLocked (n : Berth)
  /-- TX_LOCK_LOST (R123): The TX synthesiser loses lock during a frame, which aborts with outcome UNLOCKED. -/
  | txLockLost (n : Berth)
  /-- BAND_REFRESH_TRIGGER (R124): RECAL_S elapses or the berth temperature moves by more than RECAL_DT, and a VCO
  band refresh becomes due. -/
  | bandRefreshTrigger (n : Berth) (temp : Int)
  /-- BAND_REFRESH_DONE (R124): A band refresh finishes, installing the new table or keeping the old one on failure.
  -/
  | bandRefreshDone (n : Berth) (band : Nat) (ok : Bool)
  /-- BAND_REFRESH_OVERDUE (R124): No qualifying slot has occurred within 60 s of the trigger; event 8n + 5 is raised
  with RESULT 2. -/
  | bandRefreshOverdue (n : Berth)
  /-- COEX_REQUEST (R138): COEX_REQ_g and COEX_PRI_g are asserted at T_go − REQ_LEAD_US for a planned transmission. -/
  | coexRequest (n : Berth)
  /-- TX_GO (R126): At T_go the berth checks availability, lock, coupling, duty, LBT and coexistence, and starts the
  frame or gives its outcome. -/
  | txGo (n : Berth) (cca : Cca) (crossed : Nat) (gnt : Bool)
  /-- TX_LAST_SYMBOL (R145): At T_last the PA ramps down and the duty charge is replaced by the actual airtime. -/
  | txLastSymbol (n : Berth)
  /-- TX_UNDERRUN (R131): The modulator needs a byte that has not crossed the quay, ends the symbol and ramps down. -/
  | txUnderrun (n : Berth)
  /-- TX_POISONED (R132): A byte with the poison tag reaches the modulator, and the frame aborts on air with outcome
  POISONED. -/
  | txPoisoned (n : Berth)
  /-- COEX_REVOKED (R138): COEX_GNT_g goes inactive during a frame, which aborts when REVOKE_ABORT is 1. -/
  | coexRevoked (g : Fin 2)
  /-- MASK_TRIP (R135): The spectral-mask monitor trips; the frame aborts and the masked-channel entry is disabled. -/
  | maskTrip (n : Berth)
  /-- DUTY_BUCKET_ADVANCE (R145): MONO crosses a 60 s boundary and the duty window moves to a new bucket. -/
  | dutyBucketAdvance
  /-- DUTY_USED_PRELOAD (R145): A write to BCOM_DUTY_USEDb adds its value to the current bucket. -/
  | dutyUsedPreload (b : Nat) (v : Word)
  /-- TAP_DATA_WRITE (R134): A write to BERTHn_TX_TAP_DATA stores a filter tap and increments TAP_ADDR. -/
  | tapDataWrite (fn : Fn) (n : Berth) (v : Word)
  /-- PROFILE_FUSE (R143): BCOM_PROF_CTRL.FUSE starts fusing the staged regulatory profile, or is rejected. -/
  | profileFuse (fn : Fn) (v : Word)
  /-- PROFILE_FUSE_DONE (R143): Fusing ends with read-back; PROF_FUSED and PROF_VALID are set, or FUSE_FAIL. -/
  | profileFuseDone (ok : Bool)
  /-- PLAN_SLOT (R182): During slot s − 1 the MAC engine plans slot s's transmissions, berth by berth, class by class.
  -/
  | planSlot
  /-- CELL_DATA_WRITE (R153): A write of MAC_CELL_DATA1 stores the cell in staging and increments MAC_CELL_ADDR.INDEX.
  -/
  | cellDataWrite (fn : Fn) (v : Word)
  /-- CELL_DATA_READ (R153): A read of MAC_CELL_DATA1 returns the cell and increments MAC_CELL_ADDR.INDEX. -/
  | cellDataRead (fn : Fn)
  /-- HOP_DATA_ACCESS (R154): A write or read of MAC_HOP_DATA accesses a hopping entry and increments
  MAC_HOP_ADDR.INDEX. -/
  | hopDataAccess (fn : Fn) (w : Option Word)
  /-- CRYPTO_BEGIN_FRAME (R79): The crypto pool begins a frame, fixes its key, writes SFD_TIME and composes any
  block-ack IE. -/
  | cryptoBeginFrame (n : Berth) (m : HoldRead) (what : Struct)
  /-- RECEIVE_RECORD (R160): A closed receive record is processed through filtering, window, security, replay, drift,
  acknowledgement and delivery. -/
  | receiveRecord (m : HoldRead) (what : Struct)
  /-- ACK_WINDOW_END (R164): The Enh-ACK window of a unicast frame closes without a credited acknowledgement, which
  counts as missed. -/
  | ackWindowEnd (id : Nat)
  /-- ARBITER_RELEASE (R192): The home arbiter releases held learn and LQM events after the end of their slot plus 2
  ms and re-homes neighbours. -/
  | arbiterRelease
  /-- NBR_AGED (R191): A neighbour entry not heard for AGE_S seconds of MONO is removed. -/
  | nbrAged (n : Berth) (index : Nat)
  /-- SHORT_EN_SET (R190): SHORT_EN changing from 0 to 1 gives short addresses to every neighbour that has none. -/
  | shortEnSet
  /-- INDEX_REPAIR_DONE (R205): The bucket repair finishes, REPAIR clears and event 102 is raised with AUX 1. -/
  | indexRepairDone
  /-- STRAY_EXPIRED (R207): A stray list entry reaches the end of its lifetime and leaves the list. -/
  | strayExpired (e : Eui)
  /-- DIO_TRICKLE_FIRE (R210): The DIO Trickle timer fires and a DIO is sent on every EB berth. -/
  | dioTrickleFire
  /-- DIS_RECEIVED (R210): A DIS resets the Trickle timer, or is answered by a unicast DIO. -/
  | disReceived
  /-- DAO_RECEIVED (R211): A DAO is checked, its parents resolved and its targets stored, with an optional DAO-ACK. -/
  | daoReceived (read : HoldRead)
  /-- VERSION_INC (R210): ROUTE_CTRL.VERSION_INC advances the DODAG version and resets the Trickle timer. -/
  | versionInc
  /-- DTSN_INC (R210): ROUTE_CTRL.DTSN_INC advances DTSN and resets the Trickle timer. -/
  | dtsnInc
  /-- DAO_LIFE_TICK (R212): At each 60 s of MONO every finite DAO_LIFE is lowered, and routes reaching 0 expire. -/
  | daoLifeTick
  /-- ROUTE_WALK_TEST (R215): ROUTE_WALK_CTRL.GO runs a walk without sending and fills the walk results. -/
  | routeWalkTest (fn : Fn) (v : Word) (read : HoldRead)
  /-- TBL_LOOKUP (R217): A LOOKUP table command returns the handle of KEY_EUI. -/
  | tblLookup (fn : Fn) (via : Via) (m : HoldRead)
  /-- TBL_READ (R217): A READ table command returns an entry image. -/
  | tblRead (fn : Fn) (via : Via) (m : HoldRead)
  /-- TBL_READ_LOCK (R219): A READ_LOCK reads a directory entry and locks it for the caller. -/
  | tblReadLock (fn : Fn) (via : Via) (m : HoldRead)
  /-- TBL_WRITE (R220): A WRITE table command writes the masked words of a directory entry and releases the caller's
  lock. -/
  | tblWrite (fn : Fn) (via : Via) (m : HoldRead)
  /-- TBL_INSERT (R220): An INSERT creates a directory entry at a handle and in the index. -/
  | tblInsert (fn : Fn) (via : Via) (m : HoldRead)
  /-- TBL_DELETE (R217): A DELETE removes a directory or neighbour entry. -/
  | tblDelete (fn : Fn) (via : Via) (m : HoldRead)
  /-- TBL_UNLOCK (R219): An UNLOCK releases the caller's lock on a directory entry. -/
  | tblUnlock (fn : Fn) (via : Via)
  /-- TBL_NEXT (R217): A NEXT returns the lowest valid visible handle above HANDLE. -/
  | tblNext (fn : Fn) (via : Via) (m : HoldRead)
  /-- LOCK_EXPIRED (R219): A table lock reaches LOCK_MS and ends with event 110. -/
  | lockExpired (h : Handle)
  /-- MSG_SEND (R240): A transaction descriptor is checked, routed, built, sealed, fragmented and queued. -/
  | msgSend (fn : Fn) (ring : Fin 2) (m : HoldRead)
  /-- MSG_GROUP (R247): A group command is sent by MPL or as a fan-out of member transactions. -/
  | msgGroup (fn : Fn) (ring : Fin 2) (read : HoldRead)
  /-- DGRAM_SEND (R256): A UDP datagram is routed, compressed, fragmented and sent. -/
  | dgramSend (fn : Fn) (ring : Fin 2) (read : HoldRead)
  /-- RAW_FRAME (R257): A raw PSDU is queued for one slot on one berth as class URGENT. -/
  | rawFrame (fn : Fn) (ring : Fin 2)
  /-- COAP_ACK_TIMEOUT (R240): A CON's ACK timeout expires, and the message is retransmitted or completes with
  TIMEOUT. -/
  | coapAckTimeout (token : Word) (read : HoldRead)
  /-- RESP_WAIT_EXPIRY (R240): No separate response arrives within RESP_WAIT_S, and the transaction completes with
  TIMEOUT. -/
  | respWaitExpiry (token : Word)
  /-- DEADLINE_REACHED (R240): A transaction's DEADLINE slot is reached and it completes with TOO_LATE or TIMEOUT. -/
  | deadlineReached (w : WorkRef)
  /-- TIMED_GUARD (R243): The guard slot ACT_AT − GUARD_SLOTS is reached; no further transmission of the message
  starts. -/
  | timedGuard (w : WorkRef)
  /-- MPL_TRICKLE_FIRE (R250): The MPL Trickle timer fires and a copy of the group message is sent on every berth. -/
  | mplTrickleFire (id : Nat)
  /-- FRAGMENT_RECEIVED (R236): An upward fragment opens or joins a reassembly context, completing the packet when
  whole. -/
  | fragmentReceived
  /-- REASM_TIMEOUT (R236): A reassembly context is freed 60 s after it opened. -/
  | reasmTimeout (place : Nat)
  /-- UPWARD_COAP (R254): An upward CoAP message is unsealed, checked for duplicates and replay, and matched or
  delivered. -/
  | upwardCoap (read : HoldRead)
  /-- UP_NOT_ACKED (R255): An upward CON finds no place within WAIT_MS and is dropped unacknowledged. -/
  | upNotAcked
  /-- UPWARD_DATAGRAM (R256): Upward UDP or ICMPv6 is delivered, answered as an Echo, or passed to RPL. -/
  | upwardDatagram (read : HoldRead)
  /-- RING_NUDGE (R267): A write of RING_NUDGE requests a doorbell block read within 2 µs. -/
  | ringNudge (fn : Fn)
  /-- DOORBELL_POLL (R267): Every RING_POLL.US µs the device requests a doorbell block read. -/
  | doorbellPoll (fn : Fn)
  /-- DOORBELL_COPY (R267): A doorbell read completes and the device acts on every changed index. -/
  | doorbellCopy (fn : Fn)
  /-- NOP (R270): A NOP on S0–S2 completes with OK, acting as a barrier when ORDERED. -/
  | nop (fn : Fn) (ring : Fin 3)
  /-- RX_BUFFER_POST (R270): A NOP on S3 posts a receive buffer. -/
  | rxBufferPost (fn : Fn)
  /-- RECEIVE_DELIVERY (R287): An upward item is written into the oldest posted S3 buffer and announced by a C1 entry.
  -/
  | receiveDelivery (fn : Fn)
  /-- RETURN_ENTRY_WRITE (R272): A return entry is written to its ring, or held, followed by a status block write. -/
  | returnEntryWrite (fn : Fn)
  /-- RING_MOD_TIMER (R276): TIME_US elapses since the oldest unsignalled entry and the ring's message is sent. -/
  | ringModTimer (fn : Fn) (ring : Fin 8)
  /-- SLING_DONE (R277): A stevedore finishes a sling, advances OFFSET and continues, is pre-empted or frees. -/
  | slingDone (stev : Fin 8) (octets : List Byte) (poisoned : Bool)
  /-- TRANSLATION_FAULT (R280): A translation without permission parks the job and sends a Page Request, or raises the
  fault. -/
  | translationFault (stev : Fin 8)
  /-- PAGE_RESPONSE (R280): A Page Request Group Response arrives and the job resumes or its fault is raised. -/
  | pageResponse (fn : Fn) (place : Fin 16) (success : Bool)
  /-- PRI_TIMEOUT (R280): No page response arrives within PRI_TIMEOUT_MS and the fault is raised to the host. -/
  | priTimeout (fn : Fn) (place : Fin 16)
  /-- DMA_FAULT (R282): A read completion with UR, CA or a timeout parks the job in a fault record. -/
  | dmaFault (stev : Fin 8) (timeout : Bool)
  /-- XLATE_FAULT_RETRY (R284): ACTION RETRY restarts the parked job from OFFSET with a fresh translation. -/
  | xlateFaultRetry (fn : Fn) (place : Fin 16)
  /-- XLATE_FAULT_ABORT (R284): ACTION ABORT completes the parked job's descriptor per its site. -/
  | xlateFaultAbort (fn : Fn) (place : Fin 16)
  /-- XLATE_INV (R281): XLATE_INV.GO invalidates every cache entry of the function. -/
  | xlateInv (fn : Fn)
  /-- ATS_INVALIDATE (R281): An ATS Invalidate Request is answered after affected slings are issued. -/
  | atsInvalidate (fn : Fn) (page count : Nat)
  /-- RING_FLUSH (R289): RING_Sx_CTRL.FLUSH completes the ring's outstanding descriptors or posts with FLUSHED or
  ABORTED. -/
  | ringFlush (fn : Fn) (ring : Fin 4)
  /-- FLUSH_TIMEOUT (R289): A flush unfinished after 1 ms forces the remaining jobs to ABORTED. -/
  | flushTimeout (fn : Fn) (ring : Fin 4)
  /-- RING_DROP (R289): RING_Sx_CTRL.DROP aborts the ring's oldest descriptor in a DMA phase. -/
  | ringDrop (fn : Fn) (ring : Fin 4)
  /-- RING_QUIESCED (R290): A ring with EN 0 finishes its work and its pending BASE, SIZE and block addresses apply.
  -/
  | ringQuiesced (fn : Fn) (ring : Fin 8)
  /-- RING_ENABLE (R291): A ring is enabled; held entries are written first and pending messages sent. -/
  | ringEnable (fn : Fn) (ring : Fin 8)
  /-- RING_DISABLE (R288): Clearing EN stops the ring, discarding held entries of a ring with a SITE 5 fault. -/
  | ringDisable (fn : Fn) (ring : Fin 8)
  /-- RING_GRANT_WRITE (R263): The harbour master function gives or withdraws a function's grants. -/
  | ringGrantWrite (fn : Fn) (target : Fn) (v : Word)
  /-- LIVENESS_EXPIRY (R291): A function shows no activity in LIVE_MS and is quiesced. -/
  | livenessExpiry (fn : Fn)
  /-- PORT_LINK_DOWN (R292): A port's link goes down and its functions are quiesced. -/
  | portLinkDown (p : Fin 2)
  /-- PORT_LINK_UP (R292): A port's link returns and its abandoned jobs can restart. -/
  | portLinkUp (p : Fin 2)
  /-- BUS_MASTER_DISABLE (R262): Clearing Bus Master Enable parks the function's jobs at their next sling boundary. -/
  | busMasterDisable (fn : Fn)
  /-- FLR (R293): A Function Level Reset returns one function's views to reset and discards its work. -/
  | flr (fn : Fn)
  /-- CAMPAIGN_START (R299): A campaign is started or resumed, its targets formed and its first record confirmed. -/
  | campaignStart (fn : Fn)
  /-- CAMPAIGN_REPORT (R313): CAMPAIGN_CTRL REPORT writes the campaign report. -/
  | campaignReport (fn : Fn)
  /-- CAMPAIGN_PAUSE (R313): CAMPAIGN_CTRL PAUSE stops visits and withdraws queued frames. -/
  | campaignPause (fn : Fn)
  /-- CAMPAIGN_CONTINUE (R313): CAMPAIGN_CTRL CONTINUE ends a pause. -/
  | campaignContinue (fn : Fn)
  /-- CAMPAIGN_ABORT (R313): CAMPAIGN_CTRL ABORT ends the campaign with reason ABORTED. -/
  | campaignAbort (fn : Fn)
  /-- CAMPAIGN_ADD_NODE (R313): CAMPAIGN_CTRL ADD_NODE makes a node a target. -/
  | campaignAddNode (fn : Fn)
  /-- CAMPAIGN_REMOVE_NODE (R313): CAMPAIGN_CTRL REMOVE_NODE sets the node's CAMP_STATE to REMOVED. -/
  | campaignRemoveNode (fn : Fn)
  /-- CAMPAIGN_CHECKPOINT (R313): CAMPAIGN_CTRL CHECKPOINT builds a campaign record now. -/
  | campaignCheckpoint (fn : Fn)
  /-- CAMPAIGN_VISIT (R305): The engine gives a visit to a campaign block and offers frames of consecutive ESIs. -/
  | campaignVisit
  /-- BLOCK_PREPARED (R302): The encoder finishes preparing a block's intermediate symbols. -/
  | blockPrepared (camp sbn : Nat)
  /-- CAMPAIGN_BUDGET_WINDOW (R305): A campaign's 60 s budget window ends and its BUDGET is renewed. -/
  | campaignBudgetWindow (camp : Nat)
  /-- CAMPAIGN_START_AT (R298): A campaign's START_AT slot is reached and it may send. -/
  | campaignStartAt (camp : Nat)
  /-- CAMPAIGN_CKPT_TIMER (R310): CKPT_S seconds after the last confirmed record a new record is built. -/
  | campaignCkptTimer (camp : Nat)
  /-- CAMPAIGN_RECORD_CONFIRMED (R310): A campaign record's write and read-back complete and its limits bind. -/
  | campaignRecordConfirmed (camp : Nat)
  /-- CAMPAIGN_DEADLINE (R308): END_BY is reached and the campaign ends with reason DEADLINE. -/
  | campaignDeadline (camp : Nat)
  /-- MOULD_LOAD (R320): LOAD makes the staged key the current key of a mould slot. -/
  | mouldLoad (fn : Fn) (v : Word)
  /-- MOULD_INVALIDATE (R320): INVALIDATE makes the current key prior and the slot RETIRED. -/
  | mouldInvalidate (fn : Fn) (v : Word)
  /-- MOULD_ERASE (R320): ERASE zeroes current and prior keys at once. -/
  | mouldErase (fn : Fn) (v : Word)
  /-- MOULD_END_GRACE (R320): END_GRACE zeroes the prior key at once. -/
  | mouldEndGrace (fn : Fn) (v : Word)
  /-- GRACE_ENDED (R324): A prior key's grace expires and it and its casts are zeroed. -/
  | graceEnded (slot : Fin 16)
  /-- GEN_GRACE_ENDED (R324): A pinned old-generation cast's grace expires and it is discarded. -/
  | genGraceEnded (e : Eui)
  /-- KEY_NODE_GEN (R324): KEY_NODE_GEN advances a node's CAST_GEN and sets SEAL_TX_SEQ to 0. -/
  | keyNodeGen (fn : Fn) (v : Word)
  /-- ENTROPY_FAIL (R328): An entropy health test fails and the source restarts. -/
  | entropyFail
  /-- ENTROPY_RECOVERED (R328): The restarted entropy source passes its tests and ENTROPY_FAIL clears. -/
  | entropyRecovered
  /-- DRBG_RESEED (R328): A scheduled reseed falls due; the DRBG reseeds or blocks. -/
  | drbgReseed
  /-- TAMPER_TRIP (R330): A tamper source shows its condition for FILTER samples and trips per its ACTION. -/
  | tamperTrip (src : Fin 4) (samples : Nat)
  /-- HOST_SCUTTLE (R331): The harbour master function writes PLINTH_SCUTTLE with the confirm code and starts a
  scuttle. -/
  | hostScuttle (fn : Fn) (v : Word)
  /-- SCUTTLE_RESET (R331): 10 ms after a scuttle decision the device performs a reset that re-runs start-up. -/
  | scuttleReset
  /-- TAMPER_LOCK (R330): Writing PLINTH_TAMPER_CFG.LOCK makes the tamper configuration read-only. -/
  | tamperLock (fn : Fn) (v : Word)
  /-- VBAT_APPLIED (R332): The plinth powers up, starting PLINTH_SECONDS and recording the cause without a valid root.
  -/
  | vbatApplied
  /-- GENERATE (R333): GENERATE draws a new root and generates the identity key pair. -/
  | generate (fn : Fn)
  /-- FUSE_IMGKEY (R333): FUSE_IMGKEY wraps and fuses the staged fleet image key. -/
  | fuseImgkey (fn : Fn)
  /-- PROVISIONED (R333): A provisioning operation ends, PROV_STATUS shows its result and event 156 is raised. -/
  | provisioned (ok : Bool)
  /-- ATTEST_REQ (R336): An attestation statement is built, signed when possible and written to the host. -/
  | attestReq (fn : Fn)
  /-- PILOT_BUS_FAULT (R349): A pilot core meets an uncorrectable fetch or load, stops and enters self-diagnosis. -/
  | pilotBusFault (core : Fin 4) (fetch : Bool) (cls : UeClass) (loc : BitVec 26)
  /-- QUEUE_RESET (R355): A queue pointer mismatch resets the queue with its row's effect. -/
  | queueReset (q : Nat)
  /-- HOLD_QCMD_FLUSH (R357): HOLD_QCMD FLUSH discards a queue's complete items at the next item boundary. -/
  | holdQcmdFlush (fn : Fn) (v : Word)
  /-- HOLD_QCMD_DROP_ITEM (R357): HOLD_QCMD DROP_ITEM makes the consumer discard the rest of its item. -/
  | holdQcmdDropItem (fn : Fn) (v : Word)
  /-- HOLD_QCMD_RESET (R355): HOLD_QCMD RESET resets a queue as on a pointer mismatch. -/
  | holdQcmdReset (fn : Fn) (v : Word)
  /-- QUEUE_FLUSH_FORCED (R357): A producer's item unfinished after WAIT_US is forced to ABORT. -/
  | queueFlushForced
  /-- HOLD_LOG_CLEAR (R345): HOLD_LOG_SEL.CLEAR clears every CE log entry and LOG_FULL. -/
  | holdLogClear (fn : Fn) (v : Word)
  /-- FIELD_REPAIR (R360): HOLD_REPAIR_CTRL.GO fuses a field spare-row entry, or is refused. -/
  | fieldRepair (fn : Fn) (v : Word)
  /-- FIELD_REPAIR_DONE (R360): The field repair fuse and read-back finish with their result. -/
  | fieldRepairDone (ok : Bool)
  /-- BOLLARD_BUS_CHANGE (R364): The settled bollard bus value changes and the unit re-evaluates its claim. -/
  | bollardBusChange (others : BitVec 4)
  /-- QUIET_REACHED (R367): BOLLARD_3 stays released for QUIET_MS and QUIET becomes 1. -/
  | quietReached
  /-- CLAIM_RISE (R368): A standby unit whose conditions all hold rises to its active claim. -/
  | claimRise
  /-- RELEASE_PROBE (R366): A rising or active unit releases the lines for 1 µs and checks for an equal claim. -/
  | releaseProbe (others : BitVec 4)
  /-- TAKEOVER_DONE (R369): The adjustments complete, the gate opens and the unit becomes ACTIVE. -/
  | takeoverDone
  /-- YIELD (R371): CLAIM_CTRL.YIELD drops an active unit to standby. -/
  | claimYield
  /-- CLAIM_DIAG (R376): CLAIM_CTRL.DIAG enters self-diagnosis with cause 5. -/
  | claimDiag
  /-- SELF_DIAG_DONE (R376): The maquette's diagnosis tests finish and record pass or fail. -/
  | selfDiagDone (pass : Bool)
  /-- FAILOVER_SEEN (R377): FAILOVER_N falls, driven by another unit, and event 197 is raised. -/
  | failoverSeen
  /-- CKPT_FULL (R379): CLAIM_CTRL.CKPT_FULL makes the next checkpoint full. -/
  | ckptFull
  /-- CKPT_AREA (R378): CKPT_AREA names the area for the active unit's checkpoints. -/
  | ckptArea (fn : Fn)
  /-- CHECKPOINT_DUE (R379): The checkpoint interval expires and a checkpoint write starts. -/
  | checkpointDue
  /-- CKPT_WRITTEN (R379): A checkpoint's header read-back completes, confirming it with an INTERIM entry. -/
  | ckptWritten
  /-- CKPT_LOAD (R380): CKPT_LOAD checks an area image and starts loading it. -/
  | ckptLoad (fn : Fn) (r : CkptRead)
  /-- CKPT_LOADED (R380): A checkpoint load finishes, rebuilds the index and sets CKPT_LOADED. -/
  | ckptLoaded
  /-- FW_STAGE_OPEN (R397): FW_STAGE_OPEN grants the staging lease and erases the target slot. -/
  | fwStageOpen (fn : Fn) (ok : Bool)
  /-- FW_STAGE_CHUNK (R397): FW_STAGE_CHUNK programs or compares a chunk of the image. -/
  | fwStageChunk (fn : Fn) (ok : Bool)
  /-- FW_STAGE_CLOSE_COMMIT (R397): CLOSE commit writes the target slot STAGED and ends the lease. -/
  | fwStageCloseCommit (fn : Fn)
  /-- FW_STAGE_CLOSE_ABANDON (R397): CLOSE abandon ends the lease and leaves the slot INCOMPLETE. -/
  | fwStageCloseAbandon (fn : Fn)
  /-- FW_LEASE_EXPIRY (R396): The staging lease expires 120 s after the holder's last staging descriptor. -/
  | fwLeaseExpiry
  /-- FW_BREAK (R396): FW_CTRL.BREAK ends the staging lease. -/
  | fwBreak (fn : Fn)
  /-- FW_VOUCH (R392): FW_CTRL.VOUCH vouches for the trial image. -/
  | fwVouch (fn : Fn)
  /-- FW_REJECT (R392): FW_CTRL.REJECT writes the trial slot REJECTED and starts a fall-back reset. -/
  | fwReject (fn : Fn)
  /-- TRIAL_CONFIRM_CHECK (R392): Once per second Epteuno confirms the trial image when its conditions hold. -/
  | trialConfirmCheck
  /-- TRIAL_WINDOW_EXPIRY (R392): The trial window ends unconfirmed and event 213 is raised. -/
  | trialWindowExpiry
  /-- TRIAL_RESET (R392): 10 ms after event 213 the device performs a fall-back reset. -/
  | trialReset
  /-- FW_SIGNER_FUSE (R389): FW_SIGNER_CTRL FUSE fuses a signer hash entry. -/
  | fwSignerFuse (fn : Fn) (v : Word) (ok : Bool)
  /-- FW_SIGNER_REVOKE (R389): FW_SIGNER_CTRL REVOKE permanently revokes a signer entry. -/
  | fwSignerRevoke (fn : Fn) (v : Word)
  /-- FW_SET_WRITE (R394): A write of FW_SET_VAL programs a journal record for the next boot. -/
  | fwSetWrite (fn : Fn) (v : Word)
  /-- FALLBACK_CLEAR (R398): Writing FW_CNT_SAT bit 2 sets FALLBACKS to 0 by a boot record write. -/
  | fallbackClear (fn : Fn)
  /-- POWER_ON_RESET (R400): POR_N rises and start-up runs from phase FUSES. -/
  | powerOnReset (straps : Straps) (b33 : Bool)
  /-- BROWN_OUT (R403): A brown-out acts as POR_N low. -/
  | brownOut
  /-- TEST_RESET (R419): TEST_RESET with the confirm code starts a device reset. -/
  | testReset (fn : Fn) (v : Word)
  /-- PORT_RESET_ASSERT (R402): PCIE_p_PERST_N falls; the port's link is down and its functions quiesced. -/
  | portResetAssert (p : Fin 2)
  /-- PORT_RESET_RELEASE (R402): PCIE_p_PERST_N rises; the port's functions are reset as by FLR. -/
  | portResetRelease (p : Fin 2)
  /-- TAP_RESET (R400): TRST_N low or Test-Logic-Reset resets the JTAG logic. -/
  | tapReset
  /-- TAP_INSTRUCTION (R417): A TAP instruction is selected; EXTEST-class instructions hold a device reset. -/
  | tapInstruction (instr : TapInstr)
  /-- FILL_DONE (R346): The hold and pilot memories are filled with zero. -/
  | fillDone
  /-- SELFTEST_DONE (R347): The checker self-test ends, releasing the pilot cores or halting. -/
  | selftestDone (banks : BitVec 16) (pilots : BitVec 4)
  /-- FW_BOOTED (R391): The maquette chooses, verifies and starts an image or itself. -/
  | fwBooted
  /-- SERVICE_READY (R405): Berth calibration ends and phase SERVICE or RECOVERY is reached. -/
  | serviceReady
  /-- DOCK_ENTER (R411): TEST_DOCK ENTER schedules a berth for dry dock, or is rejected. -/
  | dockEnter (fn : Fn) (v : Word)
  /-- DOCK_LEAVE (R412): TEST_DOCK LEAVE schedules the berth's return. -/
  | dockLeave (fn : Fn) (v : Word)
  /-- DOCK_TEST_DONE (R412): The dry-dock loopback test ends with its result. -/
  | dockTestDone (r : DockResult)
  /-- KAT_ROTATION (R413): Every PERIOD_S the next engine is taken for its known-answer test. -/
  | katRotation
  /-- KAT_DONE (R414): A known-answer test ends; the engine rejoins or is fenced. -/
  | katDone (pass : Bool)
  /-- TEST_FENCE (R415): TEST_FENCE fences a unit for by-pass. -/
  | testFence (fn : Fn) (v : Word)
  /-- BRINGUP_PORT_READ (R409): A read of BRINGUP_PORTp_DATA returns and removes the oldest word, or stalls or
  underruns. -/
  | bringupPortRead (fn : Fn) (p : Fin 4)
  /-- BRINGUP_STALL_EXPIRY (R409): A stalled read reaches STALL_LIMIT and completes with UNDERRUN. -/
  | bringupStallExpiry (p : Fin 4)
  /-- I2C_WRITE (R430): An I²C write transaction sets the pointer and writes registers. -/
  | i2cWrite (pointer : Byte) (octets : List Byte)
  /-- I2C_READ (R430): An I²C read transaction returns registers at the pointer. -/
  | i2cRead (pointer : Byte) (count : Nat)
  /-- MGMT_REFRESH (R430): Each millisecond the MGMT island copies state and raises alerts such as HOT. -/
  | mgmtRefresh (temp : Int)
  /-- READ_BUS_ERROR (R41): A register read that is a bus error completes with Completer Abort, logs AER and sets the
  cause and offset in IDENT_BUS_ERR. -/
  | readBusError (fn : Fn) (off : Nat) (shape : Shape) (m : HoldRead)
  /-- MSIX_VECTOR_UNMASK (R48): A host write to BAR2 unmasks an MSI-X vector whose pending bit is set, and the pending
  message is sent. -/
  | msixVectorUnmask (fn : Fn) (w : MsixWrite)
  /-- BUS_MASTER_ENABLE (R262): Setting Bus Master Enable again lets the function's parked jobs resume DMA. -/
  | busMasterEnable (fn : Fn) (ats pri payload256 : Bool)
  /-- TRIG_PULSE_END (R81): WIDTH ns after a leading edge the trigger pulse ends, TRIG_k returns inactive and any
  capture window it opened closes. -/
  | trigPulseEnd (k : Fin 8)
  /-- VBAT_LOSS (R332): VBAT is removed and the plinth loses the root, tamper configuration and seconds count. -/
  | vbatLoss
  /-- POR_N_ASSERT (R403): POR_N goes low and every output takes its in-reset state within 1 µs. -/
  | porNAssert
  /-- BROWN_OUT_END (R403): A brown-out ends and the device starts as after POR_N, recording the brown-out cause. -/
  | brownOutEnd (straps : Straps) (b33 : Bool)
  /-- FUNCTIONS_READY (R406): Within 90 ms of the reset the host functions become ready and configuration requests
  stop receiving Request Retry Status. -/
  | functionsReady
  /-- KAT_PASS_OVER (R413): An engine taken for its known-answer test that has not become idle within 100 ms is passed
  over for this round. -/
  | katPassOver
  deriving DecidableEq, Repr

end Sys2Proof
end

