-- ==== Sys2Proof/Decode.lean ====
section
/-!
DEFINITION. The command that a word of the operation table spells: none of its rows gives bits, so no word spells one.
-/

namespace Sys2Proof

/-- The command that the `nbits` bits of `w` spell by the operation table: its rows give no bits (fields: none).
(DESIGN CHOICE, log 1) -/
def decodeTableWord (_nbits _w : Nat) : Option Instr := none

end Sys2Proof
end

