-- ==== Sys2Proof/Machine/Bits.lean ====
section
/-!
DEFINITION. The bit-field, sign-extension and byte-order helpers of the model (R4), and the field descriptors by which
registers are read and written.
-/

namespace Sys2Proof.Machine

/-- Bits [hi:lo] of a word, as a number (R4). -/
def bitsOf (hi lo : Nat) (w : Word) : Nat := (w.toNat >>> lo) % 2 ^ (hi + 1 - lo)

/-- The mask with ones in bits [hi:lo]. -/
def maskOf (hi lo : Nat) : Nat := (2 ^ (hi + 1 - lo) - 1) <<< lo

/-- `w` with bits [hi:lo] replaced by the low bits of `v` (R4). -/
def putBits (hi lo : Nat) (w : Word) (v : Nat) : Word :=
  let m := BitVec.ofNat 32 (maskOf hi lo)
  (w &&& ~~~m) ||| ((BitVec.ofNat 32 (v <<< lo)) &&& m)

/-- One bit of a word. -/
def bitAt (i : Nat) (w : Word) : Bool := w.getLsbD i

/-- `w` with bit `i` set to `b`. -/
def setBitAt (i : Nat) (w : Word) (b : Bool) : Word :=
  if b then w ||| BitVec.ofNat 32 (1 <<< i) else w &&& ~~~(BitVec.ofNat 32 (1 <<< i))

/-- The signed reading of the low `n` bits of `v` in two's complement. -/
def signedOf (n : Nat) (v : Nat) : Int :=
  let u := v % 2 ^ n
  if u < 2 ^ (n - 1) then (u : Int) else (u : Int) - (2 ^ n : Int)

/-- The low `n` bits of the two's complement of `i`. -/
def unsignedOf (n : Nat) (i : Int) : Nat := (i % (2 ^ n : Int)).toNat

/-- `i` clamped to lie between `lo` and `hi`. -/
def clampInt (lo hi i : Int) : Int := if i < lo then lo else if hi < i then hi else i

/-- A named field of a register: the register's offset and the field's bits [hi:lo] (R8, R4). -/
structure Fld where
  off : Nat
  lo : Nat
  hi : Nat
  deriving DecidableEq, Repr

/-- A statistics counter: its offset, the offset of its block's CNT_SAT register and its bit there (R42). -/
structure Cnt where
  off : Nat
  sat : Nat
  bit : Nat
  deriving DecidableEq, Repr

/-- The octets of `v`, least significant first, `n` of them (R4). -/
def leBytes : Nat → Nat → List Byte
  | 0, _ => []
  | n + 1, v => BitVec.ofNat 8 (v % 256) :: leBytes n (v / 256)

/-- The octets of `v`, most significant first, `n` of them. -/
def beBytes (n v : Nat) : List Byte := (leBytes n v).reverse

/-- The number that octets spell, least significant first (R4). -/
def ofLeBytes : List Byte → Nat
  | [] => 0
  | b :: bs => b.toNat + 256 * ofLeBytes bs

/-- The 32-bit word of the four octets at index `4 * i`, first octet most significant. -/
def beWordAt (bs : List Byte) (i : Nat) : Word :=
  BitVec.ofNat 32 (ofLeBytes ((bs.drop (4 * i)).take 4).reverse)

/-- One bit of the CRC-32 of R139. -/
def crcStep (c : BitVec 32) : BitVec 32 := if c.getLsbD 0 then (c >>> 1) ^^^ 0xEDB88320 else c >>> 1

/-- CRC-32 of R139: polynomial 0x04C11DB7 reflected, initial value and final XOR 0xFFFF_FFFF. -/
def crc32 (bs : List Byte) : BitVec 32 :=
  ~~~(bs.foldl (fun c b => (List.range 8).foldl (fun x _ => crcStep x) (c ^^^ b.zeroExtend 32)) 0xFFFFFFFF)

end Sys2Proof.Machine
end

