-- ==== Sys2Proof/Machine/RegMap.lean ====
section
/-!
DEFINITION. The register map of BAR0 (R34, R37): the offset of every register, the bits of every field and every
statistics counter, from the register tables of the spec's chapters, and for every register its access kind, the masks
of its writable, write-1-to-clear and write-only bits, its reset value and the stage-1 ranges of its fields (R460).
Offsets of the BERTHn blocks are relative to 0x4000 + n * 0x400. An array of registers is listed once, with its stride.
-/

namespace Sys2Proof.Machine

/-- R32. -/ def Reg.FABRIC_STATUS : Nat := 0x7C00
/-- R32. -/ def Reg.FABRIC_FENCED : Nat := 0x7C04
/-- R32. -/ def Reg.FABRIC_LINK_FAULT : Nat := 0x7C08
/-- R32. -/ def Reg.FABRIC_CORE_FAULT : Nat := 0x7C0C
/-- R32. -/ def Reg.FABRIC_UNFENCE : Nat := 0x7C10
/-- R32. -/ def Reg.FABRIC_RATE : Nat := 0x7C14
/-- R32. -/ def Reg.FABRIC_RATE_WARN : Nat := 0x7C18
/-- R32. -/ def Reg.FABRIC_VREQ : Nat := 0x7C1C
/-- R32. -/ def Reg.FABRIC_VPOLICY : Nat := 0x7C20
/-- R32. -/ def Reg.FABRIC_REPLAY_CNT : Nat := 0x7C24
/-- R32. -/ def Reg.FABRIC_QUAY_DROP_CNT : Nat := 0x7C28
/-- R32. -/ def Reg.FABRIC_QUAY_LATE_CNT : Nat := 0x7C2C
/-- R32. -/ def Reg.FABRIC_TIMER_LATE_CNT : Nat := 0x7C30
/-- R32. -/ def Reg.FABRIC_PILOT_STATE : Nat := 0x7C34
/-- R32. -/ def Reg.FABRIC_CNT_SAT : Nat := 0x7C38
/-- R32. -/ def Reg.FABRIC_CTRL : Nat := 0x7C3C
/-- R52. -/ def Reg.IDENT_DEVICE : Nat := 0x0
/-- R52. -/ def Reg.IDENT_BERTHS : Nat := 0x4
/-- R52. -/ def Reg.IDENT_FUNC : Nat := 0x8
/-- R52. -/ def Reg.IDENT_GRANTED : Nat := 0xC
/-- R52. -/ def Reg.IDENT_OUI : Nat := 0x10
/-- R52. -/ def Reg.IDENT_EUI_LO : Nat := 0x14
/-- R52. -/ def Reg.IDENT_EUI_HI : Nat := 0x18
/-- R52. -/ def Reg.IDENT_FW : Nat := 0x1C
/-- R52. -/ def Reg.IDENT_BUS_ERR : Nat := 0x20
/-- R52. -/ def Reg.IDENT_INCARNATION : Nat := 0x24
/-- R53. -/ def Reg.EVT_CTRL : Nat := 0x1800
/-- R53. -/ def Reg.EVT_STATUS : Nat := 0x1804
/-- R53. -/ def Reg.EVT_LOST_CNT : Nat := 0x1808
/-- R53. -/ def Reg.EVT_CNT_SAT : Nat := 0x180C
/-- R53. -/ def Reg.EVT_PEND : Nat := 0x1820
/-- R53. -/ def Reg.EVT_ENABLE : Nat := 0x1840
/-- R53. -/ def Reg.EVT_VEC : Nat := 0x1880
/-- R54. -/ def Reg.GEVT_RAW : Nat := 0x8800
/-- R54. -/ def Reg.GEVT_INJECT : Nat := 0x8820
/-- R54. -/ def Reg.GEVT_ROUTE : Nat := 0x8900
/-- R87. -/ def Reg.TIME_STATUS : Nat := 0x6000
/-- R87. -/ def Reg.TIME_CTRL : Nat := 0x6004
/-- R87. -/ def Reg.TIME_INC : Nat := 0x6008
/-- R87. -/ def Reg.TIME_INC_EFF : Nat := 0x600C
/-- R87. -/ def Reg.TIME_ADJ : Nat := 0x6010
/-- R87. -/ def Reg.TIME_ADJ_REM : Nat := 0x6014
/-- R87. -/ def Reg.TIME_SLEW : Nat := 0x6018
/-- R87. -/ def Reg.TIME_SLOT_LEN : Nat := 0x601C
/-- R87. -/ def Reg.TIME_START_LO : Nat := 0x6020
/-- R87. -/ def Reg.TIME_START_HI : Nat := 0x6024
/-- R87. -/ def Reg.TIME_RSN_LOAD : Nat := 0x6028
/-- R87. -/ def Reg.TIME_EPOCH_LOAD : Nat := 0x602C
/-- R87. -/ def Reg.TIME_LOAD_LO : Nat := 0x6030
/-- R87. -/ def Reg.TIME_LOAD_HI : Nat := 0x6034
/-- R87. -/ def Reg.TIME_RSN : Nat := 0x6038
/-- R87. -/ def Reg.TIME_EPOCH : Nat := 0x603C
/-- R87. -/ def Reg.TIME_SNAP_NS_LO : Nat := 0x6040
/-- R87. -/ def Reg.TIME_SNAP_NS_HI : Nat := 0x6044
/-- R87. -/ def Reg.TIME_SNAP_FRAC : Nat := 0x6048
/-- R87. -/ def Reg.TIME_SNAP_RSN : Nat := 0x604C
/-- R87. -/ def Reg.TIME_SNAP_EPOCH : Nat := 0x6050
/-- R87. -/ def Reg.TIME_SNAP_SLOT_T : Nat := 0x6054
/-- R87. -/ def Reg.TIME_SNAP_MONO_LO : Nat := 0x6058
/-- R87. -/ def Reg.TIME_SNAP_MONO_HI : Nat := 0x605C
/-- R87. -/ def Reg.TIME_CONV_CTRL : Nat := 0x6060
/-- R87. -/ def Reg.TIME_CONV_IN_LO : Nat := 0x6064
/-- R87. -/ def Reg.TIME_CONV_IN_HI : Nat := 0x6068
/-- R87. -/ def Reg.TIME_CONV_OUT_RSN : Nat := 0x606C
/-- R87. -/ def Reg.TIME_CONV_OUT_EPOCH : Nat := 0x6070
/-- R87. -/ def Reg.TIME_CONV_OUT_X : Nat := 0x6074
/-- R87. -/ def Reg.TIME_CONV_OUT_ASN_LO : Nat := 0x6078
/-- R87. -/ def Reg.TIME_CONV_OUT_ASN_HI : Nat := 0x607C
/-- R87. -/ def Reg.TIME_PPS_CFG : Nat := 0x6080
/-- R87. -/ def Reg.TIME_PPS_LAST_LO : Nat := 0x6084
/-- R87. -/ def Reg.TIME_PPS_LAST_HI : Nat := 0x6088
/-- R87. -/ def Reg.TIME_REF_ERR : Nat := 0x608C
/-- R87. -/ def Reg.TIME_SERVO : Nat := 0x6090
/-- R87. -/ def Reg.TIME_TIDE_CFG : Nat := 0x60A0
/-- R87. -/ def Reg.TIME_CAPT_CFG : Nat := 0x60C0
/-- R87. -/ def Reg.TIME_CAPT_LO : Nat := 0x60C4
/-- R87. -/ def Reg.TIME_CAPT_HI : Nat := 0x60C8
/-- R87. -/ def Reg.TIME_TRIG_CFG : Nat := 0x6100
/-- R87. -/ def Reg.TIME_TRIG_AT_LO : Nat := 0x6104
/-- R87. -/ def Reg.TIME_TRIG_AT_HI : Nat := 0x6108
/-- R87. -/ def Reg.TIME_TRIG_PERIOD : Nat := 0x610C
/-- R87. -/ def Reg.TIME_TRIG_WIDTH : Nat := 0x6110
/-- R87. -/ def Reg.TIME_TRIG_SEL : Nat := 0x6114
/-- R87. -/ def Reg.TIME_PATH_RX : Nat := 0x6200
/-- R87. -/ def Reg.TIME_PATH_TX : Nat := 0x6204
/-- R87. -/ def Reg.TIME_PPS_GLITCH_CNT : Nat := 0x6240
/-- R87. -/ def Reg.TIME_TIDE_BAD_CNT : Nat := 0x6244
/-- R87. -/ def Reg.TIME_CAPT_OVF_CNT : Nat := 0x6248
/-- R87. -/ def Reg.TIME_TRIG_MISS_CNT : Nat := 0x624C
/-- R87. -/ def Reg.TIME_CNT_SAT : Nat := 0x6250
/-- R119. -/ def Reg.BERTH_STATUS : Nat := 0x0
/-- R119. -/ def Reg.BERTH_RX_CTRL : Nat := 0x4
/-- R119. -/ def Reg.BERTH_RX_PLAN : Nat := 0x8
/-- R119. -/ def Reg.BERTH_RX_LO : Nat := 0xC
/-- R119. -/ def Reg.BERTH_RX_CF0 : Nat := 0x10
/-- R119. -/ def Reg.BERTH_RX_DET : Nat := 0x14
/-- R119. -/ def Reg.BERTH_RX_RSSI_OFS : Nat := 0x18
/-- R119. -/ def Reg.BERTH_RX_AGC_CFG : Nat := 0x1C
/-- R119. -/ def Reg.BERTH_RX_CAL : Nat := 0x20
/-- R119. -/ def Reg.BERTH_RX_AGC : Nat := 0x24
/-- R119. -/ def Reg.BERTH_RX_TRACK : Nat := 0x28
/-- R119. -/ def Reg.BERTH_RX_FLOOR_SEL : Nat := 0x2C
/-- R119. -/ def Reg.BERTH_RX_FLOOR : Nat := 0x30
/-- R119. -/ def Reg.BERTH_RX_DEMODS : Nat := 0x34
/-- R119. -/ def Reg.BERTH_RX_OK_CNT : Nat := 0x40
/-- R119. -/ def Reg.BERTH_RX_SYNC_CNT : Nat := 0x44
/-- R119. -/ def Reg.BERTH_RX_FALSE_SYNC_CNT : Nat := 0x48
/-- R119. -/ def Reg.BERTH_RX_PHR_ERR_CNT : Nat := 0x4C
/-- R119. -/ def Reg.BERTH_RX_MODE_SWITCH_CNT : Nat := 0x50
/-- R119. -/ def Reg.BERTH_RX_FCS_ERR_CNT : Nat := 0x54
/-- R119. -/ def Reg.BERTH_RX_RECAPTURE_CNT : Nat := 0x58
/-- R119. -/ def Reg.BERTH_RX_SUSTAIN_CNT : Nat := 0x5C
/-- R119. -/ def Reg.BERTH_RX_BLANKED_CNT : Nat := 0x60
/-- R119. -/ def Reg.BERTH_RX_CLIP_CNT : Nat := 0x64
/-- R119. -/ def Reg.BERTH_RX_CLIP_LOSS_CNT : Nat := 0x68
/-- R119. -/ def Reg.BERTH_RX_DEC_LATE_CNT : Nat := 0x6C
/-- R119. -/ def Reg.BERTH_RX_CONFIG_ABORT_CNT : Nat := 0x70
/-- R119. -/ def Reg.BERTH_RX_POISON_CNT : Nat := 0x74
/-- R119. -/ def Reg.BERTH_CNT_SAT : Nat := 0x7C
/-- R119. -/ def Reg.BERTH_RX_CH : Nat := 0x100
/-- R146. -/ def Reg.BERTH_TX_CTRL : Nat := 0x200
/-- R146. -/ def Reg.BERTH_TX_CFG : Nat := 0x204
/-- R146. -/ def Reg.BERTH_TX_CF0 : Nat := 0x208
/-- R146. -/ def Reg.BERTH_TX_PWR : Nat := 0x20C
/-- R146. -/ def Reg.BERTH_TX_RAMP : Nat := 0x210
/-- R146. -/ def Reg.BERTH_TX_RAMP0 : Nat := 0x214
/-- R146. -/ def Reg.BERTH_TX_RAMP1 : Nat := 0x218
/-- R146. -/ def Reg.BERTH_TX_FEM : Nat := 0x21C
/-- R146. -/ def Reg.BERTH_TX_SYN_CFG : Nat := 0x220
/-- R146. -/ def Reg.BERTH_TX_SYN_STATE : Nat := 0x224
/-- R146. -/ def Reg.BERTH_TX_MON : Nat := 0x228
/-- R146. -/ def Reg.BERTH_TX_TAP_ADDR : Nat := 0x22C
/-- R146. -/ def Reg.BERTH_TX_TAP_DATA : Nat := 0x230
/-- R146. -/ def Reg.BERTH_TX_FRAME_CNT : Nat := 0x240
/-- R146. -/ def Reg.BERTH_TX_ACK_CNT : Nat := 0x244
/-- R146. -/ def Reg.BERTH_TX_LOCK_MISS_CNT : Nat := 0x248
/-- R146. -/ def Reg.BERTH_TX_DUTY_DEFER_CNT : Nat := 0x24C
/-- R146. -/ def Reg.BERTH_TX_LBT_BUSY_CNT : Nat := 0x250
/-- R146. -/ def Reg.BERTH_TX_COEX_DENY_CNT : Nat := 0x254
/-- R146. -/ def Reg.BERTH_TX_COUPLE_DEFER_CNT : Nat := 0x258
/-- R146. -/ def Reg.BERTH_TX_UNAVAIL_CNT : Nat := 0x25C
/-- R146. -/ def Reg.BERTH_TX_UNDERRUN_CNT : Nat := 0x260
/-- R146. -/ def Reg.BERTH_TX_POISON_CNT : Nat := 0x264
/-- R146. -/ def Reg.BERTH_TX_FENCE_ABORT_CNT : Nat := 0x268
/-- R146. -/ def Reg.BERTH_TX_REG_REFUSE_CNT : Nat := 0x26C
/-- R146. -/ def Reg.BERTH_TX_PWR_CLIP_CNT : Nat := 0x270
/-- R146. -/ def Reg.BERTH_TX_MASK_VIOL_CNT : Nat := 0x274
/-- R146. -/ def Reg.BERTH_TX_MASK : Nat := 0x280
/-- R147. -/ def Reg.BCOM_STATUS : Nat := 0x5C00
/-- R147. -/ def Reg.BCOM_COEX_CFG : Nat := 0x5C04
/-- R147. -/ def Reg.BCOM_COEX_STATE : Nat := 0x5C0C
/-- R147. -/ def Reg.BCOM_TX_MAXCONC : Nat := 0x5C10
/-- R147. -/ def Reg.BCOM_COUPLE_LIMIT : Nat := 0x5C14
/-- R147. -/ def Reg.BCOM_COUPLE : Nat := 0x5C40
/-- R147. -/ def Reg.BCOM_DUTY_USED : Nat := 0x5D00
/-- R147. -/ def Reg.BCOM_DUTY_RESV : Nat := 0x5D04
/-- R147. -/ def Reg.BCOM_PROF_CTRL : Nat := 0x5D40
/-- R147. -/ def Reg.BCOM_SET_CLIP_CNT : Nat := 0x5D44
/-- R147. -/ def Reg.BCOM_CNT_SAT : Nat := 0x5D48
/-- R147. -/ def Reg.BCOM_PROF : Nat := 0x5E00
/-- R184. -/ def Reg.MAC_STATUS : Nat := 0x6400
/-- R184. -/ def Reg.MAC_CTRL : Nat := 0x6404
/-- R184. -/ def Reg.MAC_PAN : Nat := 0x6408
/-- R184. -/ def Reg.MAC_TS_CCA_OFS : Nat := 0x6410
/-- R184. -/ def Reg.MAC_TS_CCA : Nat := 0x6414
/-- R184. -/ def Reg.MAC_TS_TX_OFS : Nat := 0x6418
/-- R184. -/ def Reg.MAC_TS_RX_OFS : Nat := 0x641C
/-- R184. -/ def Reg.MAC_TS_RX_ACK_DELAY : Nat := 0x6420
/-- R184. -/ def Reg.MAC_TS_TX_ACK_DELAY : Nat := 0x6424
/-- R184. -/ def Reg.MAC_TS_RX_WAIT : Nat := 0x6428
/-- R184. -/ def Reg.MAC_TS_ACK_WAIT : Nat := 0x642C
/-- R184. -/ def Reg.MAC_TS_RXTX : Nat := 0x6430
/-- R184. -/ def Reg.MAC_TS_MAX_ACK : Nat := 0x6434
/-- R184. -/ def Reg.MAC_TS_MAX_TX : Nat := 0x6438
/-- R184. -/ def Reg.MAC_TS_ID : Nat := 0x643C
/-- R184. -/ def Reg.MAC_EB_CFG : Nat := 0x6440
/-- R184. -/ def Reg.MAC_BA_CFG : Nat := 0x6444
/-- R184. -/ def Reg.MAC_DRIFT_CFG : Nat := 0x6448
/-- R184. -/ def Reg.MAC_NBR_CFG : Nat := 0x644C
/-- R184. -/ def Reg.MAC_TX_CFG : Nat := 0x6450
/-- R184. -/ def Reg.MAC_POLICY : Nat := 0x6454
/-- R184. -/ def Reg.MAC_AUTO_CFG : Nat := 0x6458
/-- R184. -/ def Reg.MAC_COMMIT : Nat := 0x645C
/-- R184. -/ def Reg.MAC_CELL_ADDR : Nat := 0x6460
/-- R184. -/ def Reg.MAC_CELL_DATA0 : Nat := 0x6464
/-- R184. -/ def Reg.MAC_CELL_DATA1 : Nat := 0x6468
/-- R184. -/ def Reg.MAC_HOP_ADDR : Nat := 0x646C
/-- R184. -/ def Reg.MAC_HOP_DATA : Nat := 0x6470
/-- R184. -/ def Reg.MAC_NBR_SEL : Nat := 0x6474
/-- R184. -/ def Reg.MAC_NBR_DRIFT : Nat := 0x6478
/-- R184. -/ def Reg.MAC_NBR_OFFSET : Nat := 0x647C
/-- R184. -/ def Reg.MAC_SF_CFG : Nat := 0x6480
/-- R184. -/ def Reg.MAC_HOP_CFG : Nat := 0x64C0
/-- R184. -/ def Reg.MAC_RX_ACCEPT_CNT : Nat := 0x6500
/-- R184. -/ def Reg.MAC_RX_DROP_CNT : Nat := 0x6504
/-- R184. -/ def Reg.MAC_RX_OFFWIN_CNT : Nat := 0x6508
/-- R184. -/ def Reg.MAC_RX_OFFCELL_CNT : Nat := 0x650C
/-- R184. -/ def Reg.MAC_RX_SEC_FAIL_CNT : Nat := 0x6510
/-- R184. -/ def Reg.MAC_RX_DUP_CNT : Nat := 0x6514
/-- R184. -/ def Reg.MAC_REPLAY_CNT : Nat := 0x6518
/-- R184. -/ def Reg.MAC_ACK_TX_CNT : Nat := 0x651C
/-- R184. -/ def Reg.MAC_ACK_LATE_CNT : Nat := 0x6520
/-- R184. -/ def Reg.MAC_NACK_CNT : Nat := 0x6524
/-- R184. -/ def Reg.MAC_ACK_MISS_CNT : Nat := 0x6528
/-- R184. -/ def Reg.MAC_BA_TX_CNT : Nat := 0x652C
/-- R184. -/ def Reg.MAC_BA_SUPPRESS_CNT : Nat := 0x6530
/-- R184. -/ def Reg.MAC_BA_BITS_CNT : Nat := 0x6534
/-- R184. -/ def Reg.MAC_EB_TX_CNT : Nat := 0x6538
/-- R184. -/ def Reg.MAC_EB_SUPPRESS_CNT : Nat := 0x653C
/-- R184. -/ def Reg.MAC_DRIFT_OUTLIER_CNT : Nat := 0x6540
/-- R184. -/ def Reg.MAC_LINK_FAIL_CNT : Nat := 0x6544
/-- R184. -/ def Reg.MAC_HOLD_CNT : Nat := 0x6548
/-- R184. -/ def Reg.MAC_CNT_SAT : Nat := 0x654C
/-- R222. -/ def Reg.TBL_STATUS : Nat := 0x1000
/-- R222. -/ def Reg.TBL_CMD : Nat := 0x1004
/-- R222. -/ def Reg.TBL_HANDLE : Nat := 0x1008
/-- R222. -/ def Reg.TBL_KEY_LO : Nat := 0x100C
/-- R222. -/ def Reg.TBL_KEY_HI : Nat := 0x1010
/-- R222. -/ def Reg.TBL_INFO : Nat := 0x1014
/-- R222. -/ def Reg.TBL_DATA : Nat := 0x1040
/-- R223. -/ def Reg.ROUTE_STATUS : Nat := 0x6800
/-- R223. -/ def Reg.ROUTE_CTRL : Nat := 0x6804
/-- R223. -/ def Reg.ROUTE_CFG : Nat := 0x6808
/-- R223. -/ def Reg.ROUTE_NBR_CFG : Nat := 0x680C
/-- R223. -/ def Reg.ROUTE_TBL_CFG : Nat := 0x6810
/-- R223. -/ def Reg.ROUTE_RPL_INST : Nat := 0x6814
/-- R223. -/ def Reg.ROUTE_RPL_TRICKLE : Nat := 0x6818
/-- R223. -/ def Reg.ROUTE_RPL_LIFE : Nat := 0x681C
/-- R223. -/ def Reg.ROUTE_DODAGID : Nat := 0x6820
/-- R223. -/ def Reg.ROUTE_PREFIX_HI : Nat := 0x6830
/-- R223. -/ def Reg.ROUTE_PREFIX_LO : Nat := 0x6834
/-- R223. -/ def Reg.ROUTE_HASH_SEED0_LO : Nat := 0x6840
/-- R223. -/ def Reg.ROUTE_HASH_SEED0_HI : Nat := 0x6844
/-- R223. -/ def Reg.ROUTE_HASH_SEED1_LO : Nat := 0x6848
/-- R223. -/ def Reg.ROUTE_HASH_SEED1_HI : Nat := 0x684C
/-- R223. -/ def Reg.ROUTE_RGEN : Nat := 0x6850
/-- R223. -/ def Reg.ROUTE_STRAY : Nat := 0x6854
/-- R223. -/ def Reg.ROUTE_WALK_CTRL : Nat := 0x6860
/-- R223. -/ def Reg.ROUTE_WALK_RESULT : Nat := 0x6864
/-- R223. -/ def Reg.ROUTE_WALK_HOP : Nat := 0x6880
/-- R223. -/ def Reg.ROUTE_DAO_CNT : Nat := 0x6900
/-- R223. -/ def Reg.ROUTE_DAO_DROP_CNT : Nat := 0x6904
/-- R223. -/ def Reg.ROUTE_DAO_STALE_CNT : Nat := 0x6908
/-- R223. -/ def Reg.ROUTE_WALK_FAIL_CNT : Nat := 0x690C
/-- R223. -/ def Reg.ROUTE_LOOP_CNT : Nat := 0x6910
/-- R223. -/ def Reg.ROUTE_MISSING_CNT : Nat := 0x6914
/-- R223. -/ def Reg.ROUTE_FLOOD_CNT : Nat := 0x6918
/-- R223. -/ def Reg.ROUTE_INSERT_FAIL_CNT : Nat := 0x691C
/-- R223. -/ def Reg.ROUTE_NBR_FULL_CNT : Nat := 0x6920
/-- R223. -/ def Reg.ROUTE_REHOME_CNT : Nat := 0x6924
/-- R223. -/ def Reg.ROUTE_ARB_LATE_CNT : Nat := 0x6928
/-- R223. -/ def Reg.ROUTE_SUSPECT_CNT : Nat := 0x692C
/-- R223. -/ def Reg.ROUTE_STRAY_FULL_CNT : Nat := 0x6930
/-- R223. -/ def Reg.ROUTE_DIO_CNT : Nat := 0x6934
/-- R223. -/ def Reg.ROUTE_CNT_SAT : Nat := 0x6938
/-- R259. -/ def Reg.SVC_STATUS : Nat := 0x6C00
/-- R259. -/ def Reg.SVC_CTRL : Nat := 0x6C04
/-- R259. -/ def Reg.SVC_COAP_CFG : Nat := 0x6C08
/-- R259. -/ def Reg.SVC_COAP_WAIT : Nat := 0x6C0C
/-- R259. -/ def Reg.SVC_PORT : Nat := 0x6C10
/-- R259. -/ def Reg.SVC_TIMED_CFG : Nat := 0x6C14
/-- R259. -/ def Reg.SVC_SEAL_CFG : Nat := 0x6C18
/-- R259. -/ def Reg.SVC_UP_CFG : Nat := 0x6C1C
/-- R259. -/ def Reg.SVC_GROUP_CFG : Nat := 0x6C20
/-- R259. -/ def Reg.SVC_MPL_CFG : Nat := 0x6C24
/-- R259. -/ def Reg.SVC_RAW_CFG : Nat := 0x6C28
/-- R259. -/ def Reg.SVC_GROUP_SEL : Nat := 0x6C2C
/-- R259. -/ def Reg.SVC_GROUP_INFO : Nat := 0x6C30
/-- R259. -/ def Reg.SVC_MID_NEXT : Nat := 0x6C34
/-- R259. -/ def Reg.SVC_FRAG : Nat := 0x6C38
/-- R259. -/ def Reg.SVC_USAGE : Nat := 0x6C3C
/-- R259. -/ def Reg.SVC_TXN_OK_CNT : Nat := 0x6C80
/-- R259. -/ def Reg.SVC_TXN_TIMEOUT_CNT : Nat := 0x6C84
/-- R259. -/ def Reg.SVC_COAP_RETX_CNT : Nat := 0x6C88
/-- R259. -/ def Reg.SVC_TXN_FULL_CNT : Nat := 0x6C8C
/-- R259. -/ def Reg.SVC_TOO_LATE_CNT : Nat := 0x6C90
/-- R259. -/ def Reg.SVC_UP_RX_CNT : Nat := 0x6C94
/-- R259. -/ def Reg.SVC_UP_DUP_CNT : Nat := 0x6C98
/-- R259. -/ def Reg.SVC_UP_NOACK_CNT : Nat := 0x6C9C
/-- R259. -/ def Reg.SVC_ORPHAN_CNT : Nat := 0x6CA0
/-- R259. -/ def Reg.SVC_SEAL_FAIL_CNT : Nat := 0x6CA4
/-- R259. -/ def Reg.SVC_SEAL_REPLAY_CNT : Nat := 0x6CA8
/-- R259. -/ def Reg.SVC_UNSEALED_DROP_CNT : Nat := 0x6CAC
/-- R259. -/ def Reg.SVC_REASM_TIMEOUT_CNT : Nat := 0x6CB0
/-- R259. -/ def Reg.SVC_REASM_FULL_CNT : Nat := 0x6CB4
/-- R259. -/ def Reg.SVC_REASM_ERR_CNT : Nat := 0x6CB8
/-- R259. -/ def Reg.SVC_RX_DROP_CNT : Nat := 0x6CBC
/-- R259. -/ def Reg.SVC_DGRAM_RX_CNT : Nat := 0x6CC0
/-- R259. -/ def Reg.SVC_MPL_TX_CNT : Nat := 0x6CC4
/-- R259. -/ def Reg.SVC_FANOUT_FAIL_CNT : Nat := 0x6CC8
/-- R259. -/ def Reg.SVC_RAW_DROP_CNT : Nat := 0x6CCC
/-- R259. -/ def Reg.SVC_FRAG_ABORT_CNT : Nat := 0x6CD0
/-- R259. -/ def Reg.SVC_RAW_RX_CNT : Nat := 0x6CD4
/-- R259. -/ def Reg.SVC_CNT_SAT : Nat := 0x6CD8
/-- R294. -/ def Reg.RING_STATUS : Nat := 0x100
/-- R294. -/ def Reg.RING_FN_CTRL : Nat := 0x104
/-- R294. -/ def Reg.RING_NUDGE : Nat := 0x108
/-- R294. -/ def Reg.RING_POLL : Nat := 0x10C
/-- R294. -/ def Reg.RING_DB_LO : Nat := 0x110
/-- R294. -/ def Reg.RING_DB_HI : Nat := 0x114
/-- R294. -/ def Reg.RING_SB_LO : Nat := 0x118
/-- R294. -/ def Reg.RING_SB_HI : Nat := 0x11C
/-- R294. -/ def Reg.RING_LIVE : Nat := 0x120
/-- R294. -/ def Reg.RING_ERR : Nat := 0x124
/-- R294. -/ def Reg.RING_BASE_LO : Nat := 0x200
/-- R294. -/ def Reg.RING_BASE_HI : Nat := 0x204
/-- R294. -/ def Reg.RING_SIZE : Nat := 0x208
/-- R294. -/ def Reg.RING_CTRL : Nat := 0x20C
/-- R294. -/ def Reg.RING_HEAD : Nat := 0x210
/-- R294. -/ def Reg.RING_TAIL : Nat := 0x214
/-- R294. -/ def Reg.RING_MOD : Nat := 0x218
/-- R294. -/ def Reg.RING_DESC_CNT : Nat := 0x300
/-- R294. -/ def Reg.RING_ENTRY_CNT : Nat := 0x304
/-- R294. -/ def Reg.RING_HELD_CNT : Nat := 0x308
/-- R294. -/ def Reg.RING_LOST_CNT : Nat := 0x30C
/-- R294. -/ def Reg.RING_PREEMPT_CNT : Nat := 0x310
/-- R294. -/ def Reg.RING_PAUSE_CNT : Nat := 0x314
/-- R294. -/ def Reg.RING_CNT_SAT : Nat := 0x318
/-- R294. -/ def Reg.RING_GRANT : Nat := 0x700
/-- R294. -/ def Reg.RING_STEV_CFG : Nat := 0x720
/-- R294. -/ def Reg.RING_STEV_STATE : Nat := 0x724
/-- R294. -/ def Reg.RING_FN_STATE : Nat := 0x728
/-- R295. -/ def Reg.XLATE_STATUS : Nat := 0x800
/-- R295. -/ def Reg.XLATE_CTRL : Nat := 0x804
/-- R295. -/ def Reg.XLATE_INV : Nat := 0x808
/-- R295. -/ def Reg.XLATE_ATC_HIT_CNT : Nat := 0x840
/-- R295. -/ def Reg.XLATE_ATC_MISS_CNT : Nat := 0x844
/-- R295. -/ def Reg.XLATE_PRI_CNT : Nat := 0x848
/-- R295. -/ def Reg.XLATE_FAULT_CNT : Nat := 0x84C
/-- R295. -/ def Reg.XLATE_INV_CNT : Nat := 0x850
/-- R295. -/ def Reg.XLATE_CNT_SAT : Nat := 0x854
/-- R295. -/ def Reg.XLATE_FAULT_INFO : Nat := 0x900
/-- R295. -/ def Reg.XLATE_FAULT_ADDR_LO : Nat := 0x904
/-- R295. -/ def Reg.XLATE_FAULT_ADDR_HI : Nat := 0x908
/-- R295. -/ def Reg.XLATE_FAULT_OFFSET : Nat := 0x90C
/-- R295. -/ def Reg.XLATE_FAULT_REMAIN : Nat := 0x910
/-- R295. -/ def Reg.XLATE_FAULT_HOST_TAG : Nat := 0x914
/-- R295. -/ def Reg.XLATE_FAULT_INDEX : Nat := 0x918
/-- R295. -/ def Reg.XLATE_FAULT_ACTION : Nat := 0x91C
/-- R314. -/ def Reg.CAMP_STATUS : Nat := 0x6E00
/-- R314. -/ def Reg.CAMP_CFG : Nat := 0x6E04
/-- R314. -/ def Reg.CAMP_SCHED : Nat := 0x6E08
/-- R314. -/ def Reg.CAMP_STRIDE : Nat := 0x6E0C
/-- R314. -/ def Reg.CAMP_SEL : Nat := 0x6E10
/-- R314. -/ def Reg.CAMP_V_NONCE : Nat := 0x6E14
/-- R314. -/ def Reg.CAMP_V_STATE : Nat := 0x6E20
/-- R314. -/ def Reg.CAMP_V_PERCENT : Nat := 0x6E24
/-- R314. -/ def Reg.CAMP_V_POSITION : Nat := 0x6E28
/-- R314. -/ def Reg.CAMP_V_TARGETS : Nat := 0x6E2C
/-- R314. -/ def Reg.CAMP_V_COMPLETE : Nat := 0x6E30
/-- R314. -/ def Reg.CAMP_V_REFUSED : Nat := 0x6E34
/-- R314. -/ def Reg.CAMP_V_CKPT_SEQ : Nat := 0x6E38
/-- R314. -/ def Reg.CAMP_BLK_STATE : Nat := 0x6E40
/-- R314. -/ def Reg.CAMP_BLK_LIMIT : Nat := 0x6E44
/-- R314. -/ def Reg.CAMP_BLK_K : Nat := 0x6E48
/-- R314. -/ def Reg.CAMP_FRAME_CNT : Nat := 0x6E80
/-- R314. -/ def Reg.CAMP_SYM_CNT : Nat := 0x6E84
/-- R314. -/ def Reg.CAMP_SYM_DROP_CNT : Nat := 0x6E88
/-- R314. -/ def Reg.CAMP_REPORT_CNT : Nat := 0x6E8C
/-- R314. -/ def Reg.CAMP_REPORT_STALE_CNT : Nat := 0x6E90
/-- R314. -/ def Reg.CAMP_CKPT_CNT : Nat := 0x6E94
/-- R314. -/ def Reg.CAMP_CKPT_WAIT_CNT : Nat := 0x6E98
/-- R314. -/ def Reg.CAMP_POISON_CNT : Nat := 0x6E9C
/-- R314. -/ def Reg.CAMP_CNT_SAT : Nat := 0x6EA0
/-- R337. -/ def Reg.KEY_STATUS : Nat := 0x7000
/-- R337. -/ def Reg.KEY_MOULD_K : Nat := 0x7004
/-- R337. -/ def Reg.KEY_MOULD_CTRL : Nat := 0x7014
/-- R337. -/ def Reg.KEY_GRACE : Nat := 0x7018
/-- R337. -/ def Reg.KEY_LINK_CFG : Nat := 0x701C
/-- R337. -/ def Reg.KEY_BCAST_CFG : Nat := 0x7020
/-- R337. -/ def Reg.KEY_DRBG_CFG : Nat := 0x7024
/-- R337. -/ def Reg.KEY_SLOT_SEL : Nat := 0x7028
/-- R337. -/ def Reg.KEY_SLOT_STATE : Nat := 0x702C
/-- R337. -/ def Reg.KEY_SLOTS : Nat := 0x7030
/-- R337. -/ def Reg.KEY_CACHE : Nat := 0x7034
/-- R337. -/ def Reg.KEY_NODE_GEN : Nat := 0x7038
/-- R337. -/ def Reg.KEY_DERIVE_CNT : Nat := 0x7040
/-- R337. -/ def Reg.KEY_STALE_CNT : Nat := 0x7044
/-- R337. -/ def Reg.KEY_GRACE_RX_CNT : Nat := 0x7048
/-- R337. -/ def Reg.KEY_GRACE_REJECT_CNT : Nat := 0x704C
/-- R337. -/ def Reg.KEY_GRACE_DROP_CNT : Nat := 0x7050
/-- R337. -/ def Reg.KEY_CACHE_UE_CNT : Nat := 0x7054
/-- R337. -/ def Reg.KEY_NONCE_GUARD_CNT : Nat := 0x7058
/-- R337. -/ def Reg.KEY_ENTROPY_FAIL_CNT : Nat := 0x705C
/-- R337. -/ def Reg.KEY_ATTEST_CNT : Nat := 0x7060
/-- R337. -/ def Reg.KEY_SLOT_ERR_CNT : Nat := 0x7064
/-- R337. -/ def Reg.KEY_CNT_SAT : Nat := 0x7068
/-- R338. -/ def Reg.PLINTH_STATUS : Nat := 0x7400
/-- R338. -/ def Reg.PLINTH_TAMPER_CFG : Nat := 0x7404
/-- R338. -/ def Reg.PLINTH_TAMPER_SEEN : Nat := 0x7408
/-- R338. -/ def Reg.PLINTH_TAMPER_NOW : Nat := 0x740C
/-- R338. -/ def Reg.PLINTH_SCUTTLE : Nat := 0x7410
/-- R338. -/ def Reg.PLINTH_SCUTTLE_INFO : Nat := 0x7414
/-- R338. -/ def Reg.PLINTH_PROV_CTRL : Nat := 0x7418
/-- R338. -/ def Reg.PLINTH_PROV_STATUS : Nat := 0x741C
/-- R338. -/ def Reg.PLINTH_IMGKEY : Nat := 0x7420
/-- R338. -/ def Reg.PLINTH_SCUTTLE_AT : Nat := 0x7440
/-- R338. -/ def Reg.PLINTH_PUBKEY : Nat := 0x7500
/-- R338. -/ def Reg.PLINTH_KEY_ID : Nat := 0x7680
/-- R361. -/ def Reg.HOLD_STATUS : Nat := 0x7800
/-- R361. -/ def Reg.HOLD_CE_CFG : Nat := 0x7804
/-- R361. -/ def Reg.HOLD_CUT_CFG : Nat := 0x7808
/-- R361. -/ def Reg.HOLD_FLUSH_CFG : Nat := 0x780C
/-- R361. -/ def Reg.HOLD_POOL_CFG : Nat := 0x7810
/-- R361. -/ def Reg.HOLD_POOL : Nat := 0x7814
/-- R361. -/ def Reg.HOLD_SELFTEST : Nat := 0x7818
/-- R361. -/ def Reg.HOLD_LAST_UE_LOC : Nat := 0x781C
/-- R361. -/ def Reg.HOLD_LAST_UE_INFO : Nat := 0x7820
/-- R361. -/ def Reg.HOLD_QCMD : Nat := 0x7824
/-- R361. -/ def Reg.HOLD_QSEL : Nat := 0x7828
/-- R361. -/ def Reg.HOLD_QSTATE : Nat := 0x782C
/-- R361. -/ def Reg.HOLD_LOG_SEL : Nat := 0x7830
/-- R361. -/ def Reg.HOLD_LOG_LOC : Nat := 0x7834
/-- R361. -/ def Reg.HOLD_LOG_INFO : Nat := 0x7838
/-- R361. -/ def Reg.HOLD_REPAIR_CTRL : Nat := 0x783C
/-- R361. -/ def Reg.HOLD_REPAIR_STATUS : Nat := 0x7840
/-- R361. -/ def Reg.HOLD_SPARE_SEL : Nat := 0x7844
/-- R361. -/ def Reg.HOLD_SPARE : Nat := 0x7848
/-- R361. -/ def Reg.HOLD_CE_CNT : Nat := 0x7880
/-- R361. -/ def Reg.HOLD_UE_CNT : Nat := 0x7884
/-- R361. -/ def Reg.HOLD_ADDR_ERR_CNT : Nat := 0x7888
/-- R361. -/ def Reg.HOLD_POISON_READ_CNT : Nat := 0x788C
/-- R361. -/ def Reg.HOLD_QRESET_CNT : Nat := 0x7890
/-- R361. -/ def Reg.HOLD_FLUSH_FORCED_CNT : Nat := 0x7894
/-- R361. -/ def Reg.HOLD_POOL_STALL_CNT : Nat := 0x7898
/-- R361. -/ def Reg.HOLD_PILOT_CE_CNT : Nat := 0x789C
/-- R361. -/ def Reg.HOLD_CNT_SAT : Nat := 0x78A0
/-- R383. -/ def Reg.CLAIM_STATUS : Nat := 0x8000
/-- R383. -/ def Reg.CLAIM_CTRL : Nat := 0x8004
/-- R383. -/ def Reg.CLAIM_CFG : Nat := 0x8008
/-- R383. -/ def Reg.CLAIM_PRIO : Nat := 0x800C
/-- R383. -/ def Reg.CLAIM_DIAG : Nat := 0x8010
/-- R383. -/ def Reg.CLAIM_CKPT_OUT_SEQ : Nat := 0x8014
/-- R383. -/ def Reg.CLAIM_CKPT_IN_SEQ : Nat := 0x8018
/-- R383. -/ def Reg.CLAIM_PROBE_CNT : Nat := 0x8040
/-- R383. -/ def Reg.CLAIM_CONFLICT_CNT : Nat := 0x8044
/-- R383. -/ def Reg.CLAIM_CKPT_OUT_CNT : Nat := 0x8048
/-- R383. -/ def Reg.CLAIM_CKPT_IN_CNT : Nat := 0x804C
/-- R383. -/ def Reg.CLAIM_CKPT_REJECT_CNT : Nat := 0x8050
/-- R383. -/ def Reg.CLAIM_SHADOW_RX_CNT : Nat := 0x8054
/-- R383. -/ def Reg.CLAIM_CNT_SAT : Nat := 0x8058
/-- R398. -/ def Reg.FW_STATUS : Nat := 0x8400
/-- R398. -/ def Reg.FW_CTRL : Nat := 0x8404
/-- R398. -/ def Reg.FW_STAGE : Nat := 0x8408
/-- R398. -/ def Reg.FW_STAGE_LEN : Nat := 0x840C
/-- R398. -/ def Reg.FW_TRIAL : Nat := 0x8410
/-- R398. -/ def Reg.FW_BOOT_INFO : Nat := 0x8414
/-- R398. -/ def Reg.FW_SECVER : Nat := 0x8418
/-- R398. -/ def Reg.FW_SIGNER : Nat := 0x841C
/-- R398. -/ def Reg.FW_SIGNER_CTRL : Nat := 0x8420
/-- R398. -/ def Reg.FW_SIGNER_HASH : Nat := 0x8424
/-- R398. -/ def Reg.FW_SET_SEL : Nat := 0x8444
/-- R398. -/ def Reg.FW_SET_VAL : Nat := 0x8448
/-- R398. -/ def Reg.FW_STAGE_BUSY_CNT : Nat := 0x8480
/-- R398. -/ def Reg.FW_LEASE_END_CNT : Nat := 0x8484
/-- R398. -/ def Reg.FW_FALLBACK_CNT : Nat := 0x8488
/-- R398. -/ def Reg.FW_CNT_SAT : Nat := 0x848C
/-- R418. -/ def Reg.BRINGUP_STATUS : Nat := 0x2000
/-- R418. -/ def Reg.BRINGUP_STALL_LIMIT : Nat := 0x2004
/-- R418. -/ def Reg.BRINGUP_T_SELFTEST : Nat := 0x2008
/-- R418. -/ def Reg.BRINGUP_T_READY : Nat := 0x200C
/-- R418. -/ def Reg.BRINGUP_T_SERVICE : Nat := 0x2010
/-- R418. -/ def Reg.BRINGUP_PORT_CFG : Nat := 0x2040
/-- R418. -/ def Reg.BRINGUP_PORT_STATUS : Nat := 0x2044
/-- R418. -/ def Reg.BRINGUP_PORT_DATA : Nat := 0x2048
/-- R419. -/ def Reg.TEST_STATUS : Nat := 0x8C00
/-- R419. -/ def Reg.TEST_CTRL : Nat := 0x8C04
/-- R419. -/ def Reg.TEST_RESET : Nat := 0x8C08
/-- R419. -/ def Reg.TEST_RESET_CAUSE : Nat := 0x8C0C
/-- R419. -/ def Reg.TEST_DOCK : Nat := 0x8C10
/-- R419. -/ def Reg.TEST_DOCK_RESULT : Nat := 0x8C14
/-- R419. -/ def Reg.TEST_KAT_CFG : Nat := 0x8C18
/-- R419. -/ def Reg.TEST_KAT_LAST : Nat := 0x8C1C
/-- R419. -/ def Reg.TEST_FENCE : Nat := 0x8C20
/-- R419. -/ def Reg.TEST_KAT_CNT : Nat := 0x8C40
/-- R419. -/ def Reg.TEST_KAT_FAIL_CNT : Nat := 0x8C44
/-- R419. -/ def Reg.TEST_DOCK_CNT : Nat := 0x8C48
/-- R419. -/ def Reg.TEST_CNT_SAT : Nat := 0x8C4C

def Fl.FABRIC_STATUS_BUSY : Fld := ⟨0x7C00, 0, 0⟩
def Fl.FABRIC_STATUS_PASS : Fld := ⟨0x7C00, 1, 1⟩
def Fl.FABRIC_STATUS_REFUSED : Fld := ⟨0x7C00, 2, 2⟩
def Fl.FABRIC_STATUS_UNIT : Fld := ⟨0x7C00, 8, 12⟩
def Fl.FABRIC_FENCED_UNITS : Fld := ⟨0x7C04, 0, 30⟩
def Fl.FABRIC_LINK_FAULT_UNITS : Fld := ⟨0x7C08, 0, 30⟩
def Fl.FABRIC_CORE_FAULT_MAC : Fld := ⟨0x7C0C, 0, 0⟩
def Fl.FABRIC_CORE_FAULT_TABLE : Fld := ⟨0x7C0C, 1, 1⟩
def Fl.FABRIC_CORE_FAULT_ROUTE : Fld := ⟨0x7C0C, 2, 2⟩
def Fl.FABRIC_CORE_FAULT_SVC : Fld := ⟨0x7C0C, 3, 3⟩
def Fl.FABRIC_CORE_FAULT_CRYPTO : Fld := ⟨0x7C0C, 4, 4⟩
def Fl.FABRIC_CORE_FAULT_HOLD : Fld := ⟨0x7C0C, 5, 5⟩
def Fl.FABRIC_CORE_FAULT_BERTH_Q : Fld := ⟨0x7C0C, 6, 11⟩
def Fl.FABRIC_CORE_FAULT_TIME_Q : Fld := ⟨0x7C0C, 12, 12⟩
def Fl.FABRIC_CORE_FAULT_PCIE_A_Q : Fld := ⟨0x7C0C, 13, 13⟩
def Fl.FABRIC_CORE_FAULT_PCIE_B_Q : Fld := ⟨0x7C0C, 14, 14⟩
def Fl.FABRIC_CORE_FAULT_OTHER_Q : Fld := ⟨0x7C0C, 15, 15⟩
def Fl.FABRIC_UNFENCE_UNIT : Fld := ⟨0x7C10, 0, 4⟩
def Fl.FABRIC_UNFENCE_GO : Fld := ⟨0x7C10, 31, 31⟩
def Fl.FABRIC_RATE_RATE : Fld := ⟨0x7C14, 0, 15⟩
def Fl.FABRIC_RATE_LOW_WATER : Fld := ⟨0x7C14, 16, 31⟩
def Fl.FABRIC_RATE_WARN_THRESHOLD : Fld := ⟨0x7C18, 0, 15⟩
def Fl.FABRIC_VREQ_VREQ_MV : Fld := ⟨0x7C1C, 0, 9⟩
def Fl.FABRIC_VPOLICY_ENABLE : Fld := ⟨0x7C20, 0, 0⟩
def Fl.FABRIC_VPOLICY_TARGET_MTPS : Fld := ⟨0x7C20, 4, 12⟩
def Fl.FABRIC_VPOLICY_CEIL_MV : Fld := ⟨0x7C20, 16, 25⟩
def Fl.FABRIC_PILOT_STATE_CORE_0 : Fld := ⟨0x7C34, 0, 3⟩
def Fl.FABRIC_PILOT_STATE_CORE_1 : Fld := ⟨0x7C34, 4, 7⟩
def Fl.FABRIC_PILOT_STATE_CORE_2 : Fld := ⟨0x7C34, 8, 11⟩
def Fl.FABRIC_PILOT_STATE_CORE_3 : Fld := ⟨0x7C34, 12, 15⟩
def Fl.FABRIC_CNT_SAT_SAT : Fld := ⟨0x7C38, 0, 3⟩
def Fl.FABRIC_CTRL_CLR_LOW_WATER : Fld := ⟨0x7C3C, 0, 0⟩
def Fl.FABRIC_CTRL_MASK : Fld := ⟨0x7C3C, 16, 31⟩
def Fl.IDENT_DEVICE_PART : Fld := ⟨0x0, 0, 15⟩
def Fl.IDENT_DEVICE_STEPPING : Fld := ⟨0x0, 16, 23⟩
def Fl.IDENT_DEVICE_FAMILY : Fld := ⟨0x0, 24, 31⟩
def Fl.IDENT_BERTHS_PRESENT : Fld := ⟨0x4, 0, 5⟩
def Fl.IDENT_BERTHS_BAND24 : Fld := ⟨0x4, 8, 13⟩
def Fl.IDENT_FUNC_FN : Fld := ⟨0x8, 0, 2⟩
def Fl.IDENT_FUNC_PORT : Fld := ⟨0x8, 3, 3⟩
def Fl.IDENT_FUNC_IS_HM : Fld := ⟨0x8, 4, 4⟩
def Fl.IDENT_FUNC_HM_FN : Fld := ⟨0x8, 8, 10⟩
def Fl.IDENT_GRANTED_BRINGUP : Fld := ⟨0xC, 0, 0⟩
def Fl.IDENT_GRANTED_BERTH : Fld := ⟨0xC, 1, 6⟩
def Fl.IDENT_GRANTED_BCOM : Fld := ⟨0xC, 7, 7⟩
def Fl.IDENT_GRANTED_TIME : Fld := ⟨0xC, 8, 8⟩
def Fl.IDENT_GRANTED_MAC : Fld := ⟨0xC, 9, 9⟩
def Fl.IDENT_GRANTED_ROUTE : Fld := ⟨0xC, 10, 10⟩
def Fl.IDENT_GRANTED_SVC : Fld := ⟨0xC, 11, 11⟩
def Fl.IDENT_GRANTED_CAMP : Fld := ⟨0xC, 12, 12⟩
def Fl.IDENT_GRANTED_KEY : Fld := ⟨0xC, 13, 13⟩
def Fl.IDENT_GRANTED_PLINTH : Fld := ⟨0xC, 14, 14⟩
def Fl.IDENT_GRANTED_HOLD : Fld := ⟨0xC, 15, 15⟩
def Fl.IDENT_GRANTED_FABRIC : Fld := ⟨0xC, 16, 16⟩
def Fl.IDENT_GRANTED_CLAIM : Fld := ⟨0xC, 17, 17⟩
def Fl.IDENT_GRANTED_FW : Fld := ⟨0xC, 18, 18⟩
def Fl.IDENT_GRANTED_GEVT : Fld := ⟨0xC, 19, 19⟩
def Fl.IDENT_GRANTED_TEST : Fld := ⟨0xC, 20, 20⟩
def Fl.IDENT_OUI_OUI : Fld := ⟨0x10, 0, 23⟩
def Fl.IDENT_FW_MODE : Fld := ⟨0x1C, 0, 1⟩
def Fl.IDENT_FW_SCUTTLED : Fld := ⟨0x1C, 3, 3⟩
def Fl.IDENT_FW_MINOR : Fld := ⟨0x1C, 8, 15⟩
def Fl.IDENT_FW_MAJOR : Fld := ⟨0x1C, 16, 23⟩
def Fl.IDENT_FW_MAQ : Fld := ⟨0x1C, 24, 31⟩
def Fl.IDENT_BUS_ERR_RD_ABORT : Fld := ⟨0x20, 0, 0⟩
def Fl.IDENT_BUS_ERR_WR_DROP : Fld := ⟨0x20, 1, 1⟩
def Fl.IDENT_BUS_ERR_SIZE : Fld := ⟨0x20, 2, 2⟩
def Fl.IDENT_BUS_ERR_FORBIDDEN : Fld := ⟨0x20, 3, 3⟩
def Fl.IDENT_BUS_ERR_RESERVED : Fld := ⟨0x20, 4, 4⟩
def Fl.IDENT_BUS_ERR_UNCORR : Fld := ⟨0x20, 5, 5⟩
def Fl.IDENT_BUS_ERR_LAST_OFFSET : Fld := ⟨0x20, 16, 31⟩
def Fl.IDENT_INCARNATION_INC : Fld := ⟨0x24, 0, 3⟩
def Fl.EVT_CTRL_ENABLE : Fld := ⟨0x1800, 0, 0⟩
def Fl.EVT_CTRL_C3_EN : Fld := ⟨0x1800, 1, 1⟩
def Fl.EVT_CTRL_HOLDOFF_US : Fld := ⟨0x1800, 16, 31⟩
def Fl.EVT_STATUS_C3_OVF : Fld := ⟨0x1804, 0, 0⟩
def Fl.EVT_STATUS_SEQ : Fld := ⟨0x1804, 16, 31⟩
def Fl.EVT_CNT_SAT_LOST : Fld := ⟨0x180C, 0, 0⟩
def Fl.GEVT_INJECT_CODE : Fld := ⟨0x8820, 0, 7⟩
def Fl.GEVT_INJECT_GO : Fld := ⟨0x8820, 31, 31⟩
def Fl.TIME_STATUS_BUSY : Fld := ⟨0x6000, 0, 0⟩
def Fl.TIME_STATUS_SLOTS : Fld := ⟨0x6000, 1, 1⟩
def Fl.TIME_STATUS_POST_DROP : Fld := ⟨0x6000, 3, 3⟩
def Fl.TIME_STATUS_PENDING : Fld := ⟨0x6000, 4, 4⟩
def Fl.TIME_STATUS_REJECTED : Fld := ⟨0x6000, 5, 5⟩
def Fl.TIME_STATUS_REF_STATE : Fld := ⟨0x6000, 6, 7⟩
def Fl.TIME_STATUS_SLEWING : Fld := ⟨0x6000, 8, 8⟩
def Fl.TIME_STATUS_EPOCH_SAT : Fld := ⟨0x6000, 9, 9⟩
def Fl.TIME_STATUS_SERVO_CLAMP : Fld := ⟨0x6000, 10, 10⟩
def Fl.TIME_STATUS_CONV_VALID : Fld := ⟨0x6000, 11, 11⟩
def Fl.TIME_CTRL_SLOT_RUN : Fld := ⟨0x6004, 0, 0⟩
def Fl.TIME_CTRL_DISC : Fld := ⟨0x6004, 1, 2⟩
def Fl.TIME_CTRL_TIDE_SRC : Fld := ⟨0x6004, 3, 3⟩
def Fl.TIME_CTRL_SERVO_CLR : Fld := ⟨0x6004, 4, 4⟩
def Fl.TIME_CTRL_LOAD : Fld := ⟨0x6004, 5, 5⟩
def Fl.TIME_CTRL_SNAP : Fld := ⟨0x6004, 6, 6⟩
def Fl.TIME_SLEW_PPM : Fld := ⟨0x6018, 0, 8⟩
def Fl.TIME_SLOT_LEN_LEN : Fld := ⟨0x601C, 0, 16⟩
def Fl.TIME_CONV_CTRL_DIR : Fld := ⟨0x6060, 0, 0⟩
def Fl.TIME_CONV_CTRL_GO : Fld := ⟨0x6060, 31, 31⟩
def Fl.TIME_PPS_CFG_WINDOW_NS : Fld := ⟨0x6080, 0, 15⟩
def Fl.TIME_PPS_CFG_KP_SHIFT : Fld := ⟨0x6080, 16, 19⟩
def Fl.TIME_PPS_CFG_KI_SHIFT : Fld := ⟨0x6080, 20, 23⟩
def Fl.TIME_PPS_CFG_EDGE : Fld := ⟨0x6080, 24, 24⟩
def Fl.TIME_TIDE_CFG_PERIOD_MS : Fld := ⟨0x60A0, 0, 9⟩
def Fl.TIME_TIDE_CFG_DELAY_NS : Fld := ⟨0x60A0, 16, 31⟩
def Fl.TIME_CAPT_CFG_EDGE : Fld := ⟨0x60C0, 0, 1⟩
def Fl.TIME_CAPT_CFG_WINDOWED : Fld := ⟨0x60C0, 2, 2⟩
def Fl.TIME_CAPT_CFG_EVENT : Fld := ⟨0x60C0, 3, 3⟩
def Fl.TIME_CAPT_HI_NS_HI : Fld := ⟨0x60C8, 0, 15⟩
def Fl.TIME_CAPT_HI_RISING : Fld := ⟨0x60C8, 16, 16⟩
def Fl.TIME_CAPT_HI_VALID : Fld := ⟨0x60C8, 17, 17⟩
def Fl.TIME_CAPT_HI_DEPTH : Fld := ⟨0x60C8, 18, 22⟩
def Fl.TIME_TRIG_CFG_MODE : Fld := ⟨0x6100, 0, 1⟩
def Fl.TIME_TRIG_CFG_POL : Fld := ⟨0x6100, 2, 2⟩
def Fl.TIME_TRIG_CFG_OUT_EN : Fld := ⟨0x6100, 3, 3⟩
def Fl.TIME_TRIG_CFG_EVENT : Fld := ⟨0x6100, 4, 4⟩
def Fl.TIME_TRIG_CFG_WIN_EN : Fld := ⟨0x6100, 5, 5⟩
def Fl.TIME_TRIG_CFG_WIN_CAPT : Fld := ⟨0x6100, 6, 7⟩
def Fl.TIME_TRIG_SEL_L : Fld := ⟨0x6114, 0, 8⟩
def Fl.TIME_TRIG_SEL_O : Fld := ⟨0x6114, 9, 16⟩
def Fl.TIME_TRIG_SEL_MOD : Fld := ⟨0x6114, 17, 18⟩
def Fl.TIME_CNT_SAT_SAT : Fld := ⟨0x6250, 0, 3⟩
def Fl.BERTH_STATUS_BUSY : Fld := ⟨0x0, 0, 0⟩
def Fl.BERTH_STATUS_RX_ON : Fld := ⟨0x0, 1, 1⟩
def Fl.BERTH_STATUS_LO_LOCK : Fld := ⟨0x0, 2, 2⟩
def Fl.BERTH_STATUS_POST_DROP : Fld := ⟨0x0, 3, 3⟩
def Fl.BERTH_STATUS_PENDING : Fld := ⟨0x0, 4, 4⟩
def Fl.BERTH_STATUS_REJECTED : Fld := ⟨0x0, 5, 5⟩
def Fl.BERTH_STATUS_CAL_BUSY : Fld := ⟨0x0, 6, 6⟩
def Fl.BERTH_STATUS_CAL_VALID : Fld := ⟨0x0, 7, 7⟩
def Fl.BERTH_STATUS_CAL_FAIL : Fld := ⟨0x0, 8, 8⟩
def Fl.BERTH_STATUS_PLAN_ERR : Fld := ⟨0x0, 9, 9⟩
def Fl.BERTH_STATUS_TRACK_LIMIT : Fld := ⟨0x0, 10, 10⟩
def Fl.BERTH_STATUS_TX : Fld := ⟨0x0, 16, 31⟩
def Fl.BERTH_STATUS_TX_ON : Fld := ⟨0x0, 16, 16⟩
def Fl.BERTH_STATUS_TX_LOCK : Fld := ⟨0x0, 17, 17⟩
def Fl.BERTH_STATUS_BLANKED : Fld := ⟨0x0, 18, 18⟩
def Fl.BERTH_STATUS_SYN_CAL : Fld := ⟨0x0, 19, 19⟩
def Fl.BERTH_STATUS_MASK_TRIP : Fld := ⟨0x0, 20, 20⟩
def Fl.BERTH_STATUS_NO_PROFILE : Fld := ⟨0x0, 21, 21⟩
def Fl.BERTH_RX_CTRL_RX_EN : Fld := ⟨0x4, 0, 0⟩
def Fl.BERTH_RX_CTRL_AGC_MAN : Fld := ⟨0x4, 1, 1⟩
def Fl.BERTH_RX_CTRL_MAN_GAIN : Fld := ⟨0x4, 8, 13⟩
def Fl.BERTH_RX_PLAN_SPACING : Fld := ⟨0x8, 0, 1⟩
def Fl.BERTH_RX_PLAN_IBW : Fld := ⟨0x8, 2, 3⟩
def Fl.BERTH_RX_PLAN_SFD_SET : Fld := ⟨0x8, 4, 4⟩
def Fl.BERTH_RX_PLAN_FEC_RSC : Fld := ⟨0x8, 5, 5⟩
def Fl.BERTH_RX_PLAN_RSC_ILV : Fld := ⟨0x8, 6, 6⟩
def Fl.BERTH_RX_LO_KHZ : Fld := ⟨0xC, 0, 21⟩
def Fl.BERTH_RX_CF0_KHZ : Fld := ⟨0x10, 0, 21⟩
def Fl.BERTH_RX_DET_SFD_WIN : Fld := ⟨0x14, 0, 7⟩
def Fl.BERTH_RX_DET_CAPTURE_DB : Fld := ⟨0x14, 8, 11⟩
def Fl.BERTH_RX_DET_DET_DB : Fld := ⟨0x14, 12, 15⟩
def Fl.BERTH_RX_RSSI_OFS_OFS : Fld := ⟨0x18, 0, 15⟩
def Fl.BERTH_RX_AGC_CFG_TARGET_DB : Fld := ⟨0x1C, 0, 4⟩
def Fl.BERTH_RX_AGC_CFG_UP_STEPS : Fld := ⟨0x1C, 8, 10⟩
def Fl.BERTH_RX_AGC_CFG_CLIP_STEPS : Fld := ⟨0x1C, 12, 14⟩
def Fl.BERTH_RX_CAL_GO : Fld := ⟨0x20, 0, 0⟩
def Fl.BERTH_RX_AGC_GAIN : Fld := ⟨0x24, 0, 5⟩
def Fl.BERTH_RX_AGC_NEXT : Fld := ⟨0x24, 8, 13⟩
def Fl.BERTH_RX_AGC_PEAK : Fld := ⟨0x24, 16, 23⟩
def Fl.BERTH_RX_AGC_CLIP_LAST : Fld := ⟨0x24, 24, 24⟩
def Fl.BERTH_RX_TRACK_DC_RES : Fld := ⟨0x28, 0, 7⟩
def Fl.BERTH_RX_TRACK_IMAGE_REJ : Fld := ⟨0x28, 8, 15⟩
def Fl.BERTH_RX_FLOOR_SEL_ENTRY : Fld := ⟨0x2C, 0, 5⟩
def Fl.BERTH_RX_FLOOR_LEVEL : Fld := ⟨0x30, 0, 15⟩
def Fl.BERTH_RX_DEMODS_NOW : Fld := ⟨0x34, 0, 5⟩
def Fl.BERTH_RX_DEMODS_LAST_PEAK : Fld := ⟨0x34, 8, 13⟩
def Fl.BERTH_CNT_SAT_RX_SAT : Fld := ⟨0x7C, 0, 13⟩
def Fl.BERTH_CNT_SAT_TX_SAT : Fld := ⟨0x7C, 16, 31⟩
def Fl.BERTH_RX_CH_EN : Fld := ⟨0x100, 0, 0⟩
def Fl.BERTH_RX_CH_MODE : Fld := ⟨0x100, 1, 3⟩
def Fl.BERTH_RX_CH_FEC_ACCEPT : Fld := ⟨0x100, 4, 4⟩
def Fl.BERTH_RX_CH_CHAN : Fld := ⟨0x100, 8, 17⟩
def Fl.BERTH_RX_CH_BIN : Fld := ⟨0x100, 18, 24⟩
def Fl.BERTH_TX_CTRL_TX_EN : Fld := ⟨0x200, 0, 0⟩
def Fl.BERTH_TX_CFG_PREAMBLE : Fld := ⟨0x204, 0, 9⟩
def Fl.BERTH_TX_CFG_FCS4 : Fld := ⟨0x204, 10, 10⟩
def Fl.BERTH_TX_CFG_WHITEN : Fld := ⟨0x204, 11, 11⟩
def Fl.BERTH_TX_CFG_FEC : Fld := ⟨0x204, 12, 13⟩
def Fl.BERTH_TX_CFG_SFD_SET : Fld := ⟨0x204, 14, 14⟩
def Fl.BERTH_TX_CFG_RSC_ILV : Fld := ⟨0x204, 15, 15⟩
def Fl.BERTH_TX_CF0_KHZ : Fld := ⟨0x208, 0, 21⟩
def Fl.BERTH_TX_PWR_LEVEL : Fld := ⟨0x20C, 0, 15⟩
def Fl.BERTH_TX_RAMP_RAMP_US : Fld := ⟨0x210, 0, 5⟩
def Fl.BERTH_TX_FEM_PA_LEAD_US : Fld := ⟨0x21C, 0, 7⟩
def Fl.BERTH_TX_FEM_PA_LAG_US : Fld := ⟨0x21C, 8, 15⟩
def Fl.BERTH_TX_FEM_ANT_RX : Fld := ⟨0x21C, 16, 16⟩
def Fl.BERTH_TX_FEM_ANT_TX : Fld := ⟨0x21C, 17, 17⟩
def Fl.BERTH_TX_FEM_PA_POL : Fld := ⟨0x21C, 18, 18⟩
def Fl.BERTH_TX_FEM_LNA_POL : Fld := ⟨0x21C, 19, 19⟩
def Fl.BERTH_TX_SYN_CFG_RECAL_S : Fld := ⟨0x220, 0, 15⟩
def Fl.BERTH_TX_SYN_CFG_RECAL_DT : Fld := ⟨0x220, 16, 23⟩
def Fl.BERTH_TX_SYN_STATE_KHZ : Fld := ⟨0x224, 0, 21⟩
def Fl.BERTH_TX_SYN_STATE_VCO_BAND : Fld := ⟨0x224, 22, 27⟩
def Fl.BERTH_TX_MON_LIMIT_DBC : Fld := ⟨0x228, 0, 5⟩
def Fl.BERTH_TX_TAP_ADDR_ADDR : Fld := ⟨0x22C, 0, 8⟩
def Fl.BERTH_TX_TAP_DATA_TAP : Fld := ⟨0x230, 0, 15⟩
def Fl.BERTH_TX_MASK_KHZ : Fld := ⟨0x280, 0, 21⟩
def Fl.BERTH_TX_MASK_EN : Fld := ⟨0x280, 31, 31⟩
def Fl.BCOM_STATUS_BUSY : Fld := ⟨0x5C00, 0, 0⟩
def Fl.BCOM_STATUS_POST_DROP : Fld := ⟨0x5C00, 3, 3⟩
def Fl.BCOM_STATUS_PENDING : Fld := ⟨0x5C00, 4, 4⟩
def Fl.BCOM_STATUS_REJECTED : Fld := ⟨0x5C00, 5, 5⟩
def Fl.BCOM_STATUS_PROF_VALID : Fld := ⟨0x5C00, 8, 8⟩
def Fl.BCOM_STATUS_PROF_FUSED : Fld := ⟨0x5C00, 9, 9⟩
def Fl.BCOM_STATUS_PROF_CRC_ERR : Fld := ⟨0x5C00, 10, 10⟩
def Fl.BCOM_STATUS_FUSE_FAIL : Fld := ⟨0x5C00, 11, 11⟩
def Fl.BCOM_COEX_CFG_EN : Fld := ⟨0x5C04, 0, 0⟩
def Fl.BCOM_COEX_CFG_REQ_POL : Fld := ⟨0x5C04, 1, 1⟩
def Fl.BCOM_COEX_CFG_PRI_POL : Fld := ⟨0x5C04, 2, 2⟩
def Fl.BCOM_COEX_CFG_GNT_POL : Fld := ⟨0x5C04, 3, 3⟩
def Fl.BCOM_COEX_CFG_REVOKE_ABORT : Fld := ⟨0x5C04, 4, 4⟩
def Fl.BCOM_COEX_CFG_REQ_LEAD_US : Fld := ⟨0x5C04, 8, 17⟩
def Fl.BCOM_COEX_STATE_GROUP0 : Fld := ⟨0x5C0C, 0, 2⟩
def Fl.BCOM_COEX_STATE_GROUP1 : Fld := ⟨0x5C0C, 4, 6⟩
def Fl.BCOM_TX_MAXCONC_MAX : Fld := ⟨0x5C10, 0, 2⟩
def Fl.BCOM_COUPLE_LIMIT_DBM : Fld := ⟨0x5C14, 0, 7⟩
def Fl.BCOM_COUPLE_ISO : Fld := ⟨0x5C40, 0, 6⟩
def Fl.BCOM_COUPLE_ACTION : Fld := ⟨0x5C40, 8, 9⟩
def Fl.BCOM_DUTY_RESV_RESV : Fld := ⟨0x5D04, 0, 13⟩
def Fl.BCOM_PROF_CTRL_FUSE : Fld := ⟨0x5D40, 31, 31⟩
def Fl.BCOM_CNT_SAT_SET_CLIP : Fld := ⟨0x5D48, 0, 0⟩
def Fl.MAC_STATUS_BUSY : Fld := ⟨0x6400, 0, 0⟩
def Fl.MAC_STATUS_MESH_ON : Fld := ⟨0x6400, 1, 1⟩
def Fl.MAC_STATUS_POST_DROP : Fld := ⟨0x6400, 3, 3⟩
def Fl.MAC_STATUS_PENDING : Fld := ⟨0x6400, 4, 4⟩
def Fl.MAC_STATUS_REJECTED : Fld := ⟨0x6400, 5, 5⟩
def Fl.MAC_STATUS_APPLY_ERR : Fld := ⟨0x6400, 6, 6⟩
def Fl.MAC_STATUS_EB_STARVE : Fld := ⟨0x6400, 8, 13⟩
def Fl.MAC_CTRL_MESH_EN : Fld := ⟨0x6404, 0, 0⟩
def Fl.MAC_CTRL_QT_EB : Fld := ⟨0x6404, 1, 1⟩
def Fl.MAC_CTRL_QT_ACK : Fld := ⟨0x6404, 2, 2⟩
def Fl.MAC_CTRL_QT_BA : Fld := ⟨0x6404, 3, 3⟩
def Fl.MAC_CTRL_RX_UNSEC : Fld := ⟨0x6404, 4, 4⟩
def Fl.MAC_CTRL_EB_SEC : Fld := ⟨0x6404, 8, 10⟩
def Fl.MAC_CTRL_BA_SEC : Fld := ⟨0x6404, 12, 14⟩
def Fl.MAC_PAN_PAN_ID : Fld := ⟨0x6408, 0, 15⟩
def Fl.MAC_PAN_SHORT : Fld := ⟨0x6408, 16, 31⟩
def Fl.MAC_EB_CFG_PERIOD : Fld := ⟨0x6440, 0, 15⟩
def Fl.MAC_EB_CFG_BERTHS : Fld := ⟨0x6440, 16, 21⟩
def Fl.MAC_EB_CFG_HOP_FULL : Fld := ⟨0x6440, 22, 22⟩
def Fl.MAC_BA_CFG_PERIOD : Fld := ⟨0x6444, 0, 5⟩
def Fl.MAC_BA_CFG_CHOFS : Fld := ⟨0x6444, 8, 15⟩
def Fl.MAC_BA_CFG_BERTH_SUB : Fld := ⟨0x6444, 16, 18⟩
def Fl.MAC_BA_CFG_BERTH_24 : Fld := ⟨0x6444, 20, 22⟩
def Fl.MAC_BA_CFG_MODE : Fld := ⟨0x6444, 24, 26⟩
def Fl.MAC_DRIFT_CFG_SHIFT : Fld := ⟨0x6448, 0, 3⟩
def Fl.MAC_DRIFT_CFG_MAX_PPM : Fld := ⟨0x6448, 8, 15⟩
def Fl.MAC_DRIFT_CFG_GUARD_US : Fld := ⟨0x6448, 16, 26⟩
def Fl.MAC_NBR_CFG_LOST_MISSES : Fld := ⟨0x644C, 0, 3⟩
def Fl.MAC_NBR_CFG_DUP_SLOTS : Fld := ⟨0x644C, 8, 15⟩
def Fl.MAC_TX_CFG_MAX_RETRIES : Fld := ⟨0x6450, 0, 3⟩
def Fl.MAC_TX_CFG_MIN_BE : Fld := ⟨0x6450, 4, 6⟩
def Fl.MAC_TX_CFG_MAX_BE : Fld := ⟨0x6450, 8, 10⟩
def Fl.MAC_TX_CFG_DEFER_MAX : Fld := ⟨0x6450, 16, 31⟩
def Fl.MAC_POLICY_WIDE_MAX_CLASS : Fld := ⟨0x6454, 0, 2⟩
def Fl.MAC_POLICY_RXCELL_MAX_CLASS : Fld := ⟨0x6454, 4, 6⟩
def Fl.MAC_AUTO_CFG_EN : Fld := ⟨0x6458, 0, 0⟩
def Fl.MAC_AUTO_CFG_SF : Fld := ⟨0x6458, 4, 7⟩
def Fl.MAC_COMMIT_GO : Fld := ⟨0x645C, 0, 0⟩
def Fl.MAC_CELL_ADDR_INDEX : Fld := ⟨0x6460, 0, 11⟩
def Fl.MAC_CELL_ADDR_SRC : Fld := ⟨0x6460, 16, 16⟩
def Fl.MAC_CELL_DATA0_SLOT_OFS : Fld := ⟨0x6464, 0, 15⟩
def Fl.MAC_CELL_DATA0_CH_OFS : Fld := ⟨0x6464, 16, 23⟩
def Fl.MAC_CELL_DATA0_SF : Fld := ⟨0x6464, 24, 27⟩
def Fl.MAC_CELL_DATA0_VALID : Fld := ⟨0x6464, 28, 28⟩
def Fl.MAC_CELL_DATA1_OPTIONS : Fld := ⟨0x6468, 0, 8⟩
def Fl.MAC_CELL_DATA1_NBR : Fld := ⟨0x6468, 16, 29⟩
def Fl.MAC_HOP_ADDR_INDEX : Fld := ⟨0x646C, 0, 7⟩
def Fl.MAC_HOP_ADDR_SEQ : Fld := ⟨0x646C, 8, 8⟩
def Fl.MAC_HOP_ADDR_SRC : Fld := ⟨0x646C, 16, 16⟩
def Fl.MAC_HOP_DATA_CHAN : Fld := ⟨0x6470, 0, 9⟩
def Fl.MAC_NBR_SEL_HANDLE : Fld := ⟨0x6474, 0, 13⟩
def Fl.MAC_NBR_DRIFT_D : Fld := ⟨0x6478, 0, 15⟩
def Fl.MAC_NBR_DRIFT_HELD : Fld := ⟨0x6478, 16, 16⟩
def Fl.MAC_NBR_DRIFT_LOST : Fld := ⟨0x6478, 17, 17⟩
def Fl.MAC_SF_CFG_EN : Fld := ⟨0x6480, 0, 0⟩
def Fl.MAC_SF_CFG_ADV : Fld := ⟨0x6480, 1, 1⟩
def Fl.MAC_SF_CFG_HOPSEQ : Fld := ⟨0x6480, 2, 2⟩
def Fl.MAC_SF_CFG_BERTHS : Fld := ⟨0x6480, 4, 9⟩
def Fl.MAC_SF_CFG_BMODE : Fld := ⟨0x6480, 10, 12⟩
def Fl.MAC_SF_CFG_LEN : Fld := ⟨0x6480, 16, 31⟩
def Fl.MAC_HOP_CFG_LEN : Fld := ⟨0x64C0, 0, 8⟩
def Fl.MAC_HOP_CFG_SEQ_ID : Fld := ⟨0x64C0, 16, 31⟩
def Fl.MAC_CNT_SAT_SAT : Fld := ⟨0x654C, 0, 18⟩
def Fl.TBL_STATUS_BUSY : Fld := ⟨0x1000, 0, 0⟩
def Fl.TBL_STATUS_DONE : Fld := ⟨0x1000, 1, 1⟩
def Fl.TBL_STATUS_POST_DROP : Fld := ⟨0x1000, 3, 3⟩
def Fl.TBL_STATUS_PENDING : Fld := ⟨0x1000, 4, 4⟩
def Fl.TBL_STATUS_REJECTED : Fld := ⟨0x1000, 5, 5⟩
def Fl.TBL_STATUS_CODE : Fld := ⟨0x1000, 8, 15⟩
def Fl.TBL_STATUS_HOLDER : Fld := ⟨0x1000, 16, 18⟩
def Fl.TBL_CMD_OP : Fld := ⟨0x1004, 0, 3⟩
def Fl.TBL_CMD_TABLE : Fld := ⟨0x1004, 4, 4⟩
def Fl.TBL_CMD_WMASK : Fld := ⟨0x1004, 8, 15⟩
def Fl.TBL_CMD_GO : Fld := ⟨0x1004, 31, 31⟩
def Fl.TBL_INFO_RELOC : Fld := ⟨0x1014, 0, 6⟩
def Fl.TBL_INFO_LOCKS : Fld := ⟨0x1014, 8, 11⟩
def Fl.ROUTE_STATUS_BUSY : Fld := ⟨0x6800, 0, 0⟩
def Fl.ROUTE_STATUS_REPAIR : Fld := ⟨0x6800, 1, 1⟩
def Fl.ROUTE_STATUS_WALK_BUSY : Fld := ⟨0x6800, 2, 2⟩
def Fl.ROUTE_STATUS_POST_DROP : Fld := ⟨0x6800, 3, 3⟩
def Fl.ROUTE_STATUS_PENDING : Fld := ⟨0x6800, 4, 4⟩
def Fl.ROUTE_STATUS_REJECTED : Fld := ⟨0x6800, 5, 5⟩
def Fl.ROUTE_STATUS_RPL_ON : Fld := ⟨0x6800, 6, 6⟩
def Fl.ROUTE_CTRL_RPL_EN : Fld := ⟨0x6804, 0, 0⟩
def Fl.ROUTE_CTRL_SHORT_EN : Fld := ⟨0x6804, 1, 1⟩
def Fl.ROUTE_CTRL_DAO_ACK : Fld := ⟨0x6804, 2, 2⟩
def Fl.ROUTE_CTRL_VERSION_INC : Fld := ⟨0x6804, 3, 3⟩
def Fl.ROUTE_CTRL_DTSN_INC : Fld := ⟨0x6804, 4, 4⟩
def Fl.ROUTE_CFG_MAX_BACKTRACK : Fld := ⟨0x6808, 0, 1⟩
def Fl.ROUTE_CFG_SHORTCUT_LQM : Fld := ⟨0x6808, 8, 15⟩
def Fl.ROUTE_CFG_HYST : Fld := ⟨0x6808, 16, 23⟩
def Fl.ROUTE_CFG_DEF_TENANT : Fld := ⟨0x6808, 24, 26⟩
def Fl.ROUTE_NBR_CFG_AGE_S : Fld := ⟨0x680C, 0, 15⟩
def Fl.ROUTE_NBR_CFG_LQM_SHIFT : Fld := ⟨0x680C, 16, 19⟩
def Fl.ROUTE_NBR_CFG_MISS_PENALTY : Fld := ⟨0x680C, 24, 31⟩
def Fl.ROUTE_TBL_CFG_LOCK_MS : Fld := ⟨0x6810, 0, 9⟩
def Fl.ROUTE_RPL_INST_INSTANCE : Fld := ⟨0x6814, 0, 7⟩
def Fl.ROUTE_RPL_INST_VERSION : Fld := ⟨0x6814, 8, 15⟩
def Fl.ROUTE_RPL_INST_MIN_HOP_RANK_INC : Fld := ⟨0x6814, 16, 31⟩
def Fl.ROUTE_RPL_TRICKLE_IMIN : Fld := ⟨0x6818, 0, 4⟩
def Fl.ROUTE_RPL_TRICKLE_DOUBLINGS : Fld := ⟨0x6818, 8, 11⟩
def Fl.ROUTE_RPL_TRICKLE_REDUNDANCY : Fld := ⟨0x6818, 16, 23⟩
def Fl.ROUTE_RPL_TRICKLE_DTSN : Fld := ⟨0x6818, 24, 31⟩
def Fl.ROUTE_RPL_LIFE_DEF_LIFETIME : Fld := ⟨0x681C, 0, 7⟩
def Fl.ROUTE_RPL_LIFE_UNIT : Fld := ⟨0x681C, 16, 31⟩
def Fl.ROUTE_STRAY_USED : Fld := ⟨0x6854, 0, 6⟩
def Fl.ROUTE_WALK_CTRL_HANDLE : Fld := ⟨0x6860, 0, 17⟩
def Fl.ROUTE_WALK_CTRL_GO : Fld := ⟨0x6860, 31, 31⟩
def Fl.ROUTE_WALK_RESULT_STATUS : Fld := ⟨0x6864, 0, 2⟩
def Fl.ROUTE_WALK_RESULT_HOPS : Fld := ⟨0x6864, 8, 12⟩
def Fl.ROUTE_WALK_RESULT_BACKTRACKS : Fld := ⟨0x6864, 16, 17⟩
def Fl.ROUTE_WALK_RESULT_FIRST_NBR : Fld := ⟨0x6864, 18, 31⟩
def Fl.ROUTE_CNT_SAT_SAT : Fld := ⟨0x6938, 0, 13⟩
def Fl.SVC_STATUS_BUSY : Fld := ⟨0x6C00, 0, 0⟩
def Fl.SVC_STATUS_SVC_ON : Fld := ⟨0x6C00, 1, 1⟩
def Fl.SVC_STATUS_POST_DROP : Fld := ⟨0x6C00, 3, 3⟩
def Fl.SVC_STATUS_PENDING : Fld := ⟨0x6C00, 4, 4⟩
def Fl.SVC_STATUS_REJECTED : Fld := ⟨0x6C00, 5, 5⟩
def Fl.SVC_CTRL_EN : Fld := ⟨0x6C04, 0, 0⟩
def Fl.SVC_CTRL_UP_REQUIRE_SEAL : Fld := ⟨0x6C04, 1, 1⟩
def Fl.SVC_CTRL_ECHO_EN : Fld := ⟨0x6C04, 2, 2⟩
def Fl.SVC_COAP_CFG_ACK_TIMEOUT_MS : Fld := ⟨0x6C08, 0, 15⟩
def Fl.SVC_COAP_CFG_MAX_RETX : Fld := ⟨0x6C08, 16, 19⟩
def Fl.SVC_COAP_WAIT_RESP_WAIT_S : Fld := ⟨0x6C0C, 0, 11⟩
def Fl.SVC_PORT_LOCAL : Fld := ⟨0x6C10, 0, 15⟩
def Fl.SVC_PORT_NODE : Fld := ⟨0x6C10, 16, 31⟩
def Fl.SVC_TIMED_CFG_LEAD_SLOTS : Fld := ⟨0x6C14, 0, 15⟩
def Fl.SVC_TIMED_CFG_GUARD_SLOTS : Fld := ⟨0x6C14, 16, 23⟩
def Fl.SVC_SEAL_CFG_MOULD : Fld := ⟨0x6C18, 0, 3⟩
def Fl.SVC_UP_CFG_ACK_CODE : Fld := ⟨0x6C1C, 0, 7⟩
def Fl.SVC_UP_CFG_DEF_FN : Fld := ⟨0x6C1C, 8, 10⟩
def Fl.SVC_UP_CFG_WAIT_MS : Fld := ⟨0x6C1C, 16, 31⟩
def Fl.SVC_GROUP_CFG_FANOUT_MAX : Fld := ⟨0x6C20, 0, 17⟩
def Fl.SVC_GROUP_CFG_FANOUT_OUTSTANDING : Fld := ⟨0x6C20, 20, 31⟩
def Fl.SVC_MPL_CFG_IMIN : Fld := ⟨0x6C24, 0, 4⟩
def Fl.SVC_MPL_CFG_DOUBLINGS : Fld := ⟨0x6C24, 8, 11⟩
def Fl.SVC_MPL_CFG_K : Fld := ⟨0x6C24, 16, 19⟩
def Fl.SVC_MPL_CFG_EXPIRATIONS : Fld := ⟨0x6C24, 24, 27⟩
def Fl.SVC_RAW_CFG_RX_MODE : Fld := ⟨0x6C28, 0, 1⟩
def Fl.SVC_GROUP_SEL_GROUP : Fld := ⟨0x6C2C, 0, 11⟩
def Fl.SVC_GROUP_INFO_MEMBERS : Fld := ⟨0x6C30, 0, 17⟩
def Fl.SVC_GROUP_INFO_OWNER : Fld := ⟨0x6C30, 24, 26⟩
def Fl.SVC_MID_NEXT_MID : Fld := ⟨0x6C34, 0, 15⟩
def Fl.SVC_FRAG_TAG : Fld := ⟨0x6C38, 0, 15⟩
def Fl.SVC_FRAG_MPL_SEQ : Fld := ⟨0x6C38, 16, 23⟩
def Fl.SVC_USAGE_TXN_USED : Fld := ⟨0x6C3C, 0, 16⟩
def Fl.SVC_USAGE_REASM_USED : Fld := ⟨0x6C3C, 17, 29⟩
def Fl.SVC_CNT_SAT_SAT : Fld := ⟨0x6CD8, 0, 21⟩
def Fl.RING_STATUS_BUSY : Fld := ⟨0x100, 0, 0⟩
def Fl.RING_STATUS_POST_DROP : Fld := ⟨0x100, 3, 3⟩
def Fl.RING_STATUS_PENDING : Fld := ⟨0x100, 4, 4⟩
def Fl.RING_STATUS_REJECTED : Fld := ⟨0x100, 5, 5⟩
def Fl.RING_STATUS_QUIESCED : Fld := ⟨0x100, 6, 6⟩
def Fl.RING_STATUS_PAUSED : Fld := ⟨0x100, 7, 7⟩
def Fl.RING_STATUS_FAULTED : Fld := ⟨0x100, 8, 8⟩
def Fl.RING_STATUS_LOST : Fld := ⟨0x100, 9, 9⟩
def Fl.RING_STATUS_HELD : Fld := ⟨0x100, 16, 26⟩
def Fl.RING_FN_CTRL_LIVE_MS : Fld := ⟨0x104, 0, 15⟩
def Fl.RING_POLL_US : Fld := ⟨0x10C, 0, 9⟩
def Fl.RING_DB_LO_VALID : Fld := ⟨0x110, 0, 0⟩
def Fl.RING_DB_LO_ADDR : Fld := ⟨0x110, 6, 31⟩
def Fl.RING_SB_LO_VALID : Fld := ⟨0x118, 0, 0⟩
def Fl.RING_SB_LO_ADDR : Fld := ⟨0x118, 6, 31⟩
def Fl.RING_ERR_RINGS : Fld := ⟨0x124, 0, 7⟩
def Fl.RING_ERR_CAUSE : Fld := ⟨0x124, 8, 11⟩
def Fl.RING_BASE_LO_ADDR : Fld := ⟨0x200, 6, 31⟩
def Fl.RING_SIZE_LOG2 : Fld := ⟨0x208, 0, 4⟩
def Fl.RING_CTRL_EN : Fld := ⟨0x20C, 0, 0⟩
def Fl.RING_CTRL_FLUSH : Fld := ⟨0x20C, 1, 1⟩
def Fl.RING_CTRL_DROP : Fld := ⟨0x20C, 2, 2⟩
def Fl.RING_CTRL_ON : Fld := ⟨0x20C, 3, 3⟩
def Fl.RING_MOD_VEC : Fld := ⟨0x218, 0, 3⟩
def Fl.RING_MOD_IRQ_EN : Fld := ⟨0x218, 4, 4⟩
def Fl.RING_MOD_COUNT : Fld := ⟨0x218, 8, 15⟩
def Fl.RING_MOD_TIME_US : Fld := ⟨0x218, 16, 31⟩
def Fl.RING_CNT_SAT_SAT : Fld := ⟨0x318, 0, 5⟩
def Fl.RING_GRANT_BLOCKS : Fld := ⟨0x700, 0, 20⟩
def Fl.RING_STEV_CFG_BULK_MAX : Fld := ⟨0x720, 0, 3⟩
def Fl.RING_STEV_CFG_PREEMPT_EN : Fld := ⟨0x720, 4, 4⟩
def Fl.RING_STEV_STATE_STEV_0 : Fld := ⟨0x724, 0, 3⟩
def Fl.RING_STEV_STATE_STEV_1 : Fld := ⟨0x724, 4, 7⟩
def Fl.RING_STEV_STATE_STEV_2 : Fld := ⟨0x724, 8, 11⟩
def Fl.RING_STEV_STATE_STEV_3 : Fld := ⟨0x724, 12, 15⟩
def Fl.RING_STEV_STATE_STEV_4 : Fld := ⟨0x724, 16, 19⟩
def Fl.RING_STEV_STATE_STEV_5 : Fld := ⟨0x724, 20, 23⟩
def Fl.RING_STEV_STATE_STEV_6 : Fld := ⟨0x724, 24, 27⟩
def Fl.RING_STEV_STATE_STEV_7 : Fld := ⟨0x724, 28, 31⟩
def Fl.RING_FN_STATE_FN_0 : Fld := ⟨0x728, 0, 3⟩
def Fl.RING_FN_STATE_FN_1 : Fld := ⟨0x728, 4, 7⟩
def Fl.RING_FN_STATE_FN_2 : Fld := ⟨0x728, 8, 11⟩
def Fl.RING_FN_STATE_FN_3 : Fld := ⟨0x728, 12, 15⟩
def Fl.RING_FN_STATE_FN_4 : Fld := ⟨0x728, 16, 19⟩
def Fl.RING_FN_STATE_FN_5 : Fld := ⟨0x728, 20, 23⟩
def Fl.RING_FN_STATE_FN_6 : Fld := ⟨0x728, 24, 27⟩
def Fl.RING_FN_STATE_FN_7 : Fld := ⟨0x728, 28, 31⟩
def Fl.XLATE_STATUS_BUSY : Fld := ⟨0x800, 0, 0⟩
def Fl.XLATE_STATUS_POST_DROP : Fld := ⟨0x800, 3, 3⟩
def Fl.XLATE_STATUS_PENDING : Fld := ⟨0x800, 4, 4⟩
def Fl.XLATE_STATUS_REJECTED : Fld := ⟨0x800, 5, 5⟩
def Fl.XLATE_STATUS_ATS_ON : Fld := ⟨0x800, 6, 6⟩
def Fl.XLATE_STATUS_PRI_ON : Fld := ⟨0x800, 7, 7⟩
def Fl.XLATE_STATUS_VALID : Fld := ⟨0x800, 8, 23⟩
def Fl.XLATE_CTRL_PRI_AUTO : Fld := ⟨0x804, 0, 0⟩
def Fl.XLATE_CTRL_PRI_TIMEOUT_MS : Fld := ⟨0x804, 16, 31⟩
def Fl.XLATE_INV_GO : Fld := ⟨0x808, 0, 0⟩
def Fl.XLATE_CNT_SAT_SAT : Fld := ⟨0x854, 0, 4⟩
def Fl.XLATE_FAULT_INFO_VALID : Fld := ⟨0x900, 0, 0⟩
def Fl.XLATE_FAULT_INFO_AUTO : Fld := ⟨0x900, 1, 1⟩
def Fl.XLATE_FAULT_INFO_SITE : Fld := ⟨0x900, 2, 4⟩
def Fl.XLATE_FAULT_INFO_KIND : Fld := ⟨0x900, 5, 7⟩
def Fl.XLATE_FAULT_INFO_RING : Fld := ⟨0x900, 8, 10⟩
def Fl.XLATE_FAULT_INFO_WRITE : Fld := ⟨0x900, 11, 11⟩
def Fl.CAMP_STATUS_BUSY : Fld := ⟨0x6E00, 0, 0⟩
def Fl.CAMP_STATUS_POST_DROP : Fld := ⟨0x6E00, 3, 3⟩
def Fl.CAMP_STATUS_PENDING : Fld := ⟨0x6E00, 4, 4⟩
def Fl.CAMP_STATUS_REJECTED : Fld := ⟨0x6E00, 5, 5⟩
def Fl.CAMP_STATUS_ENC_FENCED : Fld := ⟨0x6E00, 6, 6⟩
def Fl.CAMP_STATUS_ACTIVE : Fld := ⟨0x6E00, 8, 12⟩
def Fl.CAMP_CFG_BERTHS : Fld := ⟨0x6E04, 0, 5⟩
def Fl.CAMP_CFG_SEC : Fld := ⟨0x6E04, 8, 10⟩
def Fl.CAMP_CFG_HOPS : Fld := ⟨0x6E04, 12, 15⟩
def Fl.CAMP_CFG_SYMS_MAX : Fld := ⟨0x6E04, 16, 21⟩
def Fl.CAMP_CFG_QUEUED : Fld := ⟨0x6E04, 24, 27⟩
def Fl.CAMP_SCHED_VISIT_FRAMES : Fld := ⟨0x6E08, 0, 15⟩
def Fl.CAMP_SCHED_CKPT_S : Fld := ⟨0x6E08, 16, 31⟩
def Fl.CAMP_STRIDE_STRIDE : Fld := ⟨0x6E0C, 0, 23⟩
def Fl.CAMP_SEL_ID : Fld := ⟨0x6E10, 0, 7⟩
def Fl.CAMP_SEL_SBN : Fld := ⟨0x6E10, 8, 15⟩
def Fl.CAMP_V_STATE_STATE : Fld := ⟨0x6E20, 0, 2⟩
def Fl.CAMP_V_STATE_OWNER : Fld := ⟨0x6E20, 4, 6⟩
def Fl.CAMP_V_STATE_ZM1 : Fld := ⟨0x6E20, 8, 15⟩
def Fl.CAMP_V_STATE_END_REASON : Fld := ⟨0x6E20, 16, 23⟩
def Fl.CAMP_BLK_STATE_NEXT_ESI : Fld := ⟨0x6E40, 0, 23⟩
def Fl.CAMP_BLK_STATE_RETIRED : Fld := ⟨0x6E40, 24, 24⟩
def Fl.CAMP_BLK_STATE_EXHAUSTED : Fld := ⟨0x6E40, 25, 25⟩
def Fl.CAMP_BLK_LIMIT_LIMIT : Fld := ⟨0x6E44, 0, 23⟩
def Fl.CAMP_BLK_K_K : Fld := ⟨0x6E48, 0, 13⟩
def Fl.CAMP_CNT_SAT_SAT : Fld := ⟨0x6EA0, 0, 7⟩
def Fl.KEY_STATUS_BUSY : Fld := ⟨0x7000, 0, 0⟩
def Fl.KEY_STATUS_POST_DROP : Fld := ⟨0x7000, 3, 3⟩
def Fl.KEY_STATUS_PENDING : Fld := ⟨0x7000, 4, 4⟩
def Fl.KEY_STATUS_REJECTED : Fld := ⟨0x7000, 5, 5⟩
def Fl.KEY_STATUS_ENTROPY_FAIL : Fld := ⟨0x7000, 6, 6⟩
def Fl.KEY_STATUS_DRBG_BLOCKED : Fld := ⟨0x7000, 7, 7⟩
def Fl.KEY_MOULD_CTRL_SLOT : Fld := ⟨0x7014, 0, 3⟩
def Fl.KEY_MOULD_CTRL_USE : Fld := ⟨0x7014, 4, 5⟩
def Fl.KEY_MOULD_CTRL_OP : Fld := ⟨0x7014, 8, 10⟩
def Fl.KEY_MOULD_CTRL_GO : Fld := ⟨0x7014, 31, 31⟩
def Fl.KEY_GRACE_GRACE_S : Fld := ⟨0x7018, 0, 15⟩
def Fl.KEY_LINK_CFG_SLOT : Fld := ⟨0x701C, 0, 3⟩
def Fl.KEY_LINK_CFG_LEVEL : Fld := ⟨0x701C, 4, 6⟩
def Fl.KEY_LINK_CFG_BCAST_LEVEL : Fld := ⟨0x701C, 8, 10⟩
def Fl.KEY_BCAST_CFG_SLOT_0 : Fld := ⟨0x7020, 0, 3⟩
def Fl.KEY_BCAST_CFG_SLOT_1 : Fld := ⟨0x7020, 4, 7⟩
def Fl.KEY_BCAST_CFG_SLOT_2 : Fld := ⟨0x7020, 8, 11⟩
def Fl.KEY_BCAST_CFG_SLOT_3 : Fld := ⟨0x7020, 12, 15⟩
def Fl.KEY_BCAST_CFG_SLOT_4 : Fld := ⟨0x7020, 16, 19⟩
def Fl.KEY_BCAST_CFG_SLOT_5 : Fld := ⟨0x7020, 20, 23⟩
def Fl.KEY_BCAST_CFG_EN_0 : Fld := ⟨0x7020, 24, 24⟩
def Fl.KEY_BCAST_CFG_EN_1 : Fld := ⟨0x7020, 25, 25⟩
def Fl.KEY_BCAST_CFG_EN_2 : Fld := ⟨0x7020, 26, 26⟩
def Fl.KEY_BCAST_CFG_EN_3 : Fld := ⟨0x7020, 27, 27⟩
def Fl.KEY_BCAST_CFG_EN_4 : Fld := ⟨0x7020, 28, 28⟩
def Fl.KEY_BCAST_CFG_EN_5 : Fld := ⟨0x7020, 29, 29⟩
def Fl.KEY_DRBG_CFG_RESEED_S : Fld := ⟨0x7024, 0, 11⟩
def Fl.KEY_SLOT_SEL_SLOT : Fld := ⟨0x7028, 0, 3⟩
def Fl.KEY_SLOT_STATE_STATE : Fld := ⟨0x702C, 0, 1⟩
def Fl.KEY_SLOT_STATE_USE : Fld := ⟨0x702C, 2, 3⟩
def Fl.KEY_SLOT_STATE_PRIOR : Fld := ⟨0x702C, 4, 4⟩
def Fl.KEY_SLOT_STATE_VERSION : Fld := ⟨0x702C, 8, 15⟩
def Fl.KEY_SLOT_STATE_GRACE_LEFT_S : Fld := ⟨0x702C, 16, 31⟩
def Fl.KEY_SLOTS_ACTIVE : Fld := ⟨0x7030, 0, 15⟩
def Fl.KEY_SLOTS_PRIOR : Fld := ⟨0x7030, 16, 31⟩
def Fl.KEY_CACHE_USED : Fld := ⟨0x7034, 0, 12⟩
def Fl.KEY_CACHE_PINNED : Fld := ⟨0x7034, 16, 26⟩
def Fl.KEY_NODE_GEN_HANDLE : Fld := ⟨0x7038, 0, 17⟩
def Fl.KEY_NODE_GEN_GO : Fld := ⟨0x7038, 31, 31⟩
def Fl.KEY_CNT_SAT_SAT : Fld := ⟨0x7068, 0, 9⟩
def Fl.PLINTH_STATUS_BUSY : Fld := ⟨0x7400, 0, 0⟩
def Fl.PLINTH_STATUS_POST_DROP : Fld := ⟨0x7400, 3, 3⟩
def Fl.PLINTH_STATUS_PENDING : Fld := ⟨0x7400, 4, 4⟩
def Fl.PLINTH_STATUS_REJECTED : Fld := ⟨0x7400, 5, 5⟩
def Fl.PLINTH_STATUS_ROOT_VALID : Fld := ⟨0x7400, 6, 6⟩
def Fl.PLINTH_STATUS_SCUTTLED : Fld := ⟨0x7400, 7, 7⟩
def Fl.PLINTH_STATUS_ID_VALID : Fld := ⟨0x7400, 8, 8⟩
def Fl.PLINTH_STATUS_VBAT_LOW : Fld := ⟨0x7400, 9, 9⟩
def Fl.PLINTH_STATUS_IMGKEYS : Fld := ⟨0x7400, 10, 12⟩
def Fl.PLINTH_STATUS_IMGKEY_OK : Fld := ⟨0x7400, 13, 13⟩
def Fl.PLINTH_TAMPER_CFG_MESH0 : Fld := ⟨0x7404, 0, 1⟩
def Fl.PLINTH_TAMPER_CFG_MESH1 : Fld := ⟨0x7404, 2, 3⟩
def Fl.PLINTH_TAMPER_CFG_SW : Fld := ⟨0x7404, 4, 5⟩
def Fl.PLINTH_TAMPER_CFG_VLOW : Fld := ⟨0x7404, 6, 7⟩
def Fl.PLINTH_TAMPER_CFG_FILTER : Fld := ⟨0x7404, 8, 11⟩
def Fl.PLINTH_TAMPER_CFG_LOCK : Fld := ⟨0x7404, 31, 31⟩
def Fl.PLINTH_TAMPER_SEEN_SRC : Fld := ⟨0x7408, 0, 3⟩
def Fl.PLINTH_TAMPER_SEEN_HOST : Fld := ⟨0x7408, 4, 4⟩
def Fl.PLINTH_TAMPER_NOW_SRC : Fld := ⟨0x740C, 0, 3⟩
def Fl.PLINTH_SCUTTLE_CONFIRM : Fld := ⟨0x7410, 0, 15⟩
def Fl.PLINTH_SCUTTLE_GO : Fld := ⟨0x7410, 31, 31⟩
def Fl.PLINTH_SCUTTLE_INFO_CAUSE : Fld := ⟨0x7414, 0, 3⟩
def Fl.PLINTH_SCUTTLE_INFO_COUNT : Fld := ⟨0x7414, 8, 15⟩
def Fl.PLINTH_PROV_CTRL_OP : Fld := ⟨0x7418, 0, 2⟩
def Fl.PLINTH_PROV_CTRL_GO : Fld := ⟨0x7418, 31, 31⟩
def Fl.PLINTH_PROV_STATUS_RESULT : Fld := ⟨0x741C, 0, 1⟩
def Fl.PLINTH_PROV_STATUS_OP : Fld := ⟨0x741C, 4, 6⟩
def Fl.HOLD_STATUS_BUSY : Fld := ⟨0x7800, 0, 0⟩
def Fl.HOLD_STATUS_POST_DROP : Fld := ⟨0x7800, 3, 3⟩
def Fl.HOLD_STATUS_PENDING : Fld := ⟨0x7800, 4, 4⟩
def Fl.HOLD_STATUS_REJECTED : Fld := ⟨0x7800, 5, 5⟩
def Fl.HOLD_STATUS_SELFTEST_OK : Fld := ⟨0x7800, 6, 6⟩
def Fl.HOLD_STATUS_LOG_FULL : Fld := ⟨0x7800, 7, 7⟩
def Fl.HOLD_CE_CFG_RATE : Fld := ⟨0x7804, 0, 15⟩
def Fl.HOLD_CUT_CFG_THRESHOLD : Fld := ⟨0x7808, 0, 11⟩
def Fl.HOLD_FLUSH_CFG_WAIT_US : Fld := ⟨0x780C, 0, 13⟩
def Fl.HOLD_POOL_CFG_RESV : Fld := ⟨0x7810, 0, 15⟩
def Fl.HOLD_POOL_CFG_WARN : Fld := ⟨0x7810, 16, 31⟩
def Fl.HOLD_POOL_FREE : Fld := ⟨0x7814, 0, 15⟩
def Fl.HOLD_POOL_LOW_WATER : Fld := ⟨0x7814, 16, 31⟩
def Fl.HOLD_SELFTEST_BANKS : Fld := ⟨0x7818, 0, 15⟩
def Fl.HOLD_SELFTEST_PILOTS : Fld := ⟨0x7818, 16, 19⟩
def Fl.HOLD_SELFTEST_DONE : Fld := ⟨0x7818, 31, 31⟩
def Fl.HOLD_LAST_UE_LOC_LOC : Fld := ⟨0x781C, 0, 25⟩
def Fl.HOLD_LAST_UE_INFO_CLASS : Fld := ⟨0x7820, 0, 1⟩
def Fl.HOLD_LAST_UE_INFO_PATH : Fld := ⟨0x7820, 4, 7⟩
def Fl.HOLD_QCMD_QID : Fld := ⟨0x7824, 0, 6⟩
def Fl.HOLD_QCMD_OP : Fld := ⟨0x7824, 8, 9⟩
def Fl.HOLD_QCMD_GO : Fld := ⟨0x7824, 31, 31⟩
def Fl.HOLD_QSEL_QID : Fld := ⟨0x7828, 0, 6⟩
def Fl.HOLD_QSTATE_ITEMS : Fld := ⟨0x782C, 0, 15⟩
def Fl.HOLD_QSTATE_CELLS : Fld := ⟨0x782C, 16, 31⟩
def Fl.HOLD_LOG_SEL_INDEX : Fld := ⟨0x7830, 0, 4⟩
def Fl.HOLD_LOG_SEL_CLEAR : Fld := ⟨0x7830, 31, 31⟩
def Fl.HOLD_LOG_LOC_LOC : Fld := ⟨0x7834, 0, 25⟩
def Fl.HOLD_LOG_INFO_COUNT : Fld := ⟨0x7838, 0, 7⟩
def Fl.HOLD_LOG_INFO_VALID : Fld := ⟨0x7838, 8, 8⟩
def Fl.HOLD_LOG_INFO_RECURRING : Fld := ⟨0x7838, 9, 9⟩
def Fl.HOLD_LOG_INFO_BIT : Fld := ⟨0x7838, 10, 16⟩
def Fl.HOLD_REPAIR_CTRL_ROW : Fld := ⟨0x783C, 0, 10⟩
def Fl.HOLD_REPAIR_CTRL_BANK : Fld := ⟨0x783C, 12, 15⟩
def Fl.HOLD_REPAIR_CTRL_GO : Fld := ⟨0x783C, 31, 31⟩
def Fl.HOLD_REPAIR_STATUS_USED : Fld := ⟨0x7840, 0, 5⟩
def Fl.HOLD_REPAIR_STATUS_PENDING : Fld := ⟨0x7840, 8, 13⟩
def Fl.HOLD_REPAIR_STATUS_RESULT : Fld := ⟨0x7840, 16, 17⟩
def Fl.HOLD_SPARE_SEL_BANK : Fld := ⟨0x7844, 0, 3⟩
def Fl.HOLD_SPARE_FACTORY : Fld := ⟨0x7848, 0, 4⟩
def Fl.HOLD_SPARE_FIELD : Fld := ⟨0x7848, 5, 9⟩
def Fl.HOLD_SPARE_FREE : Fld := ⟨0x7848, 10, 14⟩
def Fl.HOLD_CNT_SAT_SAT : Fld := ⟨0x78A0, 0, 7⟩
def Fl.CLAIM_STATUS_BUSY : Fld := ⟨0x8000, 0, 0⟩
def Fl.CLAIM_STATUS_POST_DROP : Fld := ⟨0x8000, 3, 3⟩
def Fl.CLAIM_STATUS_PENDING : Fld := ⟨0x8000, 4, 4⟩
def Fl.CLAIM_STATUS_REJECTED : Fld := ⟨0x8000, 5, 5⟩
def Fl.CLAIM_STATUS_GATE_OPEN : Fld := ⟨0x8000, 6, 6⟩
def Fl.CLAIM_STATUS_CKPT_LOADED : Fld := ⟨0x8000, 7, 7⟩
def Fl.CLAIM_STATUS_STATE : Fld := ⟨0x8000, 8, 10⟩
def Fl.CLAIM_STATUS_QUIET : Fld := ⟨0x8000, 11, 11⟩
def Fl.CLAIM_STATUS_OWN : Fld := ⟨0x8000, 12, 15⟩
def Fl.CLAIM_STATUS_BUS : Fld := ⟨0x8000, 16, 19⟩
def Fl.CLAIM_STATUS_FAILOVER_LOW : Fld := ⟨0x8000, 20, 20⟩
def Fl.CLAIM_STATUS_FAILOVER_DRIVE : Fld := ⟨0x8000, 21, 21⟩
def Fl.CLAIM_STATUS_CONFLICT : Fld := ⟨0x8000, 22, 22⟩
def Fl.CLAIM_CTRL_TAKEOVER : Fld := ⟨0x8004, 0, 0⟩
def Fl.CLAIM_CTRL_FRESH : Fld := ⟨0x8004, 1, 1⟩
def Fl.CLAIM_CTRL_YIELD : Fld := ⟨0x8004, 2, 2⟩
def Fl.CLAIM_CTRL_DIAG : Fld := ⟨0x8004, 3, 3⟩
def Fl.CLAIM_CTRL_CKPT_FULL : Fld := ⟨0x8004, 4, 4⟩
def Fl.CLAIM_CFG_QUIET_MS : Fld := ⟨0x8008, 0, 13⟩
def Fl.CLAIM_CFG_SHARED_FEM : Fld := ⟨0x8008, 16, 16⟩
def Fl.CLAIM_CFG_PROBE_MS : Fld := ⟨0x8008, 24, 30⟩
def Fl.CLAIM_PRIO_PPP : Fld := ⟨0x800C, 0, 2⟩
def Fl.CLAIM_DIAG_CAUSE : Fld := ⟨0x8010, 0, 3⟩
def Fl.CLAIM_DIAG_RESULT : Fld := ⟨0x8010, 8, 9⟩
def Fl.CLAIM_DIAG_DETAIL : Fld := ⟨0x8010, 16, 31⟩
def Fl.CLAIM_CNT_SAT_SAT : Fld := ⟨0x8058, 0, 5⟩
def Fl.FW_STATUS_BUSY : Fld := ⟨0x8400, 0, 0⟩
def Fl.FW_STATUS_POST_DROP : Fld := ⟨0x8400, 3, 3⟩
def Fl.FW_STATUS_PENDING : Fld := ⟨0x8400, 4, 4⟩
def Fl.FW_STATUS_REJECTED : Fld := ⟨0x8400, 5, 5⟩
def Fl.FW_STATUS_LEASE : Fld := ⟨0x8400, 6, 6⟩
def Fl.FW_STATUS_JOURNAL_FULL : Fld := ⟨0x8400, 7, 7⟩
def Fl.FW_STATUS_HOLDER : Fld := ⟨0x8400, 8, 10⟩
def Fl.FW_STATUS_SIGN_FAIL : Fld := ⟨0x8400, 11, 11⟩
def Fl.FW_STATUS_SLOT_A : Fld := ⟨0x8400, 16, 23⟩
def Fl.FW_STATUS_SLOT_B : Fld := ⟨0x8400, 24, 31⟩
def Fl.FW_CTRL_VOUCH : Fld := ⟨0x8404, 0, 0⟩
def Fl.FW_CTRL_REJECT : Fld := ⟨0x8404, 1, 1⟩
def Fl.FW_CTRL_BREAK : Fld := ⟨0x8404, 2, 2⟩
def Fl.FW_STAGE_STAGED : Fld := ⟨0x8408, 0, 23⟩
def Fl.FW_STAGE_LEN_LEN : Fld := ⟨0x840C, 0, 23⟩
def Fl.FW_TRIAL_LEFT_S : Fld := ⟨0x8410, 0, 11⟩
def Fl.FW_BOOT_INFO_SLOT : Fld := ⟨0x8414, 0, 0⟩
def Fl.FW_BOOT_INFO_STORE : Fld := ⟨0x8414, 1, 1⟩
def Fl.FW_BOOT_INFO_PREV_USED : Fld := ⟨0x8414, 2, 2⟩
def Fl.FW_BOOT_INFO_FALLBACK : Fld := ⟨0x8414, 4, 7⟩
def Fl.FW_SECVER_MIN : Fld := ⟨0x8418, 0, 6⟩
def Fl.FW_SIGNER_FUSED : Fld := ⟨0x841C, 0, 3⟩
def Fl.FW_SIGNER_REVOKED : Fld := ⟨0x841C, 4, 7⟩
def Fl.FW_SIGNER_LAST_USED : Fld := ⟨0x841C, 8, 9⟩
def Fl.FW_SIGNER_CTRL_ENTRY : Fld := ⟨0x8420, 0, 1⟩
def Fl.FW_SIGNER_CTRL_OP : Fld := ⟨0x8420, 8, 9⟩
def Fl.FW_SIGNER_CTRL_GO : Fld := ⟨0x8420, 31, 31⟩
def Fl.FW_SET_SEL_ITEM : Fld := ⟨0x8444, 0, 9⟩
def Fl.FW_CNT_SAT_SAT : Fld := ⟨0x848C, 0, 2⟩
def Fl.BRINGUP_STATUS_BUSY : Fld := ⟨0x2000, 0, 0⟩
def Fl.BRINGUP_STATUS_POST_DROP : Fld := ⟨0x2000, 3, 3⟩
def Fl.BRINGUP_STATUS_PENDING : Fld := ⟨0x2000, 4, 4⟩
def Fl.BRINGUP_STATUS_REJECTED : Fld := ⟨0x2000, 5, 5⟩
def Fl.BRINGUP_STATUS_PHASE : Fld := ⟨0x2000, 8, 10⟩
def Fl.BRINGUP_STATUS_STALLING : Fld := ⟨0x2000, 11, 11⟩
def Fl.BRINGUP_STALL_LIMIT_US : Fld := ⟨0x2004, 0, 13⟩
def Fl.BRINGUP_PORT_CFG_QID : Fld := ⟨0x2040, 0, 6⟩
def Fl.BRINGUP_PORT_CFG_TAP_EN : Fld := ⟨0x2040, 8, 8⟩
def Fl.BRINGUP_PORT_STATUS_EMPTY : Fld := ⟨0x2044, 0, 0⟩
def Fl.BRINGUP_PORT_STATUS_UNDERRUN : Fld := ⟨0x2044, 1, 1⟩
def Fl.BRINGUP_PORT_STATUS_STALL_EXPIRED : Fld := ⟨0x2044, 2, 2⟩
def Fl.BRINGUP_PORT_STATUS_OVERFLOW : Fld := ⟨0x2044, 3, 3⟩
def Fl.BRINGUP_PORT_STATUS_FIRST : Fld := ⟨0x2044, 4, 4⟩
def Fl.BRINGUP_PORT_STATUS_LEVEL : Fld := ⟨0x2044, 8, 14⟩
def Fl.TEST_STATUS_BUSY : Fld := ⟨0x8C00, 0, 0⟩
def Fl.TEST_STATUS_POST_DROP : Fld := ⟨0x8C00, 3, 3⟩
def Fl.TEST_STATUS_PENDING : Fld := ⟨0x8C00, 4, 4⟩
def Fl.TEST_STATUS_REJECTED : Fld := ⟨0x8C00, 5, 5⟩
def Fl.TEST_STATUS_DOCKED : Fld := ⟨0x8C00, 6, 6⟩
def Fl.TEST_STATUS_DOCK_BERTH : Fld := ⟨0x8C00, 7, 9⟩
def Fl.TEST_STATUS_KAT_RUNNING : Fld := ⟨0x8C00, 10, 10⟩
def Fl.TEST_CTRL_MODE : Fld := ⟨0x8C04, 0, 0⟩
def Fl.TEST_RESET_CONFIRM : Fld := ⟨0x8C08, 0, 15⟩
def Fl.TEST_RESET_GO : Fld := ⟨0x8C08, 31, 31⟩
def Fl.TEST_RESET_CAUSE_CAUSE : Fld := ⟨0x8C0C, 0, 3⟩
def Fl.TEST_RESET_CAUSE_COUNT : Fld := ⟨0x8C0C, 16, 31⟩
def Fl.TEST_DOCK_BERTH : Fld := ⟨0x8C10, 0, 2⟩
def Fl.TEST_DOCK_ENTER : Fld := ⟨0x8C10, 8, 8⟩
def Fl.TEST_DOCK_LEAVE : Fld := ⟨0x8C10, 9, 9⟩
def Fl.TEST_DOCK_GO : Fld := ⟨0x8C10, 31, 31⟩
def Fl.TEST_DOCK_RESULT_RESULT : Fld := ⟨0x8C14, 0, 1⟩
def Fl.TEST_DOCK_RESULT_FAIL_STEP : Fld := ⟨0x8C14, 4, 7⟩
def Fl.TEST_DOCK_RESULT_IMAGE_DB : Fld := ⟨0x8C14, 8, 15⟩
def Fl.TEST_DOCK_RESULT_FRAMES : Fld := ⟨0x8C14, 16, 31⟩
def Fl.TEST_KAT_CFG_EN : Fld := ⟨0x8C18, 0, 0⟩
def Fl.TEST_KAT_CFG_PERIOD_S : Fld := ⟨0x8C18, 16, 27⟩
def Fl.TEST_KAT_LAST_UNIT : Fld := ⟨0x8C1C, 0, 4⟩
def Fl.TEST_KAT_LAST_PASS : Fld := ⟨0x8C1C, 8, 8⟩
def Fl.TEST_FENCE_UNIT : Fld := ⟨0x8C20, 0, 4⟩
def Fl.TEST_FENCE_GO : Fld := ⟨0x8C20, 31, 31⟩
def Fl.TEST_CNT_SAT_SAT : Fld := ⟨0x8C4C, 0, 2⟩

def Ct.FABRIC_REPLAY : Cnt := ⟨0x7C24, 0x7C38, 0⟩
def Ct.FABRIC_QUAY_DROP : Cnt := ⟨0x7C28, 0x7C38, 1⟩
def Ct.FABRIC_QUAY_LATE : Cnt := ⟨0x7C2C, 0x7C38, 2⟩
def Ct.FABRIC_TIMER_LATE : Cnt := ⟨0x7C30, 0x7C38, 3⟩
def Ct.EVT_LOST : Cnt := ⟨0x1808, 0x180C, 0⟩
def Ct.TIME_PPS_GLITCH : Cnt := ⟨0x6240, 0x6250, 0⟩
def Ct.TIME_TIDE_BAD : Cnt := ⟨0x6244, 0x6250, 1⟩
def Ct.TIME_CAPT_OVF : Cnt := ⟨0x6248, 0x6250, 2⟩
def Ct.TIME_TRIG_MISS : Cnt := ⟨0x624C, 0x6250, 3⟩
def Ct.BERTH_RX_OK : Cnt := ⟨0x40, 0x7C, 0⟩
def Ct.BERTH_RX_SYNC : Cnt := ⟨0x44, 0x7C, 1⟩
def Ct.BERTH_RX_FALSE_SYNC : Cnt := ⟨0x48, 0x7C, 2⟩
def Ct.BERTH_RX_PHR_ERR : Cnt := ⟨0x4C, 0x7C, 3⟩
def Ct.BERTH_RX_MODE_SWITCH : Cnt := ⟨0x50, 0x7C, 4⟩
def Ct.BERTH_RX_FCS_ERR : Cnt := ⟨0x54, 0x7C, 5⟩
def Ct.BERTH_RX_RECAPTURE : Cnt := ⟨0x58, 0x7C, 6⟩
def Ct.BERTH_RX_SUSTAIN : Cnt := ⟨0x5C, 0x7C, 7⟩
def Ct.BERTH_RX_BLANKED : Cnt := ⟨0x60, 0x7C, 8⟩
def Ct.BERTH_RX_CLIP : Cnt := ⟨0x64, 0x7C, 9⟩
def Ct.BERTH_RX_CLIP_LOSS : Cnt := ⟨0x68, 0x7C, 10⟩
def Ct.BERTH_RX_DEC_LATE : Cnt := ⟨0x6C, 0x7C, 11⟩
def Ct.BERTH_RX_CONFIG_ABORT : Cnt := ⟨0x70, 0x7C, 12⟩
def Ct.BERTH_RX_POISON : Cnt := ⟨0x74, 0x7C, 13⟩
def Ct.BERTH_TX_FRAME : Cnt := ⟨0x240, 0x7C, 16⟩
def Ct.BERTH_TX_ACK : Cnt := ⟨0x244, 0x7C, 17⟩
def Ct.BERTH_TX_LOCK_MISS : Cnt := ⟨0x248, 0x7C, 18⟩
def Ct.BERTH_TX_DUTY_DEFER : Cnt := ⟨0x24C, 0x7C, 19⟩
def Ct.BERTH_TX_LBT_BUSY : Cnt := ⟨0x250, 0x7C, 20⟩
def Ct.BERTH_TX_COEX_DENY : Cnt := ⟨0x254, 0x7C, 21⟩
def Ct.BERTH_TX_COUPLE_DEFER : Cnt := ⟨0x258, 0x7C, 22⟩
def Ct.BERTH_TX_UNAVAIL : Cnt := ⟨0x25C, 0x7C, 23⟩
def Ct.BERTH_TX_UNDERRUN : Cnt := ⟨0x260, 0x7C, 24⟩
def Ct.BERTH_TX_POISON : Cnt := ⟨0x264, 0x7C, 25⟩
def Ct.BERTH_TX_FENCE_ABORT : Cnt := ⟨0x268, 0x7C, 26⟩
def Ct.BERTH_TX_REG_REFUSE : Cnt := ⟨0x26C, 0x7C, 27⟩
def Ct.BERTH_TX_PWR_CLIP : Cnt := ⟨0x270, 0x7C, 28⟩
def Ct.BERTH_TX_MASK_VIOL : Cnt := ⟨0x274, 0x7C, 29⟩
def Ct.BCOM_SET_CLIP : Cnt := ⟨0x5D44, 0x5D48, 0⟩
def Ct.MAC_RX_ACCEPT : Cnt := ⟨0x6500, 0x654C, 0⟩
def Ct.MAC_RX_DROP : Cnt := ⟨0x6504, 0x654C, 1⟩
def Ct.MAC_RX_OFFWIN : Cnt := ⟨0x6508, 0x654C, 2⟩
def Ct.MAC_RX_OFFCELL : Cnt := ⟨0x650C, 0x654C, 3⟩
def Ct.MAC_RX_SEC_FAIL : Cnt := ⟨0x6510, 0x654C, 4⟩
def Ct.MAC_RX_DUP : Cnt := ⟨0x6514, 0x654C, 5⟩
def Ct.MAC_REPLAY : Cnt := ⟨0x6518, 0x654C, 6⟩
def Ct.MAC_ACK_TX : Cnt := ⟨0x651C, 0x654C, 7⟩
def Ct.MAC_ACK_LATE : Cnt := ⟨0x6520, 0x654C, 8⟩
def Ct.MAC_NACK : Cnt := ⟨0x6524, 0x654C, 9⟩
def Ct.MAC_ACK_MISS : Cnt := ⟨0x6528, 0x654C, 10⟩
def Ct.MAC_BA_TX : Cnt := ⟨0x652C, 0x654C, 11⟩
def Ct.MAC_BA_SUPPRESS : Cnt := ⟨0x6530, 0x654C, 12⟩
def Ct.MAC_BA_BITS : Cnt := ⟨0x6534, 0x654C, 13⟩
def Ct.MAC_EB_TX : Cnt := ⟨0x6538, 0x654C, 14⟩
def Ct.MAC_EB_SUPPRESS : Cnt := ⟨0x653C, 0x654C, 15⟩
def Ct.MAC_DRIFT_OUTLIER : Cnt := ⟨0x6540, 0x654C, 16⟩
def Ct.MAC_LINK_FAIL : Cnt := ⟨0x6544, 0x654C, 17⟩
def Ct.MAC_HOLD : Cnt := ⟨0x6548, 0x654C, 18⟩
def Ct.ROUTE_DAO : Cnt := ⟨0x6900, 0x6938, 0⟩
def Ct.ROUTE_DAO_DROP : Cnt := ⟨0x6904, 0x6938, 1⟩
def Ct.ROUTE_DAO_STALE : Cnt := ⟨0x6908, 0x6938, 2⟩
def Ct.ROUTE_WALK_FAIL : Cnt := ⟨0x690C, 0x6938, 3⟩
def Ct.ROUTE_LOOP : Cnt := ⟨0x6910, 0x6938, 4⟩
def Ct.ROUTE_MISSING : Cnt := ⟨0x6914, 0x6938, 5⟩
def Ct.ROUTE_FLOOD : Cnt := ⟨0x6918, 0x6938, 6⟩
def Ct.ROUTE_INSERT_FAIL : Cnt := ⟨0x691C, 0x6938, 7⟩
def Ct.ROUTE_NBR_FULL : Cnt := ⟨0x6920, 0x6938, 8⟩
def Ct.ROUTE_REHOME : Cnt := ⟨0x6924, 0x6938, 9⟩
def Ct.ROUTE_ARB_LATE : Cnt := ⟨0x6928, 0x6938, 10⟩
def Ct.ROUTE_SUSPECT : Cnt := ⟨0x692C, 0x6938, 11⟩
def Ct.ROUTE_STRAY_FULL : Cnt := ⟨0x6930, 0x6938, 12⟩
def Ct.ROUTE_DIO : Cnt := ⟨0x6934, 0x6938, 13⟩
def Ct.SVC_TXN_OK : Cnt := ⟨0x6C80, 0x6CD8, 0⟩
def Ct.SVC_TXN_TIMEOUT : Cnt := ⟨0x6C84, 0x6CD8, 1⟩
def Ct.SVC_COAP_RETX : Cnt := ⟨0x6C88, 0x6CD8, 2⟩
def Ct.SVC_TXN_FULL : Cnt := ⟨0x6C8C, 0x6CD8, 3⟩
def Ct.SVC_TOO_LATE : Cnt := ⟨0x6C90, 0x6CD8, 4⟩
def Ct.SVC_UP_RX : Cnt := ⟨0x6C94, 0x6CD8, 5⟩
def Ct.SVC_UP_DUP : Cnt := ⟨0x6C98, 0x6CD8, 6⟩
def Ct.SVC_UP_NOACK : Cnt := ⟨0x6C9C, 0x6CD8, 7⟩
def Ct.SVC_ORPHAN : Cnt := ⟨0x6CA0, 0x6CD8, 8⟩
def Ct.SVC_SEAL_FAIL : Cnt := ⟨0x6CA4, 0x6CD8, 9⟩
def Ct.SVC_SEAL_REPLAY : Cnt := ⟨0x6CA8, 0x6CD8, 10⟩
def Ct.SVC_UNSEALED_DROP : Cnt := ⟨0x6CAC, 0x6CD8, 11⟩
def Ct.SVC_REASM_TIMEOUT : Cnt := ⟨0x6CB0, 0x6CD8, 12⟩
def Ct.SVC_REASM_FULL : Cnt := ⟨0x6CB4, 0x6CD8, 13⟩
def Ct.SVC_REASM_ERR : Cnt := ⟨0x6CB8, 0x6CD8, 14⟩
def Ct.SVC_RX_DROP : Cnt := ⟨0x6CBC, 0x6CD8, 15⟩
def Ct.SVC_DGRAM_RX : Cnt := ⟨0x6CC0, 0x6CD8, 16⟩
def Ct.SVC_MPL_TX : Cnt := ⟨0x6CC4, 0x6CD8, 17⟩
def Ct.SVC_FANOUT_FAIL : Cnt := ⟨0x6CC8, 0x6CD8, 18⟩
def Ct.SVC_RAW_DROP : Cnt := ⟨0x6CCC, 0x6CD8, 19⟩
def Ct.SVC_FRAG_ABORT : Cnt := ⟨0x6CD0, 0x6CD8, 20⟩
def Ct.SVC_RAW_RX : Cnt := ⟨0x6CD4, 0x6CD8, 21⟩
def Ct.RING_DESC : Cnt := ⟨0x300, 0x318, 0⟩
def Ct.RING_ENTRY : Cnt := ⟨0x304, 0x318, 1⟩
def Ct.RING_HELD : Cnt := ⟨0x308, 0x318, 2⟩
def Ct.RING_LOST : Cnt := ⟨0x30C, 0x318, 3⟩
def Ct.RING_PREEMPT : Cnt := ⟨0x310, 0x318, 4⟩
def Ct.RING_PAUSE : Cnt := ⟨0x314, 0x318, 5⟩
def Ct.XLATE_ATC_HIT : Cnt := ⟨0x840, 0x854, 0⟩
def Ct.XLATE_ATC_MISS : Cnt := ⟨0x844, 0x854, 1⟩
def Ct.XLATE_PRI : Cnt := ⟨0x848, 0x854, 2⟩
def Ct.XLATE_FAULT : Cnt := ⟨0x84C, 0x854, 3⟩
def Ct.XLATE_INV : Cnt := ⟨0x850, 0x854, 4⟩
def Ct.CAMP_FRAME : Cnt := ⟨0x6E80, 0x6EA0, 0⟩
def Ct.CAMP_SYM : Cnt := ⟨0x6E84, 0x6EA0, 1⟩
def Ct.CAMP_SYM_DROP : Cnt := ⟨0x6E88, 0x6EA0, 2⟩
def Ct.CAMP_REPORT : Cnt := ⟨0x6E8C, 0x6EA0, 3⟩
def Ct.CAMP_REPORT_STALE : Cnt := ⟨0x6E90, 0x6EA0, 4⟩
def Ct.CAMP_CKPT : Cnt := ⟨0x6E94, 0x6EA0, 5⟩
def Ct.CAMP_CKPT_WAIT : Cnt := ⟨0x6E98, 0x6EA0, 6⟩
def Ct.CAMP_POISON : Cnt := ⟨0x6E9C, 0x6EA0, 7⟩
def Ct.KEY_DERIVE : Cnt := ⟨0x7040, 0x7068, 0⟩
def Ct.KEY_STALE : Cnt := ⟨0x7044, 0x7068, 1⟩
def Ct.KEY_GRACE_RX : Cnt := ⟨0x7048, 0x7068, 2⟩
def Ct.KEY_GRACE_REJECT : Cnt := ⟨0x704C, 0x7068, 3⟩
def Ct.KEY_GRACE_DROP : Cnt := ⟨0x7050, 0x7068, 4⟩
def Ct.KEY_CACHE_UE : Cnt := ⟨0x7054, 0x7068, 5⟩
def Ct.KEY_NONCE_GUARD : Cnt := ⟨0x7058, 0x7068, 6⟩
def Ct.KEY_ENTROPY_FAIL : Cnt := ⟨0x705C, 0x7068, 7⟩
def Ct.KEY_ATTEST : Cnt := ⟨0x7060, 0x7068, 8⟩
def Ct.KEY_SLOT_ERR : Cnt := ⟨0x7064, 0x7068, 9⟩
def Ct.HOLD_CE : Cnt := ⟨0x7880, 0x78A0, 0⟩
def Ct.HOLD_UE : Cnt := ⟨0x7884, 0x78A0, 1⟩
def Ct.HOLD_ADDR_ERR : Cnt := ⟨0x7888, 0x78A0, 2⟩
def Ct.HOLD_POISON_READ : Cnt := ⟨0x788C, 0x78A0, 3⟩
def Ct.HOLD_QRESET : Cnt := ⟨0x7890, 0x78A0, 4⟩
def Ct.HOLD_FLUSH_FORCED : Cnt := ⟨0x7894, 0x78A0, 5⟩
def Ct.HOLD_POOL_STALL : Cnt := ⟨0x7898, 0x78A0, 6⟩
def Ct.HOLD_PILOT_CE : Cnt := ⟨0x789C, 0x78A0, 7⟩
def Ct.CLAIM_PROBE : Cnt := ⟨0x8040, 0x8058, 0⟩
def Ct.CLAIM_CONFLICT : Cnt := ⟨0x8044, 0x8058, 1⟩
def Ct.CLAIM_CKPT_OUT : Cnt := ⟨0x8048, 0x8058, 2⟩
def Ct.CLAIM_CKPT_IN : Cnt := ⟨0x804C, 0x8058, 3⟩
def Ct.CLAIM_CKPT_REJECT : Cnt := ⟨0x8050, 0x8058, 4⟩
def Ct.CLAIM_SHADOW_RX : Cnt := ⟨0x8054, 0x8058, 5⟩
def Ct.FW_STAGE_BUSY : Cnt := ⟨0x8480, 0x848C, 0⟩
def Ct.FW_LEASE_END : Cnt := ⟨0x8484, 0x848C, 1⟩
def Ct.FW_FALLBACK : Cnt := ⟨0x8488, 0x848C, 2⟩
def Ct.TEST_KAT : Cnt := ⟨0x8C40, 0x8C4C, 0⟩
def Ct.TEST_KAT_FAIL : Cnt := ⟨0x8C44, 0x8C4C, 1⟩
def Ct.TEST_DOCK : Cnt := ⟨0x8C48, 0x8C4C, 2⟩

/-- How a register takes a written word (R37): in the fabric at once, under a mask, posted across a quay, or held
pending until its block's boundary. -/
inductive Access where
  | plain
  | masked
  | posted
  | buffered
  deriving DecidableEq, Repr

/-- A stage-1 range of a field (R460): a range of numbers, of signed numbers, a
list of codes, 0 or a range, multiples of a step within a range, a slotframe length (R74), or a valid RSN (R69). -/
inductive Valid where
  | range (lo hi : Nat)
  | signed (lo hi : Int)
  | oneOf (l : List Nat)
  | zeroOr (lo hi : Nat)
  | mult (lo hi step : Nat)
  | slotframe
  | rsn
  deriving DecidableEq, Repr

/-- The stage-1 check of one field [hi:lo]. -/
structure FieldCheck where
  lo : Nat
  hi : Nat
  ok : Valid
  deriving DecidableEq, Repr

/-- One register, or an array of registers of one layout: bits `rw` are written and read back, `w1c` are cleared by
writing 1, `wo` act and read 0; every other bit ignores a write. -/
structure RegRow where
  off : Nat
  stride : Nat
  count : Nat
  access : Access
  rw : Nat
  w1c : Nat
  wo : Nat
  reset : Nat
  checks : List FieldCheck
  deriving DecidableEq, Repr

/-- Rows of the FABRIC block, part 0. -/
def Rows.fabric0 : List RegRow := [
  ⟨Reg.FABRIC_STATUS, 4, 1, .plain, 0x0, 0x4, 0x0, 0x0, []⟩,
  ⟨Reg.FABRIC_FENCED, 4, 1, .plain, 0x0, 0x0, 0x0, 0x0, []⟩,
  ⟨Reg.FABRIC_LINK_FAULT, 4, 1, .plain, 0x0, 0x7FFFFFFF, 0x0, 0x0, []⟩,
  ⟨Reg.FABRIC_CORE_FAULT, 4, 1, .plain, 0x0, 0xFFFF, 0x0, 0x0, []⟩,
  ⟨Reg.FABRIC_UNFENCE, 4, 1, .plain, 0x0, 0x0, 0x8000001F, 0x0, []⟩,
  ⟨Reg.FABRIC_RATE, 4, 1, .plain, 0x0, 0x0, 0x0, 0xFFFF0000, []⟩,
  ⟨Reg.FABRIC_RATE_WARN, 4, 1, .plain, 0xFFFF, 0x0, 0x0, 0x1A4, []⟩,
  ⟨Reg.FABRIC_VREQ, 4, 1, .plain, 0x0, 0x0, 0x0, 0x2EE, []⟩,
  ⟨Reg.FABRIC_VPOLICY, 4, 1, .plain, 0x3FF1FF1, 0x0, 0x0, 0x3841B81, []⟩,
  ⟨Reg.FABRIC_REPLAY_CNT, 4, 1, .plain, 0x0, 0x0, 0x0, 0x0, []⟩,
  ⟨Reg.FABRIC_QUAY_DROP_CNT, 4, 1, .plain, 0x0, 0x0, 0x0, 0x0, []⟩,
  ⟨Reg.FABRIC_QUAY_LATE_CNT, 4, 1, .plain, 0x0, 0x0, 0x0, 0x0, []⟩,
  ⟨Reg.FABRIC_TIMER_LATE_CNT, 4, 1, .plain, 0x0, 0x0, 0x0, 0x0, []⟩,
  ⟨Reg.FABRIC_PILOT_STATE, 4, 1, .plain, 0x0, 0x0, 0x0, 0x0, []⟩,
  ⟨Reg.FABRIC_CNT_SAT, 4, 1, .plain, 0x0, 0xF, 0x0, 0x0, []⟩,
  ⟨Reg.FABRIC_CTRL, 4, 1, .masked, 0x0, 0x0, 0xFFFF0001, 0x0, []⟩]

/-- The rows of the FABRIC block. -/
def Rows.fabric : List RegRow := Rows.fabric0

/-- Rows of the IDENT block, part 0. -/
def Rows.ident0 : List RegRow := [
  ⟨Reg.IDENT_DEVICE, 4, 1, .plain, 0x0, 0x0, 0x0, 0x53010000, []⟩,
  ⟨Reg.IDENT_BERTHS, 4, 1, .plain, 0x0, 0x0, 0x0, 0x303F, []⟩,
  ⟨Reg.IDENT_FUNC, 4, 1, .plain, 0x0, 0x0, 0x0, 0x0, []⟩,
  ⟨Reg.IDENT_GRANTED, 4, 1, .plain, 0x0, 0x0, 0x0, 0x0, []⟩,
  ⟨Reg.IDENT_OUI, 4, 1, .plain, 0x0, 0x0, 0x0, 0x0, []⟩,
  ⟨Reg.IDENT_EUI_LO, 4, 1, .plain, 0x0, 0x0, 0x0, 0x0, []⟩,
  ⟨Reg.IDENT_EUI_HI, 4, 1, .plain, 0x0, 0x0, 0x0, 0x0, []⟩,
  ⟨Reg.IDENT_FW, 4, 1, .plain, 0x0, 0x0, 0x0, 0x0, []⟩,
  ⟨Reg.IDENT_BUS_ERR, 4, 1, .plain, 0x0, 0x3F, 0x0, 0x0, []⟩,
  ⟨Reg.IDENT_INCARNATION, 4, 1, .plain, 0x0, 0x0, 0x0, 0x0, []⟩]

/-- The rows of the IDENT block. -/
def Rows.ident : List RegRow := Rows.ident0

/-- Rows of the EVT block, part 0. -/
def Rows.evt0 : List RegRow := [
  ⟨Reg.EVT_CTRL, 4, 1, .plain, 0xFFFF0003, 0x0, 0x0, 0x3E80000, []⟩,
  ⟨Reg.EVT_STATUS, 4, 1, .plain, 0x0, 0x1, 0x0, 0x0, []⟩,
  ⟨Reg.EVT_LOST_CNT, 4, 1, .plain, 0x0, 0x0, 0x0, 0x0, []⟩,
  ⟨Reg.EVT_CNT_SAT, 4, 1, .plain, 0x0, 0x1, 0x0, 0x0, []⟩,
  ⟨Reg.EVT_PEND, 4, 8, .plain, 0x0, 0xFFFFFFFF, 0x0, 0x0, []⟩,
  ⟨Reg.EVT_ENABLE, 4, 8, .plain, 0xFFFFFFFF, 0x0, 0x0, 0x0, []⟩,
  ⟨Reg.EVT_VEC, 4, 32, .plain, 0xFFFFFFFF, 0x0, 0x0, 0xFFFFFFFF, []⟩]

/-- The rows of the EVT block. -/
def Rows.evt : List RegRow := Rows.evt0

/-- Rows of the GEVT block, part 0. -/
def Rows.gevt0 : List RegRow := [
  ⟨Reg.GEVT_RAW, 4, 8, .plain, 0x0, 0xFFFFFFFF, 0x0, 0x0, []⟩,
  ⟨Reg.GEVT_INJECT, 4, 1, .plain, 0x0, 0x0, 0x800000FF, 0x0, []⟩,
  ⟨Reg.GEVT_ROUTE, 4, 64, .plain, 0xFFFFFFFF, 0x0, 0x0, 0x0, []⟩]

/-- The rows of the GEVT block. -/
def Rows.gevt : List RegRow := Rows.gevt0

/-- Rows of the TIME block, part 0. -/
def Rows.time0 : List RegRow := [
  ⟨Reg.TIME_STATUS, 4, 1, .plain, 0x0, 0x428, 0x0, 0x0, []⟩,
  ⟨Reg.TIME_CTRL, 4, 1, .posted, 0xF, 0x0, 0x70, 0x0, [⟨1, 2, .range 0 2⟩]⟩,
  ⟨Reg.TIME_INC, 4, 1, .buffered, 0xFFFFFFFF, 0x0, 0x0, 0x0, [⟨0, 31, .signed (-21474836) 21474836⟩]⟩,
  ⟨Reg.TIME_INC_EFF, 4, 1, .plain, 0x0, 0x0, 0x0, 0x0, []⟩,
  ⟨Reg.TIME_ADJ, 4, 1, .posted, 0xFFFFFFFF, 0x0, 0x0, 0x0, []⟩,
  ⟨Reg.TIME_ADJ_REM, 4, 1, .plain, 0x0, 0x0, 0x0, 0x0, []⟩,
  ⟨Reg.TIME_SLEW, 4, 1, .posted, 0x1FF, 0x0, 0x0, 0x1F4, [⟨0, 8, .range 1 500⟩]⟩,
  ⟨Reg.TIME_SLOT_LEN, 4, 1, .posted, 0x1FFFF, 0x0, 0x0, 0x4E20, [⟨0, 16, .range 2500 100000⟩]⟩,
  ⟨Reg.TIME_START_LO, 4, 1, .posted, 0xFFFFFFFF, 0x0, 0x0, 0x0, []⟩,
  ⟨Reg.TIME_START_HI, 4, 1, .posted, 0xFFFF, 0x0, 0x0, 0x0, []⟩,
  ⟨Reg.TIME_RSN_LOAD, 4, 1, .buffered, 0xFFFFFFFF, 0x0, 0x0, 0x0, [⟨0, 31, .rsn⟩]⟩,
  ⟨Reg.TIME_EPOCH_LOAD, 4, 1, .buffered, 0xFFFF, 0x0, 0x0, 0x0, []⟩,
  ⟨Reg.TIME_LOAD_LO, 4, 1, .posted, 0xFFFFFFFF, 0x0, 0x0, 0x0, []⟩,
  ⟨Reg.TIME_LOAD_HI, 4, 1, .posted, 0xFFFF, 0x0, 0x0, 0x0, []⟩,
  ⟨Reg.TIME_RSN, 4, 1, .plain, 0x0, 0x0, 0x0, 0x0, []⟩,
  ⟨Reg.TIME_EPOCH, 4, 1, .plain, 0x0, 0x0, 0x0, 0x0, []⟩,
  ⟨Reg.TIME_SNAP_NS_LO, 4, 1, .plain, 0x0, 0x0, 0x0, 0x0, []⟩,
  ⟨Reg.TIME_SNAP_NS_HI, 4, 1, .plain, 0x0, 0x0, 0x0, 0x0, []⟩,
  ⟨Reg.TIME_SNAP_FRAC, 4, 1, .plain, 0x0, 0x0, 0x0, 0x0, []⟩,
  ⟨Reg.TIME_SNAP_RSN, 4, 1, .plain, 0x0, 0x0, 0x0, 0x0, []⟩,
  ⟨Reg.TIME_SNAP_EPOCH, 4, 1, .plain, 0x0, 0x0, 0x0, 0x0, []⟩,
  ⟨Reg.TIME_SNAP_SLOT_T, 4, 1, .plain, 0x0, 0x0, 0x0, 0x7FFFFFF, []⟩,
  ⟨Reg.TIME_SNAP_MONO_LO, 4, 1, .plain, 0x0, 0x0, 0x0, 0x0, []⟩,
  ⟨Reg.TIME_SNAP_MONO_HI, 4, 1, .plain, 0x0, 0x0, 0x0, 0x0, []⟩]

/-- Rows of the TIME block, part 1. -/
def Rows.time1 : List RegRow := [
  ⟨Reg.TIME_CONV_CTRL, 4, 1, .posted, 0x1, 0x0, 0x80000000, 0x0, []⟩,
  ⟨Reg.TIME_CONV_IN_LO, 4, 1, .posted, 0xFFFFFFFF, 0x0, 0x0, 0x0, []⟩,
  ⟨Reg.TIME_CONV_IN_HI, 4, 1, .posted, 0xFFFF, 0x0, 0x0, 0x0, []⟩,
  ⟨Reg.TIME_CONV_OUT_RSN, 4, 1, .plain, 0x0, 0x0, 0x0, 0x0, []⟩,
  ⟨Reg.TIME_CONV_OUT_EPOCH, 4, 1, .plain, 0x0, 0x0, 0x0, 0x0, []⟩,
  ⟨Reg.TIME_CONV_OUT_X, 4, 1, .plain, 0x0, 0x0, 0x0, 0x0, []⟩,
  ⟨Reg.TIME_CONV_OUT_ASN_LO, 4, 1, .plain, 0x0, 0x0, 0x0, 0x0, []⟩,
  ⟨Reg.TIME_CONV_OUT_ASN_HI, 4, 1, .plain, 0x0, 0x0, 0x0, 0x0, []⟩,
  ⟨Reg.TIME_PPS_CFG, 4, 1, .posted, 0x1FFFFFF, 0x0, 0x0, 0x4103E8, [⟨0, 15, .range 100 65535⟩]⟩,
  ⟨Reg.TIME_PPS_LAST_LO, 4, 1, .plain, 0x0, 0x0, 0x0, 0x0, []⟩,
  ⟨Reg.TIME_PPS_LAST_HI, 4, 1, .plain, 0x0, 0x0, 0x0, 0x0, []⟩,
  ⟨Reg.TIME_REF_ERR, 4, 1, .plain, 0x0, 0x0, 0x0, 0x0, []⟩,
  ⟨Reg.TIME_SERVO, 4, 1, .plain, 0x0, 0x0, 0x0, 0x0, []⟩,
  ⟨Reg.TIME_TIDE_CFG, 4, 1, .posted, 0xFFFF03FF, 0x0, 0x0, 0xA, [⟨0, 9, .range 1 1000⟩]⟩,
  ⟨Reg.TIME_CAPT_CFG, 16, 4, .posted, 0xF, 0x0, 0x0, 0x0, []⟩,
  ⟨Reg.TIME_CAPT_LO, 16, 4, .plain, 0x0, 0x0, 0x0, 0x0, []⟩,
  ⟨Reg.TIME_CAPT_HI, 16, 4, .plain, 0x0, 0x0, 0x0, 0x0, []⟩,
  ⟨Reg.TIME_TRIG_CFG, 32, 8, .posted, 0xFF, 0x0, 0x0, 0x0, []⟩,
  ⟨Reg.TIME_TRIG_AT_LO, 32, 8, .posted, 0xFFFFFFFF, 0x0, 0x0, 0x0, []⟩,
  ⟨Reg.TIME_TRIG_AT_HI, 32, 8, .posted, 0xFFFF, 0x0, 0x0, 0x0, []⟩,
  ⟨Reg.TIME_TRIG_PERIOD, 32, 8, .posted, 0xFFFFFFFF, 0x0, 0x0, 0x3E8, []⟩,
  ⟨Reg.TIME_TRIG_WIDTH, 32, 8, .posted, 0xFFFFF, 0x0, 0x0, 0x3E8, [⟨0, 19, .range 25 1000000⟩]⟩,
  ⟨Reg.TIME_TRIG_SEL, 32, 8, .posted, 0x7FFFF, 0x0, 0x0, 0x1, []⟩,
  ⟨Reg.TIME_PATH_RX, 8, 6, .posted, 0xFFFF, 0x0, 0x0, 0x0, []⟩]

/-- Rows of the TIME block, part 2. -/
def Rows.time2 : List RegRow := [
  ⟨Reg.TIME_PATH_TX, 8, 6, .posted, 0xFFFF, 0x0, 0x0, 0x0, []⟩,
  ⟨Reg.TIME_PPS_GLITCH_CNT, 4, 1, .plain, 0x0, 0x0, 0x0, 0x0, []⟩,
  ⟨Reg.TIME_TIDE_BAD_CNT, 4, 1, .plain, 0x0, 0x0, 0x0, 0x0, []⟩,
  ⟨Reg.TIME_CAPT_OVF_CNT, 4, 1, .plain, 0x0, 0x0, 0x0, 0x0, []⟩,
  ⟨Reg.TIME_TRIG_MISS_CNT, 4, 1, .plain, 0x0, 0x0, 0x0, 0x0, []⟩,
  ⟨Reg.TIME_CNT_SAT, 4, 1, .plain, 0x0, 0xF, 0x0, 0x0, []⟩]

/-- The rows of the TIME block. -/
def Rows.time : List RegRow := Rows.time0 ++ Rows.time1 ++ Rows.time2

/-- Rows of the BERTH block, part 0. -/
def Rows.berth0 : List RegRow := [
  ⟨Reg.BERTH_STATUS, 4, 1, .plain, 0x0, 0x100328, 0x0, 0x200000, []⟩,
  ⟨Reg.BERTH_RX_CTRL, 4, 1, .buffered, 0x3F03, 0x0, 0x0, 0x1800, [⟨8, 13, .range 0 36⟩]⟩,
  ⟨Reg.BERTH_RX_PLAN, 4, 1, .buffered, 0x7F, 0x0, 0x0, 0x8, []⟩,
  ⟨Reg.BERTH_RX_LO, 4, 1, .buffered, 0x3FFFFF, 0x0, 0x0, 0xD3EA0, []⟩,
  ⟨Reg.BERTH_RX_CF0, 4, 1, .buffered, 0x3FFFFF, 0x0, 0x0, 0xD2B95, []⟩,
  ⟨Reg.BERTH_RX_DET, 4, 1, .buffered, 0xFFFF, 0x0, 0x0, 0x4610, [⟨0, 7, .range 4 255⟩, ⟨8, 11, .range 3 15⟩, ⟨12, 15, .range 2 10⟩]⟩,
  ⟨Reg.BERTH_RX_RSSI_OFS, 4, 1, .buffered, 0xFFFF, 0x0, 0x0, 0x0, []⟩,
  ⟨Reg.BERTH_RX_AGC_CFG, 4, 1, .buffered, 0x771F, 0x0, 0x0, 0x6309, [⟨0, 4, .range 3 20⟩, ⟨8, 10, .range 1 4⟩, ⟨12, 14, .range 1 7⟩]⟩,
  ⟨Reg.BERTH_RX_CAL, 4, 1, .posted, 0x0, 0x0, 0x1, 0x0, []⟩,
  ⟨Reg.BERTH_RX_AGC, 4, 1, .plain, 0x0, 0x0, 0x0, 0x0, []⟩,
  ⟨Reg.BERTH_RX_TRACK, 4, 1, .plain, 0x0, 0x0, 0x0, 0x0, []⟩,
  ⟨Reg.BERTH_RX_FLOOR_SEL, 4, 1, .posted, 0x3F, 0x0, 0x0, 0x0, []⟩,
  ⟨Reg.BERTH_RX_FLOOR, 4, 1, .plain, 0x0, 0x0, 0x0, 0x0, []⟩,
  ⟨Reg.BERTH_RX_DEMODS, 4, 1, .plain, 0x0, 0x0, 0x0, 0x0, []⟩,
  ⟨Reg.BERTH_RX_OK_CNT, 4, 1, .plain, 0x0, 0x0, 0x0, 0x0, []⟩,
  ⟨Reg.BERTH_RX_SYNC_CNT, 4, 1, .plain, 0x0, 0x0, 0x0, 0x0, []⟩,
  ⟨Reg.BERTH_RX_FALSE_SYNC_CNT, 4, 1, .plain, 0x0, 0x0, 0x0, 0x0, []⟩,
  ⟨Reg.BERTH_RX_PHR_ERR_CNT, 4, 1, .plain, 0x0, 0x0, 0x0, 0x0, []⟩,
  ⟨Reg.BERTH_RX_MODE_SWITCH_CNT, 4, 1, .plain, 0x0, 0x0, 0x0, 0x0, []⟩,
  ⟨Reg.BERTH_RX_FCS_ERR_CNT, 4, 1, .plain, 0x0, 0x0, 0x0, 0x0, []⟩,
  ⟨Reg.BERTH_RX_RECAPTURE_CNT, 4, 1, .plain, 0x0, 0x0, 0x0, 0x0, []⟩,
  ⟨Reg.BERTH_RX_SUSTAIN_CNT, 4, 1, .plain, 0x0, 0x0, 0x0, 0x0, []⟩,
  ⟨Reg.BERTH_RX_BLANKED_CNT, 4, 1, .plain, 0x0, 0x0, 0x0, 0x0, []⟩,
  ⟨Reg.BERTH_RX_CLIP_CNT, 4, 1, .plain, 0x0, 0x0, 0x0, 0x0, []⟩]

/-- Rows of the BERTH block, part 1. -/
def Rows.berth1 : List RegRow := [
  ⟨Reg.BERTH_RX_CLIP_LOSS_CNT, 4, 1, .plain, 0x0, 0x0, 0x0, 0x0, []⟩,
  ⟨Reg.BERTH_RX_DEC_LATE_CNT, 4, 1, .plain, 0x0, 0x0, 0x0, 0x0, []⟩,
  ⟨Reg.BERTH_RX_CONFIG_ABORT_CNT, 4, 1, .plain, 0x0, 0x0, 0x0, 0x0, []⟩,
  ⟨Reg.BERTH_RX_POISON_CNT, 4, 1, .plain, 0x0, 0x0, 0x0, 0x0, []⟩,
  ⟨Reg.BERTH_CNT_SAT, 4, 1, .plain, 0x0, 0x3FFF3FFF, 0x0, 0x0, []⟩,
  ⟨Reg.BERTH_RX_CH, 4, 48, .buffered, 0x3FF1F, 0x0, 0x0, 0x1000000, []⟩,
  ⟨Reg.BERTH_TX_CTRL, 4, 1, .buffered, 0x1, 0x0, 0x0, 0x0, []⟩,
  ⟨Reg.BERTH_TX_CFG, 4, 1, .buffered, 0xFFFF, 0x0, 0x0, 0x8, [⟨0, 9, .range 4 1000⟩, ⟨12, 13, .range 0 2⟩]⟩,
  ⟨Reg.BERTH_TX_CF0, 4, 1, .buffered, 0x3FFFFF, 0x0, 0x0, 0xD2B95, []⟩,
  ⟨Reg.BERTH_TX_PWR, 4, 1, .buffered, 0xFFFF, 0x0, 0x0, 0x28, []⟩,
  ⟨Reg.BERTH_TX_RAMP, 4, 1, .buffered, 0x3F, 0x0, 0x0, 0x8, [⟨0, 5, .range 2 32⟩]⟩,
  ⟨Reg.BERTH_TX_RAMP0, 4, 1, .buffered, 0xFFFFFFFF, 0x0, 0x0, 0x804F250A, []⟩,
  ⟨Reg.BERTH_TX_RAMP1, 4, 1, .buffered, 0xFFFFFFFF, 0x0, 0x0, 0xFFF5DAB0, []⟩,
  ⟨Reg.BERTH_TX_FEM, 4, 1, .buffered, 0xFFFFF, 0x0, 0x0, 0xA14, [⟨0, 7, .range 0 140⟩, ⟨8, 15, .range 0 140⟩]⟩,
  ⟨Reg.BERTH_TX_SYN_CFG, 4, 1, .posted, 0xFFFFFF, 0x0, 0x0, 0xA0258, [⟨0, 15, .range 10 65535⟩, ⟨16, 23, .range 2 40⟩]⟩,
  ⟨Reg.BERTH_TX_SYN_STATE, 4, 1, .plain, 0x0, 0x0, 0x0, 0x0, []⟩,
  ⟨Reg.BERTH_TX_MON, 4, 1, .posted, 0x3F, 0x0, 0x0, 0x28, [⟨0, 5, .range 20 60⟩]⟩,
  ⟨Reg.BERTH_TX_TAP_ADDR, 4, 1, .posted, 0x1FF, 0x0, 0x0, 0x0, []⟩,
  ⟨Reg.BERTH_TX_TAP_DATA, 4, 1, .posted, 0xFFFF, 0x0, 0x0, 0x0, []⟩,
  ⟨Reg.BERTH_TX_FRAME_CNT, 4, 1, .plain, 0x0, 0x0, 0x0, 0x0, []⟩,
  ⟨Reg.BERTH_TX_ACK_CNT, 4, 1, .plain, 0x0, 0x0, 0x0, 0x0, []⟩,
  ⟨Reg.BERTH_TX_LOCK_MISS_CNT, 4, 1, .plain, 0x0, 0x0, 0x0, 0x0, []⟩,
  ⟨Reg.BERTH_TX_DUTY_DEFER_CNT, 4, 1, .plain, 0x0, 0x0, 0x0, 0x0, []⟩,
  ⟨Reg.BERTH_TX_LBT_BUSY_CNT, 4, 1, .plain, 0x0, 0x0, 0x0, 0x0, []⟩]

/-- Rows of the BERTH block, part 2. -/
def Rows.berth2 : List RegRow := [
  ⟨Reg.BERTH_TX_COEX_DENY_CNT, 4, 1, .plain, 0x0, 0x0, 0x0, 0x0, []⟩,
  ⟨Reg.BERTH_TX_COUPLE_DEFER_CNT, 4, 1, .plain, 0x0, 0x0, 0x0, 0x0, []⟩,
  ⟨Reg.BERTH_TX_UNAVAIL_CNT, 4, 1, .plain, 0x0, 0x0, 0x0, 0x0, []⟩,
  ⟨Reg.BERTH_TX_UNDERRUN_CNT, 4, 1, .plain, 0x0, 0x0, 0x0, 0x0, []⟩,
  ⟨Reg.BERTH_TX_POISON_CNT, 4, 1, .plain, 0x0, 0x0, 0x0, 0x0, []⟩,
  ⟨Reg.BERTH_TX_FENCE_ABORT_CNT, 4, 1, .plain, 0x0, 0x0, 0x0, 0x0, []⟩,
  ⟨Reg.BERTH_TX_REG_REFUSE_CNT, 4, 1, .plain, 0x0, 0x0, 0x0, 0x0, []⟩,
  ⟨Reg.BERTH_TX_PWR_CLIP_CNT, 4, 1, .plain, 0x0, 0x0, 0x0, 0x0, []⟩,
  ⟨Reg.BERTH_TX_MASK_VIOL_CNT, 4, 1, .plain, 0x0, 0x0, 0x0, 0x0, []⟩,
  ⟨Reg.BERTH_TX_MASK, 4, 8, .buffered, 0x803FFFFF, 0x0, 0x0, 0x0, []⟩]

/-- The rows of the BERTH block. -/
def Rows.berth : List RegRow := Rows.berth0 ++ Rows.berth1 ++ Rows.berth2

/-- Rows of the BCOM block, part 0. -/
def Rows.bcom0 : List RegRow := [
  ⟨Reg.BCOM_STATUS, 4, 1, .plain, 0x0, 0x828, 0x0, 0x0, []⟩,
  ⟨Reg.BCOM_COEX_CFG, 4, 2, .posted, 0x3FF1F, 0x0, 0x0, 0x6400, [⟨8, 17, .range 10 1000⟩]⟩,
  ⟨Reg.BCOM_COEX_STATE, 4, 1, .plain, 0x0, 0x0, 0x0, 0x0, []⟩,
  ⟨Reg.BCOM_TX_MAXCONC, 4, 1, .posted, 0x7, 0x0, 0x0, 0x6, [⟨0, 2, .range 1 6⟩]⟩,
  ⟨Reg.BCOM_COUPLE_LIMIT, 4, 1, .posted, 0xFF, 0x0, 0x0, 0xE2, []⟩,
  ⟨Reg.BCOM_COUPLE, 4, 36, .posted, 0x37F, 0x0, 0x0, 0x7F, [⟨8, 9, .range 0 2⟩]⟩,
  ⟨Reg.BCOM_DUTY_USED, 8, 8, .posted, 0x0, 0x0, 0xFFFFFFFF, 0x0, []⟩,
  ⟨Reg.BCOM_DUTY_RESV, 8, 8, .posted, 0x3FFF, 0x0, 0x0, 0x0, []⟩,
  ⟨Reg.BCOM_PROF_CTRL, 4, 1, .plain, 0x0, 0x0, 0x80000000, 0x0, []⟩,
  ⟨Reg.BCOM_SET_CLIP_CNT, 4, 1, .plain, 0x0, 0x0, 0x0, 0x0, []⟩,
  ⟨Reg.BCOM_CNT_SAT, 4, 1, .plain, 0x0, 0x1, 0x0, 0x0, []⟩,
  ⟨Reg.BCOM_PROF, 4, 120, .plain, 0xFFFFFFFF, 0x0, 0x0, 0x0, []⟩]

/-- The rows of the BCOM block. -/
def Rows.bcom : List RegRow := Rows.bcom0

/-- Rows of the MAC block, part 0. -/
def Rows.mac0 : List RegRow := [
  ⟨Reg.MAC_STATUS, 4, 1, .plain, 0x0, 0x68, 0x0, 0x0, []⟩,
  ⟨Reg.MAC_CTRL, 4, 1, .buffered, 0x771F, 0x0, 0x0, 0x2, [⟨8, 10, .oneOf [0, 5, 6]⟩, ⟨12, 14, .oneOf [0, 5, 6]⟩]⟩,
  ⟨Reg.MAC_PAN, 4, 1, .buffered, 0xFFFFFFFF, 0x0, 0x0, 0xFFFEFFFF, []⟩,
  ⟨Reg.MAC_TS_CCA_OFS, 4, 1, .buffered, 0x1FFFF, 0x0, 0x0, 0x708, []⟩,
  ⟨Reg.MAC_TS_CCA, 4, 1, .buffered, 0x1FFFF, 0x0, 0x0, 0x80, []⟩,
  ⟨Reg.MAC_TS_TX_OFS, 4, 1, .buffered, 0x1FFFF, 0x0, 0x0, 0x848, []⟩,
  ⟨Reg.MAC_TS_RX_OFS, 4, 1, .buffered, 0x1FFFF, 0x0, 0x0, 0x3FC, []⟩,
  ⟨Reg.MAC_TS_RX_ACK_DELAY, 4, 1, .buffered, 0x1FFFF, 0x0, 0x0, 0x320, []⟩,
  ⟨Reg.MAC_TS_TX_ACK_DELAY, 4, 1, .buffered, 0x1FFFF, 0x0, 0x0, 0x3E8, []⟩,
  ⟨Reg.MAC_TS_RX_WAIT, 4, 1, .buffered, 0x1FFFF, 0x0, 0x0, 0x898, []⟩,
  ⟨Reg.MAC_TS_ACK_WAIT, 4, 1, .buffered, 0x1FFFF, 0x0, 0x0, 0x190, []⟩,
  ⟨Reg.MAC_TS_RXTX, 4, 1, .plain, 0x0, 0x0, 0x0, 0x96, []⟩,
  ⟨Reg.MAC_TS_MAX_ACK, 4, 1, .buffered, 0x1FFFF, 0x0, 0x0, 0x960, []⟩,
  ⟨Reg.MAC_TS_MAX_TX, 4, 1, .buffered, 0x1FFFF, 0x0, 0x0, 0x36B0, []⟩,
  ⟨Reg.MAC_TS_ID, 4, 1, .buffered, 0xFF, 0x0, 0x0, 0x1, []⟩,
  ⟨Reg.MAC_EB_CFG, 4, 1, .buffered, 0x7FFFFF, 0x0, 0x0, 0xC8, [⟨0, 15, .range 1 65535⟩]⟩,
  ⟨Reg.MAC_BA_CFG, 4, 1, .buffered, 0x777FF3F, 0x0, 0x0, 0x400004, [⟨0, 5, .range 1 63⟩, ⟨16, 18, .range 0 3⟩, ⟨20, 22, .range 4 5⟩, ⟨24, 26, .range 0 3⟩]⟩,
  ⟨Reg.MAC_DRIFT_CFG, 4, 1, .buffered, 0x7FFFF0F, 0x0, 0x0, 0x3206403, [⟨0, 3, .range 1 8⟩, ⟨8, 15, .range 10 255⟩, ⟨16, 26, .range 100 1100⟩]⟩,
  ⟨Reg.MAC_NBR_CFG, 4, 1, .buffered, 0xFF0F, 0x0, 0x0, 0x8003, [⟨0, 3, .range 1 15⟩, ⟨8, 15, .range 1 255⟩]⟩,
  ⟨Reg.MAC_TX_CFG, 4, 1, .buffered, 0xFFFF077F, 0x0, 0x0, 0x400517, [⟨16, 31, .range 1 65535⟩]⟩,
  ⟨Reg.MAC_POLICY, 4, 1, .buffered, 0x77, 0x0, 0x0, 0x42, [⟨0, 2, .range 0 4⟩]⟩,
  ⟨Reg.MAC_AUTO_CFG, 4, 1, .buffered, 0xF1, 0x0, 0x0, 0x10, []⟩,
  ⟨Reg.MAC_COMMIT, 4, 1, .buffered, 0x0, 0x0, 0x1, 0x0, []⟩,
  ⟨Reg.MAC_CELL_ADDR, 4, 1, .plain, 0x10FFF, 0x0, 0x0, 0x0, []⟩]

/-- Rows of the MAC block, part 1. -/
def Rows.mac1 : List RegRow := [
  ⟨Reg.MAC_CELL_DATA0, 4, 1, .plain, 0x1FFFFFFF, 0x0, 0x0, 0x0, []⟩,
  ⟨Reg.MAC_CELL_DATA1, 4, 1, .plain, 0x3FFF01FF, 0x0, 0x0, 0x3FFF0000, []⟩,
  ⟨Reg.MAC_HOP_ADDR, 4, 1, .plain, 0x101FF, 0x0, 0x0, 0x0, []⟩,
  ⟨Reg.MAC_HOP_DATA, 4, 1, .plain, 0x3FF, 0x0, 0x0, 0x0, []⟩,
  ⟨Reg.MAC_NBR_SEL, 4, 1, .plain, 0x3FFF, 0x0, 0x0, 0x3FFF, []⟩,
  ⟨Reg.MAC_NBR_DRIFT, 4, 1, .plain, 0x0, 0x0, 0x0, 0x0, []⟩,
  ⟨Reg.MAC_NBR_OFFSET, 4, 1, .plain, 0x0, 0x0, 0x0, 0x0, []⟩,
  ⟨Reg.MAC_SF_CFG, 4, 16, .buffered, 0xFFFF1FF7, 0x0, 0x0, 0xFF0000, [⟨16, 31, .slotframe⟩]⟩,
  ⟨Reg.MAC_HOP_CFG, 4, 2, .buffered, 0xFFFF01FF, 0x0, 0x0, 0x1, [⟨0, 8, .range 1 256⟩, ⟨16, 31, .range 0 255⟩]⟩,
  ⟨Reg.MAC_RX_ACCEPT_CNT, 4, 1, .plain, 0x0, 0x0, 0x0, 0x0, []⟩,
  ⟨Reg.MAC_RX_DROP_CNT, 4, 1, .plain, 0x0, 0x0, 0x0, 0x0, []⟩,
  ⟨Reg.MAC_RX_OFFWIN_CNT, 4, 1, .plain, 0x0, 0x0, 0x0, 0x0, []⟩,
  ⟨Reg.MAC_RX_OFFCELL_CNT, 4, 1, .plain, 0x0, 0x0, 0x0, 0x0, []⟩,
  ⟨Reg.MAC_RX_SEC_FAIL_CNT, 4, 1, .plain, 0x0, 0x0, 0x0, 0x0, []⟩,
  ⟨Reg.MAC_RX_DUP_CNT, 4, 1, .plain, 0x0, 0x0, 0x0, 0x0, []⟩,
  ⟨Reg.MAC_REPLAY_CNT, 4, 1, .plain, 0x0, 0x0, 0x0, 0x0, []⟩,
  ⟨Reg.MAC_ACK_TX_CNT, 4, 1, .plain, 0x0, 0x0, 0x0, 0x0, []⟩,
  ⟨Reg.MAC_ACK_LATE_CNT, 4, 1, .plain, 0x0, 0x0, 0x0, 0x0, []⟩,
  ⟨Reg.MAC_NACK_CNT, 4, 1, .plain, 0x0, 0x0, 0x0, 0x0, []⟩,
  ⟨Reg.MAC_ACK_MISS_CNT, 4, 1, .plain, 0x0, 0x0, 0x0, 0x0, []⟩,
  ⟨Reg.MAC_BA_TX_CNT, 4, 1, .plain, 0x0, 0x0, 0x0, 0x0, []⟩,
  ⟨Reg.MAC_BA_SUPPRESS_CNT, 4, 1, .plain, 0x0, 0x0, 0x0, 0x0, []⟩,
  ⟨Reg.MAC_BA_BITS_CNT, 4, 1, .plain, 0x0, 0x0, 0x0, 0x0, []⟩,
  ⟨Reg.MAC_EB_TX_CNT, 4, 1, .plain, 0x0, 0x0, 0x0, 0x0, []⟩]

/-- Rows of the MAC block, part 2. -/
def Rows.mac2 : List RegRow := [
  ⟨Reg.MAC_EB_SUPPRESS_CNT, 4, 1, .plain, 0x0, 0x0, 0x0, 0x0, []⟩,
  ⟨Reg.MAC_DRIFT_OUTLIER_CNT, 4, 1, .plain, 0x0, 0x0, 0x0, 0x0, []⟩,
  ⟨Reg.MAC_LINK_FAIL_CNT, 4, 1, .plain, 0x0, 0x0, 0x0, 0x0, []⟩,
  ⟨Reg.MAC_HOLD_CNT, 4, 1, .plain, 0x0, 0x0, 0x0, 0x0, []⟩,
  ⟨Reg.MAC_CNT_SAT, 4, 1, .plain, 0x0, 0x7FFFF, 0x0, 0x0, []⟩]

/-- The rows of the MAC block. -/
def Rows.mac : List RegRow := Rows.mac0 ++ Rows.mac1 ++ Rows.mac2

/-- Rows of the TBL block, part 0. -/
def Rows.tbl0 : List RegRow := [
  ⟨Reg.TBL_STATUS, 4, 1, .plain, 0x0, 0x2A, 0x0, 0x0, []⟩,
  ⟨Reg.TBL_CMD, 4, 1, .plain, 0x0, 0x0, 0x8000FF1F, 0x0, []⟩,
  ⟨Reg.TBL_HANDLE, 4, 1, .plain, 0x3FFFF, 0x0, 0x0, 0x3FFFF, []⟩,
  ⟨Reg.TBL_KEY_LO, 4, 1, .plain, 0xFFFFFFFF, 0x0, 0x0, 0x0, []⟩,
  ⟨Reg.TBL_KEY_HI, 4, 1, .plain, 0xFFFFFFFF, 0x0, 0x0, 0x0, []⟩,
  ⟨Reg.TBL_INFO, 4, 1, .plain, 0x0, 0x0, 0x0, 0x0, []⟩,
  ⟨Reg.TBL_DATA, 4, 16, .plain, 0xFFFFFFFF, 0x0, 0x0, 0x0, []⟩]

/-- The rows of the TBL block. -/
def Rows.tbl : List RegRow := Rows.tbl0

/-- Rows of the ROUTE block, part 0. -/
def Rows.route0 : List RegRow := [
  ⟨Reg.ROUTE_STATUS, 4, 1, .plain, 0x0, 0x28, 0x0, 0x0, []⟩,
  ⟨Reg.ROUTE_CTRL, 4, 1, .plain, 0x7, 0x0, 0x18, 0x4, []⟩,
  ⟨Reg.ROUTE_CFG, 4, 1, .plain, 0x7FFFF03, 0x0, 0x0, 0xCFF02, []⟩,
  ⟨Reg.ROUTE_NBR_CFG, 4, 1, .plain, 0xFF0FFFFF, 0x0, 0x0, 0x8030384, [⟨16, 19, .range 1 8⟩]⟩,
  ⟨Reg.ROUTE_TBL_CFG, 4, 1, .plain, 0x3FF, 0x0, 0x0, 0x64, [⟨0, 9, .range 1 1000⟩]⟩,
  ⟨Reg.ROUTE_RPL_INST, 4, 1, .plain, 0xFFFFFFFF, 0x0, 0x0, 0x100F000, [⟨0, 7, .range 0 127⟩, ⟨16, 31, .range 1 65535⟩]⟩,
  ⟨Reg.ROUTE_RPL_TRICKLE, 4, 1, .plain, 0xFF0F1F, 0x0, 0x0, 0x80C, [⟨0, 4, .range 8 20⟩]⟩,
  ⟨Reg.ROUTE_RPL_LIFE, 4, 1, .plain, 0xFFFF00FF, 0x0, 0x0, 0x3C003C, [⟨16, 31, .range 1 65535⟩]⟩,
  ⟨Reg.ROUTE_DODAGID, 4, 4, .plain, 0xFFFFFFFF, 0x0, 0x0, 0x0, []⟩,
  ⟨Reg.ROUTE_PREFIX_HI, 4, 1, .plain, 0xFFFFFFFF, 0x0, 0x0, 0x0, []⟩,
  ⟨Reg.ROUTE_PREFIX_LO, 4, 1, .plain, 0xFFFFFFFF, 0x0, 0x0, 0x0, []⟩,
  ⟨Reg.ROUTE_HASH_SEED0_LO, 4, 1, .plain, 0x0, 0x0, 0x0, 0x0, []⟩,
  ⟨Reg.ROUTE_HASH_SEED0_HI, 4, 1, .plain, 0x0, 0x0, 0x0, 0x0, []⟩,
  ⟨Reg.ROUTE_HASH_SEED1_LO, 4, 1, .plain, 0x0, 0x0, 0x0, 0x0, []⟩,
  ⟨Reg.ROUTE_HASH_SEED1_HI, 4, 1, .plain, 0x0, 0x0, 0x0, 0x0, []⟩,
  ⟨Reg.ROUTE_RGEN, 4, 1, .plain, 0x0, 0x0, 0x0, 0x0, []⟩,
  ⟨Reg.ROUTE_STRAY, 4, 1, .plain, 0x0, 0x0, 0x0, 0x0, []⟩,
  ⟨Reg.ROUTE_WALK_CTRL, 4, 1, .plain, 0x3FFFF, 0x0, 0x80000000, 0x3FFFF, []⟩,
  ⟨Reg.ROUTE_WALK_RESULT, 4, 1, .plain, 0x0, 0x0, 0x0, 0xFFFC0000, []⟩,
  ⟨Reg.ROUTE_WALK_HOP, 4, 24, .plain, 0x0, 0x0, 0x0, 0x3FFFF, []⟩,
  ⟨Reg.ROUTE_DAO_CNT, 4, 1, .plain, 0x0, 0x0, 0x0, 0x0, []⟩,
  ⟨Reg.ROUTE_DAO_DROP_CNT, 4, 1, .plain, 0x0, 0x0, 0x0, 0x0, []⟩,
  ⟨Reg.ROUTE_DAO_STALE_CNT, 4, 1, .plain, 0x0, 0x0, 0x0, 0x0, []⟩,
  ⟨Reg.ROUTE_WALK_FAIL_CNT, 4, 1, .plain, 0x0, 0x0, 0x0, 0x0, []⟩]

/-- Rows of the ROUTE block, part 1. -/
def Rows.route1 : List RegRow := [
  ⟨Reg.ROUTE_LOOP_CNT, 4, 1, .plain, 0x0, 0x0, 0x0, 0x0, []⟩,
  ⟨Reg.ROUTE_MISSING_CNT, 4, 1, .plain, 0x0, 0x0, 0x0, 0x0, []⟩,
  ⟨Reg.ROUTE_FLOOD_CNT, 4, 1, .plain, 0x0, 0x0, 0x0, 0x0, []⟩,
  ⟨Reg.ROUTE_INSERT_FAIL_CNT, 4, 1, .plain, 0x0, 0x0, 0x0, 0x0, []⟩,
  ⟨Reg.ROUTE_NBR_FULL_CNT, 4, 1, .plain, 0x0, 0x0, 0x0, 0x0, []⟩,
  ⟨Reg.ROUTE_REHOME_CNT, 4, 1, .plain, 0x0, 0x0, 0x0, 0x0, []⟩,
  ⟨Reg.ROUTE_ARB_LATE_CNT, 4, 1, .plain, 0x0, 0x0, 0x0, 0x0, []⟩,
  ⟨Reg.ROUTE_SUSPECT_CNT, 4, 1, .plain, 0x0, 0x0, 0x0, 0x0, []⟩,
  ⟨Reg.ROUTE_STRAY_FULL_CNT, 4, 1, .plain, 0x0, 0x0, 0x0, 0x0, []⟩,
  ⟨Reg.ROUTE_DIO_CNT, 4, 1, .plain, 0x0, 0x0, 0x0, 0x0, []⟩,
  ⟨Reg.ROUTE_CNT_SAT, 4, 1, .plain, 0x0, 0x3FFF, 0x0, 0x0, []⟩]

/-- The rows of the ROUTE block. -/
def Rows.route : List RegRow := Rows.route0 ++ Rows.route1

/-- Rows of the SVC block, part 0. -/
def Rows.svc0 : List RegRow := [
  ⟨Reg.SVC_STATUS, 4, 1, .plain, 0x0, 0x28, 0x0, 0x0, []⟩,
  ⟨Reg.SVC_CTRL, 4, 1, .plain, 0x7, 0x0, 0x0, 0x4, []⟩,
  ⟨Reg.SVC_COAP_CFG, 4, 1, .plain, 0xFFFFF, 0x0, 0x0, 0x41F40, [⟨0, 15, .range 1000 60000⟩, ⟨16, 19, .range 1 15⟩]⟩,
  ⟨Reg.SVC_COAP_WAIT, 4, 1, .plain, 0xFFF, 0x0, 0x0, 0x78, [⟨0, 11, .range 1 3600⟩]⟩,
  ⟨Reg.SVC_PORT, 4, 1, .plain, 0xFFFFFFFF, 0x0, 0x0, 0x16331633, []⟩,
  ⟨Reg.SVC_TIMED_CFG, 4, 1, .plain, 0xFFFFFF, 0x0, 0x0, 0x501F4, [⟨0, 15, .range 1 65535⟩, ⟨16, 23, .range 1 255⟩]⟩,
  ⟨Reg.SVC_SEAL_CFG, 4, 1, .plain, 0xF, 0x0, 0x0, 0x0, []⟩,
  ⟨Reg.SVC_UP_CFG, 4, 1, .plain, 0xFFFF07FF, 0x0, 0x0, 0x640000, [⟨0, 7, .zeroOr 65 95⟩, ⟨16, 31, .range 1 10000⟩]⟩,
  ⟨Reg.SVC_GROUP_CFG, 4, 1, .plain, 0xFFF3FFFF, 0x0, 0x0, 0x10000040, [⟨20, 31, .range 1 4095⟩]⟩,
  ⟨Reg.SVC_MPL_CFG, 4, 1, .plain, 0xF0F0F1F, 0x0, 0x0, 0x300030C, [⟨0, 4, .range 6 16⟩, ⟨24, 27, .range 1 15⟩]⟩,
  ⟨Reg.SVC_RAW_CFG, 4, 1, .plain, 0x3, 0x0, 0x0, 0x0, []⟩,
  ⟨Reg.SVC_GROUP_SEL, 4, 1, .plain, 0xFFF, 0x0, 0x0, 0x0, []⟩,
  ⟨Reg.SVC_GROUP_INFO, 4, 1, .plain, 0x7000000, 0x0, 0x0, 0x0, []⟩,
  ⟨Reg.SVC_MID_NEXT, 4, 1, .plain, 0x0, 0x0, 0x0, 0x0, []⟩,
  ⟨Reg.SVC_FRAG, 4, 1, .plain, 0x0, 0x0, 0x0, 0x0, []⟩,
  ⟨Reg.SVC_USAGE, 4, 1, .plain, 0x0, 0x0, 0x0, 0x0, []⟩,
  ⟨Reg.SVC_TXN_OK_CNT, 4, 1, .plain, 0x0, 0x0, 0x0, 0x0, []⟩,
  ⟨Reg.SVC_TXN_TIMEOUT_CNT, 4, 1, .plain, 0x0, 0x0, 0x0, 0x0, []⟩,
  ⟨Reg.SVC_COAP_RETX_CNT, 4, 1, .plain, 0x0, 0x0, 0x0, 0x0, []⟩,
  ⟨Reg.SVC_TXN_FULL_CNT, 4, 1, .plain, 0x0, 0x0, 0x0, 0x0, []⟩,
  ⟨Reg.SVC_TOO_LATE_CNT, 4, 1, .plain, 0x0, 0x0, 0x0, 0x0, []⟩,
  ⟨Reg.SVC_UP_RX_CNT, 4, 1, .plain, 0x0, 0x0, 0x0, 0x0, []⟩,
  ⟨Reg.SVC_UP_DUP_CNT, 4, 1, .plain, 0x0, 0x0, 0x0, 0x0, []⟩,
  ⟨Reg.SVC_UP_NOACK_CNT, 4, 1, .plain, 0x0, 0x0, 0x0, 0x0, []⟩]

/-- Rows of the SVC block, part 1. -/
def Rows.svc1 : List RegRow := [
  ⟨Reg.SVC_ORPHAN_CNT, 4, 1, .plain, 0x0, 0x0, 0x0, 0x0, []⟩,
  ⟨Reg.SVC_SEAL_FAIL_CNT, 4, 1, .plain, 0x0, 0x0, 0x0, 0x0, []⟩,
  ⟨Reg.SVC_SEAL_REPLAY_CNT, 4, 1, .plain, 0x0, 0x0, 0x0, 0x0, []⟩,
  ⟨Reg.SVC_UNSEALED_DROP_CNT, 4, 1, .plain, 0x0, 0x0, 0x0, 0x0, []⟩,
  ⟨Reg.SVC_REASM_TIMEOUT_CNT, 4, 1, .plain, 0x0, 0x0, 0x0, 0x0, []⟩,
  ⟨Reg.SVC_REASM_FULL_CNT, 4, 1, .plain, 0x0, 0x0, 0x0, 0x0, []⟩,
  ⟨Reg.SVC_REASM_ERR_CNT, 4, 1, .plain, 0x0, 0x0, 0x0, 0x0, []⟩,
  ⟨Reg.SVC_RX_DROP_CNT, 4, 1, .plain, 0x0, 0x0, 0x0, 0x0, []⟩,
  ⟨Reg.SVC_DGRAM_RX_CNT, 4, 1, .plain, 0x0, 0x0, 0x0, 0x0, []⟩,
  ⟨Reg.SVC_MPL_TX_CNT, 4, 1, .plain, 0x0, 0x0, 0x0, 0x0, []⟩,
  ⟨Reg.SVC_FANOUT_FAIL_CNT, 4, 1, .plain, 0x0, 0x0, 0x0, 0x0, []⟩,
  ⟨Reg.SVC_RAW_DROP_CNT, 4, 1, .plain, 0x0, 0x0, 0x0, 0x0, []⟩,
  ⟨Reg.SVC_FRAG_ABORT_CNT, 4, 1, .plain, 0x0, 0x0, 0x0, 0x0, []⟩,
  ⟨Reg.SVC_RAW_RX_CNT, 4, 1, .plain, 0x0, 0x0, 0x0, 0x0, []⟩,
  ⟨Reg.SVC_CNT_SAT, 4, 1, .plain, 0x0, 0x3FFFFF, 0x0, 0x0, []⟩]

/-- The rows of the SVC block. -/
def Rows.svc : List RegRow := Rows.svc0 ++ Rows.svc1

/-- Rows of the RING block, part 0. -/
def Rows.ring0 : List RegRow := [
  ⟨Reg.RING_STATUS, 4, 1, .plain, 0x0, 0x228, 0x0, 0x0, []⟩,
  ⟨Reg.RING_FN_CTRL, 4, 1, .plain, 0xFFFF, 0x0, 0x0, 0x2710, [⟨0, 15, .zeroOr 100 60000⟩]⟩,
  ⟨Reg.RING_NUDGE, 4, 1, .plain, 0x0, 0x0, 0xFFFFFFFF, 0x0, []⟩,
  ⟨Reg.RING_POLL, 4, 1, .plain, 0x3FF, 0x0, 0x0, 0x64, [⟨0, 9, .range 0 1000⟩]⟩,
  ⟨Reg.RING_DB_LO, 4, 1, .buffered, 0xFFFFFFC1, 0x0, 0x0, 0x0, []⟩,
  ⟨Reg.RING_DB_HI, 4, 1, .buffered, 0xFFFFFFFF, 0x0, 0x0, 0x0, []⟩,
  ⟨Reg.RING_SB_LO, 4, 1, .buffered, 0xFFFFFFC1, 0x0, 0x0, 0x0, []⟩,
  ⟨Reg.RING_SB_HI, 4, 1, .buffered, 0xFFFFFFFF, 0x0, 0x0, 0x0, []⟩,
  ⟨Reg.RING_LIVE, 4, 1, .plain, 0x0, 0x0, 0xFFFFFFFF, 0x0, []⟩,
  ⟨Reg.RING_ERR, 4, 1, .plain, 0x0, 0xFF, 0x0, 0x0, []⟩,
  ⟨Reg.RING_BASE_LO, 32, 8, .buffered, 0xFFFFFFC0, 0x0, 0x0, 0x0, []⟩,
  ⟨Reg.RING_BASE_HI, 32, 8, .buffered, 0xFFFFFFFF, 0x0, 0x0, 0x0, []⟩,
  ⟨Reg.RING_SIZE, 32, 8, .buffered, 0x1F, 0x0, 0x0, 0x6, [⟨0, 4, .range 6 16⟩]⟩,
  ⟨Reg.RING_CTRL, 32, 8, .plain, 0x1, 0x0, 0x6, 0x0, []⟩,
  ⟨Reg.RING_HEAD, 32, 8, .plain, 0x0, 0x0, 0x0, 0x0, []⟩,
  ⟨Reg.RING_TAIL, 32, 8, .plain, 0x0, 0x0, 0x0, 0x0, []⟩,
  ⟨Reg.RING_MOD, 32, 8, .plain, 0xFFFFFF1F, 0x0, 0x0, 0x110, []⟩,
  ⟨Reg.RING_DESC_CNT, 4, 1, .plain, 0x0, 0x0, 0x0, 0x0, []⟩,
  ⟨Reg.RING_ENTRY_CNT, 4, 1, .plain, 0x0, 0x0, 0x0, 0x0, []⟩,
  ⟨Reg.RING_HELD_CNT, 4, 1, .plain, 0x0, 0x0, 0x0, 0x0, []⟩,
  ⟨Reg.RING_LOST_CNT, 4, 1, .plain, 0x0, 0x0, 0x0, 0x0, []⟩,
  ⟨Reg.RING_PREEMPT_CNT, 4, 1, .plain, 0x0, 0x0, 0x0, 0x0, []⟩,
  ⟨Reg.RING_PAUSE_CNT, 4, 1, .plain, 0x0, 0x0, 0x0, 0x0, []⟩,
  ⟨Reg.RING_CNT_SAT, 4, 1, .plain, 0x0, 0x3F, 0x0, 0x0, []⟩]

/-- Rows of the RING block, part 1. -/
def Rows.ring1 : List RegRow := [
  ⟨Reg.RING_GRANT, 4, 8, .plain, 0x1FFFFF, 0x0, 0x0, 0x0, []⟩,
  ⟨Reg.RING_STEV_CFG, 4, 1, .plain, 0x1F, 0x0, 0x0, 0x14, [⟨0, 3, .range 1 8⟩]⟩,
  ⟨Reg.RING_STEV_STATE, 4, 1, .plain, 0x0, 0x0, 0x0, 0x0, []⟩,
  ⟨Reg.RING_FN_STATE, 4, 1, .plain, 0x0, 0x0, 0x0, 0x0, []⟩]

/-- The rows of the RING block. -/
def Rows.ring : List RegRow := Rows.ring0 ++ Rows.ring1

/-- Rows of the XLATE block, part 0. -/
def Rows.xlate0 : List RegRow := [
  ⟨Reg.XLATE_STATUS, 4, 1, .plain, 0x0, 0x28, 0x0, 0x0, []⟩,
  ⟨Reg.XLATE_CTRL, 4, 1, .plain, 0xFFFF0001, 0x0, 0x0, 0x3E80001, [⟨16, 31, .range 10 65535⟩]⟩,
  ⟨Reg.XLATE_INV, 4, 1, .plain, 0x0, 0x0, 0x1, 0x0, []⟩,
  ⟨Reg.XLATE_ATC_HIT_CNT, 4, 1, .plain, 0x0, 0x0, 0x0, 0x0, []⟩,
  ⟨Reg.XLATE_ATC_MISS_CNT, 4, 1, .plain, 0x0, 0x0, 0x0, 0x0, []⟩,
  ⟨Reg.XLATE_PRI_CNT, 4, 1, .plain, 0x0, 0x0, 0x0, 0x0, []⟩,
  ⟨Reg.XLATE_FAULT_CNT, 4, 1, .plain, 0x0, 0x0, 0x0, 0x0, []⟩,
  ⟨Reg.XLATE_INV_CNT, 4, 1, .plain, 0x0, 0x0, 0x0, 0x0, []⟩,
  ⟨Reg.XLATE_CNT_SAT, 4, 1, .plain, 0x0, 0x1F, 0x0, 0x0, []⟩,
  ⟨Reg.XLATE_FAULT_INFO, 32, 16, .plain, 0x0, 0x0, 0x0, 0x0, []⟩,
  ⟨Reg.XLATE_FAULT_ADDR_LO, 32, 16, .plain, 0x0, 0x0, 0x0, 0x0, []⟩,
  ⟨Reg.XLATE_FAULT_ADDR_HI, 32, 16, .plain, 0x0, 0x0, 0x0, 0x0, []⟩,
  ⟨Reg.XLATE_FAULT_OFFSET, 32, 16, .plain, 0x0, 0x0, 0x0, 0x0, []⟩,
  ⟨Reg.XLATE_FAULT_REMAIN, 32, 16, .plain, 0x0, 0x0, 0x0, 0x0, []⟩,
  ⟨Reg.XLATE_FAULT_HOST_TAG, 32, 16, .plain, 0x0, 0x0, 0x0, 0x0, []⟩,
  ⟨Reg.XLATE_FAULT_INDEX, 32, 16, .plain, 0x0, 0x0, 0x0, 0x0, []⟩,
  ⟨Reg.XLATE_FAULT_ACTION, 32, 16, .plain, 0x0, 0x0, 0x3, 0x0, []⟩]

/-- The rows of the XLATE block. -/
def Rows.xlate : List RegRow := Rows.xlate0

/-- Rows of the CAMP block, part 0. -/
def Rows.camp0 : List RegRow := [
  ⟨Reg.CAMP_STATUS, 4, 1, .plain, 0x0, 0x28, 0x0, 0x0, []⟩,
  ⟨Reg.CAMP_CFG, 4, 1, .plain, 0xF3FF73F, 0x0, 0x0, 0x43F300F, [⟨8, 10, .oneOf [0, 5, 6]⟩, ⟨16, 21, .range 1 63⟩, ⟨24, 27, .range 1 15⟩]⟩,
  ⟨Reg.CAMP_SCHED, 4, 1, .plain, 0xFFFFFFFF, 0x0, 0x0, 0x3C0020, [⟨0, 15, .range 1 65535⟩, ⟨16, 31, .zeroOr 10 65535⟩]⟩,
  ⟨Reg.CAMP_STRIDE, 4, 1, .plain, 0xFFFFFF, 0x0, 0x0, 0x400, [⟨0, 23, .range 64 1048576⟩]⟩,
  ⟨Reg.CAMP_SEL, 4, 1, .plain, 0xFFFF, 0x0, 0x0, 0x0, []⟩,
  ⟨Reg.CAMP_V_NONCE, 4, 1, .plain, 0x0, 0x0, 0x0, 0x0, []⟩,
  ⟨Reg.CAMP_V_STATE, 4, 1, .plain, 0x0, 0x0, 0x0, 0xFF0000, []⟩,
  ⟨Reg.CAMP_V_PERCENT, 4, 1, .plain, 0x0, 0x0, 0x0, 0x0, []⟩,
  ⟨Reg.CAMP_V_POSITION, 4, 1, .plain, 0x0, 0x0, 0x0, 0x0, []⟩,
  ⟨Reg.CAMP_V_TARGETS, 4, 1, .plain, 0x0, 0x0, 0x0, 0x0, []⟩,
  ⟨Reg.CAMP_V_COMPLETE, 4, 1, .plain, 0x0, 0x0, 0x0, 0x0, []⟩,
  ⟨Reg.CAMP_V_REFUSED, 4, 1, .plain, 0x0, 0x0, 0x0, 0x0, []⟩,
  ⟨Reg.CAMP_V_CKPT_SEQ, 4, 1, .plain, 0x0, 0x0, 0x0, 0x0, []⟩,
  ⟨Reg.CAMP_BLK_STATE, 4, 1, .plain, 0x0, 0x0, 0x0, 0x0, []⟩,
  ⟨Reg.CAMP_BLK_LIMIT, 4, 1, .plain, 0x0, 0x0, 0x0, 0x0, []⟩,
  ⟨Reg.CAMP_BLK_K, 4, 1, .plain, 0x0, 0x0, 0x0, 0x0, []⟩,
  ⟨Reg.CAMP_FRAME_CNT, 4, 1, .plain, 0x0, 0x0, 0x0, 0x0, []⟩,
  ⟨Reg.CAMP_SYM_CNT, 4, 1, .plain, 0x0, 0x0, 0x0, 0x0, []⟩,
  ⟨Reg.CAMP_SYM_DROP_CNT, 4, 1, .plain, 0x0, 0x0, 0x0, 0x0, []⟩,
  ⟨Reg.CAMP_REPORT_CNT, 4, 1, .plain, 0x0, 0x0, 0x0, 0x0, []⟩,
  ⟨Reg.CAMP_REPORT_STALE_CNT, 4, 1, .plain, 0x0, 0x0, 0x0, 0x0, []⟩,
  ⟨Reg.CAMP_CKPT_CNT, 4, 1, .plain, 0x0, 0x0, 0x0, 0x0, []⟩,
  ⟨Reg.CAMP_CKPT_WAIT_CNT, 4, 1, .plain, 0x0, 0x0, 0x0, 0x0, []⟩,
  ⟨Reg.CAMP_POISON_CNT, 4, 1, .plain, 0x0, 0x0, 0x0, 0x0, []⟩]

/-- Rows of the CAMP block, part 1. -/
def Rows.camp1 : List RegRow := [
  ⟨Reg.CAMP_CNT_SAT, 4, 1, .plain, 0x0, 0xFF, 0x0, 0x0, []⟩]

/-- The rows of the CAMP block. -/
def Rows.camp : List RegRow := Rows.camp0 ++ Rows.camp1

/-- Rows of the KEY block, part 0. -/
def Rows.key0 : List RegRow := [
  ⟨Reg.KEY_STATUS, 4, 1, .plain, 0x0, 0x28, 0x0, 0x0, []⟩,
  ⟨Reg.KEY_MOULD_K, 4, 4, .plain, 0x0, 0x0, 0xFFFFFFFF, 0x0, []⟩,
  ⟨Reg.KEY_MOULD_CTRL, 4, 1, .posted, 0x73F, 0x0, 0x80000000, 0x0, []⟩,
  ⟨Reg.KEY_GRACE, 4, 1, .plain, 0xFFFF, 0x0, 0x0, 0x12C, [⟨0, 15, .range 1 65535⟩]⟩,
  ⟨Reg.KEY_LINK_CFG, 4, 1, .plain, 0x77F, 0x0, 0x0, 0x0, [⟨4, 6, .oneOf [0, 5, 6]⟩, ⟨8, 10, .oneOf [0, 5, 6]⟩]⟩,
  ⟨Reg.KEY_BCAST_CFG, 4, 1, .plain, 0x3FFFFFFF, 0x0, 0x0, 0x0, []⟩,
  ⟨Reg.KEY_DRBG_CFG, 4, 1, .plain, 0xFFF, 0x0, 0x0, 0x3C, [⟨0, 11, .range 1 3600⟩]⟩,
  ⟨Reg.KEY_SLOT_SEL, 4, 1, .plain, 0xF, 0x0, 0x0, 0x0, []⟩,
  ⟨Reg.KEY_SLOT_STATE, 4, 1, .plain, 0x0, 0x0, 0x0, 0x0, []⟩,
  ⟨Reg.KEY_SLOTS, 4, 1, .plain, 0x0, 0x0, 0x0, 0x0, []⟩,
  ⟨Reg.KEY_CACHE, 4, 1, .plain, 0x0, 0x0, 0x0, 0x0, []⟩,
  ⟨Reg.KEY_NODE_GEN, 4, 1, .posted, 0x3FFFF, 0x0, 0x80000000, 0x3FFFF, []⟩,
  ⟨Reg.KEY_DERIVE_CNT, 4, 1, .plain, 0x0, 0x0, 0x0, 0x0, []⟩,
  ⟨Reg.KEY_STALE_CNT, 4, 1, .plain, 0x0, 0x0, 0x0, 0x0, []⟩,
  ⟨Reg.KEY_GRACE_RX_CNT, 4, 1, .plain, 0x0, 0x0, 0x0, 0x0, []⟩,
  ⟨Reg.KEY_GRACE_REJECT_CNT, 4, 1, .plain, 0x0, 0x0, 0x0, 0x0, []⟩,
  ⟨Reg.KEY_GRACE_DROP_CNT, 4, 1, .plain, 0x0, 0x0, 0x0, 0x0, []⟩,
  ⟨Reg.KEY_CACHE_UE_CNT, 4, 1, .plain, 0x0, 0x0, 0x0, 0x0, []⟩,
  ⟨Reg.KEY_NONCE_GUARD_CNT, 4, 1, .plain, 0x0, 0x0, 0x0, 0x0, []⟩,
  ⟨Reg.KEY_ENTROPY_FAIL_CNT, 4, 1, .plain, 0x0, 0x0, 0x0, 0x0, []⟩,
  ⟨Reg.KEY_ATTEST_CNT, 4, 1, .plain, 0x0, 0x0, 0x0, 0x0, []⟩,
  ⟨Reg.KEY_SLOT_ERR_CNT, 4, 1, .plain, 0x0, 0x0, 0x0, 0x0, []⟩,
  ⟨Reg.KEY_CNT_SAT, 4, 1, .plain, 0x0, 0x3FF, 0x0, 0x0, []⟩]

/-- The rows of the KEY block. -/
def Rows.key : List RegRow := Rows.key0

/-- Rows of the PLINTH block, part 0. -/
def Rows.plinth0 : List RegRow := [
  ⟨Reg.PLINTH_STATUS, 4, 1, .plain, 0x0, 0x28, 0x0, 0x80, []⟩,
  ⟨Reg.PLINTH_TAMPER_CFG, 4, 1, .posted, 0xFFF, 0x0, 0x80000000, 0x440, [⟨0, 1, .range 0 2⟩, ⟨2, 3, .range 0 2⟩, ⟨4, 5, .range 0 2⟩, ⟨6, 7, .range 0 2⟩, ⟨8, 11, .range 1 15⟩]⟩,
  ⟨Reg.PLINTH_TAMPER_SEEN, 4, 1, .plain, 0x0, 0x1F, 0x0, 0x0, []⟩,
  ⟨Reg.PLINTH_TAMPER_NOW, 4, 1, .plain, 0x0, 0x0, 0x0, 0x0, []⟩,
  ⟨Reg.PLINTH_SCUTTLE, 4, 1, .posted, 0x0, 0x0, 0x8000FFFF, 0x0, []⟩,
  ⟨Reg.PLINTH_SCUTTLE_INFO, 4, 1, .plain, 0x0, 0x0, 0x0, 0x0, []⟩,
  ⟨Reg.PLINTH_PROV_CTRL, 4, 1, .posted, 0x7, 0x0, 0x80000000, 0x0, []⟩,
  ⟨Reg.PLINTH_PROV_STATUS, 4, 1, .plain, 0x0, 0x0, 0x0, 0x0, []⟩,
  ⟨Reg.PLINTH_IMGKEY, 4, 8, .plain, 0x0, 0x0, 0xFFFFFFFF, 0x0, []⟩,
  ⟨Reg.PLINTH_SCUTTLE_AT, 4, 1, .plain, 0x0, 0x0, 0x0, 0x0, []⟩,
  ⟨Reg.PLINTH_PUBKEY, 4, 96, .plain, 0x0, 0x0, 0x0, 0x0, []⟩,
  ⟨Reg.PLINTH_KEY_ID, 4, 8, .plain, 0x0, 0x0, 0x0, 0x0, []⟩]

/-- The rows of the PLINTH block. -/
def Rows.plinth : List RegRow := Rows.plinth0

/-- Rows of the HOLD block, part 0. -/
def Rows.hold0 : List RegRow := [
  ⟨Reg.HOLD_STATUS, 4, 1, .plain, 0x0, 0xA8, 0x0, 0x0, []⟩,
  ⟨Reg.HOLD_CE_CFG, 4, 1, .plain, 0xFFFF, 0x0, 0x0, 0x3E8, [⟨0, 15, .range 1 65535⟩]⟩,
  ⟨Reg.HOLD_CUT_CFG, 4, 1, .plain, 0xFFF, 0x0, 0x0, 0x20, [⟨0, 11, .mult 8 2048 8⟩]⟩,
  ⟨Reg.HOLD_FLUSH_CFG, 4, 1, .plain, 0x3FFF, 0x0, 0x0, 0x64, [⟨0, 13, .range 10 10000⟩]⟩,
  ⟨Reg.HOLD_POOL_CFG, 4, 1, .plain, 0xFFFFFFFF, 0x0, 0x0, 0x10000400, [⟨0, 15, .range 0 8192⟩, ⟨16, 31, .range 0 40960⟩]⟩,
  ⟨Reg.HOLD_POOL, 4, 1, .plain, 0x0, 0x0, 0x0, 0xA000A000, []⟩,
  ⟨Reg.HOLD_SELFTEST, 4, 1, .plain, 0x0, 0x0, 0x0, 0x0, []⟩,
  ⟨Reg.HOLD_LAST_UE_LOC, 4, 1, .plain, 0x0, 0x0, 0x0, 0x0, []⟩,
  ⟨Reg.HOLD_LAST_UE_INFO, 4, 1, .plain, 0x0, 0x0, 0x0, 0x0, []⟩,
  ⟨Reg.HOLD_QCMD, 4, 1, .plain, 0x0, 0x0, 0x8000037F, 0x0, []⟩,
  ⟨Reg.HOLD_QSEL, 4, 1, .plain, 0x7F, 0x0, 0x0, 0x0, [⟨0, 6, .range 0 95⟩]⟩,
  ⟨Reg.HOLD_QSTATE, 4, 1, .plain, 0x0, 0x0, 0x0, 0x0, []⟩,
  ⟨Reg.HOLD_LOG_SEL, 4, 1, .plain, 0x1F, 0x0, 0x80000000, 0x0, []⟩,
  ⟨Reg.HOLD_LOG_LOC, 4, 1, .plain, 0x0, 0x0, 0x0, 0x0, []⟩,
  ⟨Reg.HOLD_LOG_INFO, 4, 1, .plain, 0x0, 0x0, 0x0, 0x0, []⟩,
  ⟨Reg.HOLD_REPAIR_CTRL, 4, 1, .plain, 0x0, 0x0, 0x8000F7FF, 0x0, []⟩,
  ⟨Reg.HOLD_REPAIR_STATUS, 4, 1, .plain, 0x0, 0x0, 0x0, 0x0, []⟩,
  ⟨Reg.HOLD_SPARE_SEL, 4, 1, .plain, 0xF, 0x0, 0x0, 0x0, []⟩,
  ⟨Reg.HOLD_SPARE, 4, 1, .plain, 0x0, 0x0, 0x0, 0x0, []⟩,
  ⟨Reg.HOLD_CE_CNT, 4, 1, .plain, 0x0, 0x0, 0x0, 0x0, []⟩,
  ⟨Reg.HOLD_UE_CNT, 4, 1, .plain, 0x0, 0x0, 0x0, 0x0, []⟩,
  ⟨Reg.HOLD_ADDR_ERR_CNT, 4, 1, .plain, 0x0, 0x0, 0x0, 0x0, []⟩,
  ⟨Reg.HOLD_POISON_READ_CNT, 4, 1, .plain, 0x0, 0x0, 0x0, 0x0, []⟩,
  ⟨Reg.HOLD_QRESET_CNT, 4, 1, .plain, 0x0, 0x0, 0x0, 0x0, []⟩]

/-- Rows of the HOLD block, part 1. -/
def Rows.hold1 : List RegRow := [
  ⟨Reg.HOLD_FLUSH_FORCED_CNT, 4, 1, .plain, 0x0, 0x0, 0x0, 0x0, []⟩,
  ⟨Reg.HOLD_POOL_STALL_CNT, 4, 1, .plain, 0x0, 0x0, 0x0, 0x0, []⟩,
  ⟨Reg.HOLD_PILOT_CE_CNT, 4, 1, .plain, 0x0, 0x0, 0x0, 0x0, []⟩,
  ⟨Reg.HOLD_CNT_SAT, 4, 1, .plain, 0x0, 0xFF, 0x0, 0x0, []⟩]

/-- The rows of the HOLD block. -/
def Rows.hold : List RegRow := Rows.hold0 ++ Rows.hold1

/-- Rows of the CLAIM block, part 0. -/
def Rows.claim0 : List RegRow := [
  ⟨Reg.CLAIM_STATUS, 4, 1, .plain, 0x0, 0x400028, 0x0, 0x0, []⟩,
  ⟨Reg.CLAIM_CTRL, 4, 1, .posted, 0x3, 0x0, 0x1C, 0x0, []⟩,
  ⟨Reg.CLAIM_CFG, 4, 1, .posted, 0x7F013FFF, 0x0, 0x0, 0x1000032, [⟨0, 13, .range 10 10000⟩, ⟨24, 30, .range 1 100⟩]⟩,
  ⟨Reg.CLAIM_PRIO, 4, 1, .plain, 0x0, 0x0, 0x0, 0x0, []⟩,
  ⟨Reg.CLAIM_DIAG, 4, 1, .plain, 0x0, 0x0, 0x0, 0x0, []⟩,
  ⟨Reg.CLAIM_CKPT_OUT_SEQ, 4, 1, .plain, 0x0, 0x0, 0x0, 0x0, []⟩,
  ⟨Reg.CLAIM_CKPT_IN_SEQ, 4, 1, .plain, 0x0, 0x0, 0x0, 0x0, []⟩,
  ⟨Reg.CLAIM_PROBE_CNT, 4, 1, .plain, 0x0, 0x0, 0x0, 0x0, []⟩,
  ⟨Reg.CLAIM_CONFLICT_CNT, 4, 1, .plain, 0x0, 0x0, 0x0, 0x0, []⟩,
  ⟨Reg.CLAIM_CKPT_OUT_CNT, 4, 1, .plain, 0x0, 0x0, 0x0, 0x0, []⟩,
  ⟨Reg.CLAIM_CKPT_IN_CNT, 4, 1, .plain, 0x0, 0x0, 0x0, 0x0, []⟩,
  ⟨Reg.CLAIM_CKPT_REJECT_CNT, 4, 1, .plain, 0x0, 0x0, 0x0, 0x0, []⟩,
  ⟨Reg.CLAIM_SHADOW_RX_CNT, 4, 1, .plain, 0x0, 0x0, 0x0, 0x0, []⟩,
  ⟨Reg.CLAIM_CNT_SAT, 4, 1, .plain, 0x0, 0x3F, 0x0, 0x0, []⟩]

/-- The rows of the CLAIM block. -/
def Rows.claim : List RegRow := Rows.claim0

/-- Rows of the FW block, part 0. -/
def Rows.fw0 : List RegRow := [
  ⟨Reg.FW_STATUS, 4, 1, .plain, 0x0, 0x828, 0x0, 0x0, []⟩,
  ⟨Reg.FW_CTRL, 4, 1, .posted, 0x0, 0x0, 0x7, 0x0, []⟩,
  ⟨Reg.FW_STAGE, 4, 1, .plain, 0x0, 0x0, 0x0, 0x0, []⟩,
  ⟨Reg.FW_STAGE_LEN, 4, 1, .plain, 0x0, 0x0, 0x0, 0x0, []⟩,
  ⟨Reg.FW_TRIAL, 4, 1, .plain, 0x0, 0x0, 0x0, 0x0, []⟩,
  ⟨Reg.FW_BOOT_INFO, 4, 1, .plain, 0x0, 0x0, 0x0, 0x0, []⟩,
  ⟨Reg.FW_SECVER, 4, 1, .plain, 0x0, 0x0, 0x0, 0x0, []⟩,
  ⟨Reg.FW_SIGNER, 4, 1, .plain, 0x0, 0x0, 0x0, 0x0, []⟩,
  ⟨Reg.FW_SIGNER_CTRL, 4, 1, .posted, 0x303, 0x0, 0x80000000, 0x0, []⟩,
  ⟨Reg.FW_SIGNER_HASH, 4, 8, .plain, 0x0, 0x0, 0xFFFFFFFF, 0x0, []⟩,
  ⟨Reg.FW_SET_SEL, 4, 1, .plain, 0x3FF, 0x0, 0x0, 0x0, []⟩,
  ⟨Reg.FW_SET_VAL, 4, 1, .buffered, 0xFFFFFFFF, 0x0, 0x0, 0x0, []⟩,
  ⟨Reg.FW_STAGE_BUSY_CNT, 4, 1, .plain, 0x0, 0x0, 0x0, 0x0, []⟩,
  ⟨Reg.FW_LEASE_END_CNT, 4, 1, .plain, 0x0, 0x0, 0x0, 0x0, []⟩,
  ⟨Reg.FW_FALLBACK_CNT, 4, 1, .plain, 0x0, 0x0, 0x0, 0x0, []⟩,
  ⟨Reg.FW_CNT_SAT, 4, 1, .plain, 0x0, 0x7, 0x0, 0x0, []⟩]

/-- The rows of the FW block. -/
def Rows.fw : List RegRow := Rows.fw0

/-- Rows of the BRINGUP block, part 0. -/
def Rows.bringup0 : List RegRow := [
  ⟨Reg.BRINGUP_STATUS, 4, 1, .plain, 0x0, 0x28, 0x0, 0x800, []⟩,
  ⟨Reg.BRINGUP_STALL_LIMIT, 4, 1, .plain, 0x3FFF, 0x0, 0x0, 0x3E8, [⟨0, 13, .range 1 10000⟩]⟩,
  ⟨Reg.BRINGUP_T_SELFTEST, 4, 1, .plain, 0x0, 0x0, 0x0, 0x0, []⟩,
  ⟨Reg.BRINGUP_T_READY, 4, 1, .plain, 0x0, 0x0, 0x0, 0x0, []⟩,
  ⟨Reg.BRINGUP_T_SERVICE, 4, 1, .plain, 0x0, 0x0, 0x0, 0x0, []⟩,
  ⟨Reg.BRINGUP_PORT_CFG, 16, 4, .plain, 0x17F, 0x0, 0x0, 0x0, [⟨0, 6, .range 0 95⟩]⟩,
  ⟨Reg.BRINGUP_PORT_STATUS, 16, 4, .plain, 0x0, 0xE, 0x0, 0x1, []⟩,
  ⟨Reg.BRINGUP_PORT_DATA, 16, 4, .plain, 0x0, 0x0, 0x0, 0x0, []⟩]

/-- The rows of the BRINGUP block. -/
def Rows.bringup : List RegRow := Rows.bringup0

/-- Rows of the TEST block, part 0. -/
def Rows.test0 : List RegRow := [
  ⟨Reg.TEST_STATUS, 4, 1, .plain, 0x0, 0x28, 0x0, 0x0, []⟩,
  ⟨Reg.TEST_CTRL, 4, 1, .plain, 0x1, 0x0, 0x0, 0x0, []⟩,
  ⟨Reg.TEST_RESET, 4, 1, .plain, 0x0, 0x0, 0x8000FFFF, 0x0, []⟩,
  ⟨Reg.TEST_RESET_CAUSE, 4, 1, .plain, 0x0, 0x0, 0x0, 0x0, []⟩,
  ⟨Reg.TEST_DOCK, 4, 1, .posted, 0x307, 0x0, 0x80000000, 0x0, []⟩,
  ⟨Reg.TEST_DOCK_RESULT, 4, 1, .plain, 0x0, 0x0, 0x0, 0x0, []⟩,
  ⟨Reg.TEST_KAT_CFG, 4, 1, .plain, 0xFFF0001, 0x0, 0x0, 0xA0001, [⟨16, 27, .range 1 3600⟩]⟩,
  ⟨Reg.TEST_KAT_LAST, 4, 1, .plain, 0x0, 0x0, 0x0, 0x0, []⟩,
  ⟨Reg.TEST_FENCE, 4, 1, .plain, 0x0, 0x0, 0x8000001F, 0x0, []⟩,
  ⟨Reg.TEST_KAT_CNT, 4, 1, .plain, 0x0, 0x0, 0x0, 0x0, []⟩,
  ⟨Reg.TEST_KAT_FAIL_CNT, 4, 1, .plain, 0x0, 0x0, 0x0, 0x0, []⟩,
  ⟨Reg.TEST_DOCK_CNT, 4, 1, .plain, 0x0, 0x0, 0x0, 0x0, []⟩,
  ⟨Reg.TEST_CNT_SAT, 4, 1, .plain, 0x0, 0x7, 0x0, 0x0, []⟩]

/-- The rows of the TEST block. -/
def Rows.test : List RegRow := Rows.test0

end Sys2Proof.Machine
end

