-- ==== Sys2Proof/Config.lean ====
section
/-!
DEFINITION. What no rule of the spec fixes, as constants without a body: random draws, the standard cryptographic functions
and codes, and what the firmware does where the spec leaves it open. A statement that holds, holds whatever these are.
-/

namespace Sys2Proof.Config

/-- The n-th draw of random bits from the TRNG or the CTR_DRBG (R328). (DESIGN CHOICE, log 3) -/
opaque draw : Nat → BitVec 64

/-- A 256-bit draw, and the RSA-3072 modulus of the n-th GENERATE (R333). (DESIGN CHOICE, log 3) -/
opaque draw256 : Nat → BitVec 256

/-- The modulus of the key pair generated with the n-th draw (R333). -/
opaque modulus : Nat → BitVec 3072

/-- SHA-256 (R335, R389). (DESIGN CHOICE, log 4) -/
opaque sha256 : List Byte → BitVec 256

/-- Whether an RSASSA-PSS signature verifies: modulus octets, exponent, signature octets, message (R388).
(DESIGN CHOICE, log 4) -/
opaque rsaPssOk : List Byte → Nat → List Byte → List Byte → Bool

/-- An RSASSA-PSS signature, 384 octets, by the key of this modulus with the n-th draw as its salt (R336).
(DESIGN CHOICE, log 4) -/
opaque rsaPssSign : BitVec 3072 → Nat → List Byte → List Byte

/-- Whether AES-256-GCM opens: key, IV, additional data, ciphertext, tag (R388). (DESIGN CHOICE, log 4) -/
opaque gcmOpens : BitVec 256 → List Byte → List Byte → List Byte → List Byte → Bool

/-- AES-128-CMAC of octets under a mould (R317). (DESIGN CHOICE, log 4) -/
opaque cmac128 : BitVec 128 → List Byte → BitVec 128

/-- AES-256-CMAC of octets under the root (R317). (DESIGN CHOICE, log 4) -/
opaque cmac256 : BitVec 256 → List Byte → BitVec 128

/-- The repair symbol of RFC 6330 for a source block: symbol size, K, source octets, ESI (R301). (DESIGN CHOICE, log 4) -/
opaque repairSymbol : Nat → Nat → List Byte → Nat → List Byte

/-- ESI_LIMIT of a block whose next ESI plus STRIDE, the argument, does not fit the 24 bits of the record (R309, R310).
(DEDUCED, log 47) -/
opaque campLimit : Nat → BitVec 24

/-- A settings item array converted from one settings format to another (R395). (DESIGN CHOICE, log 4) -/
opaque convert : Nat → Nat → Nat → Word → Word

/-- The hash of Cleoskam's image-signing key, which signer entry 0 holds from the factory (R389). (DESIGN CHOICE, log 5) -/
opaque factorySigner : BitVec 256

/-- The measurement of the maquette's own ROM (R335). -/
opaque romMeasure : BitVec 256

/-- Which way an inexact quotient of these operands is rounded, where no rule says (R63): up, or down. (DESIGN CHOICE, log 13) -/
opaque roundUp : Int → Nat → Bool

/-- The octets of a received PSDU that spells no frame, by its record (R116). (DESIGN CHOICE, log 65) -/
opaque noise : Nat → List Byte

/-- The group delay in ns of channeliser and demodulator for a mode (R78). (DESIGN CHOICE, log 73) -/
opaque groupDelay : Nat → Nat

/-- A value that the spec leaves open, by the state's count of such values. (DESIGN CHOICE, log 3) -/
opaque freeValue : Nat → BitVec 64

end Sys2Proof.Config
end

