-- ==== Sys2Proof/Machine/State.lean ====
section
/-!
DEFINITION. The state of the HJ2618/HJ2614: its register file, its units, its pins, what it has put out, and the queue of
commands that wait; and the state right after reset.
-/

namespace Sys2Proof.Machine

/-- A fault: none. Every command of the block has an effect or none, and no rule stops the device (self-diagnosis, HALTED and
the in-reset state are states, R376, R407, R400); so no meaning raises one. -/
inductive Fault where
  deriving DecidableEq, Repr

/-- A refusal. -/
inductive Refusal where
  /-- Raised by `exec` for a command that has no meaning yet; safe, because nothing follows from it. -/
  | notModelled (mnemonic : String)
  deriving DecidableEq, Repr

/-- A write that has crossed no quay yet (R24, R39): its block, the writing function, the register's key and the word. -/
structure Posted where
  block : Block
  fn : Fn
  key : Nat
  value : Word
  deriving DecidableEq, Repr

/-- The level of an output ball (R423). -/
inductive Level where
  | z
  | low
  | high
  deriving DecidableEq, Repr

/-- The digital output balls that follow the device's state (R127, R138, R329, R364, R376, R381, R404, R422 to R425, R432); by
berth, group, trigger or line where there are several. An open-drain ball that is released reads `z`. -/
structure Pins where
  femPa : List Level
  femLna : List Level
  antSel : List Level
  coexReq : List Level
  coexPri : List Level
  trig : List Level
  bollard : List Level
  failoverN : Level
  mgmtAlertN : Level
  tidePpsOut : Level
  tideTod : Level
  scuttledOut : Level
  tmeshOut : List Level
  resetOutN : Level
  qspiResetN : Level
  clkreqN : Level
  wakeN : Level
  deriving DecidableEq, Repr

/-- The state. -/
structure State where
  /-- The register file (R34): registers by key, those at their reset value unlisted. -/
  regs : SMap Word
  /-- Pending values of RWB registers, by key (R40). -/
  pend : SMap Word
  /-- Posted writes, oldest first (R39). -/
  posted : List Posted
  time : TimeS
  berths : List BerthS
  dec : DecoderS
  bcom : BcomS
  mac : MacS
  tables : TablesS
  svc : SvcS
  camp : CampS
  fns : List FnS
  ports : List PortS
  /-- DMA jobs ready for a stevedore, longest ready first, and what each stevedore moves (R277, R278). -/
  jobs : List Job
  stevs : List (Option Job)
  /-- The engines' own jobs that are finished and not yet acted on (R283, R302, R310, R379). -/
  landed : List Job
  /-- The function served last in each class (R278). -/
  lastServed : List Nat
  fabric : FabricS
  keys : KeysS
  plinth : PlinthS
  hold : HoldS
  claim : ClaimS
  fw : FwS
  flash : Flash
  otp : Otp
  start : StartS
  mgmt : MgmtS
  pins : Pins
  /-- What the device has put out, latest first. -/
  outs : List Out
  /-- The model's own: how many free values were drawn. -/
  draws : Nat
  /-- The commands that wait, first in first out. -/
  pending : List Instr
  deriving DecidableEq, Repr

/-- The MAC engine after a reset that re-runs start-up. (DESIGN CHOICE, log 7) -/
def MacS.reset : MacS where
  staging := ⟨[], []⟩
  active := ⟨[], []⟩
  ebs := List.replicate 6 ⟨false, 0, false⟩
  ba := List.replicate 2 ⟨[], []⟩
  queue := []
  nextId := 0
  awaiting := []
  records := []
  recent := []
  lost := []
  dsnNext := 0
  planned := none

/-- The tables after a reset that re-runs start-up. (DESIGN CHOICE, log 7) -/
def TablesS.reset : TablesS where
  nbrs := []
  nbrNext := List.replicate 6 0
  nbrFreed := List.replicate 6 []
  dir := []
  dirNext := 0
  dirFreed := []
  index := []
  repairing := none
  seed0 := 0
  seed1 := 0
  strays := []
  locks := []
  cmdq := []
  arb := []
  arbReleased := none
  trickle := ⟨0, none, 0, 0⟩
  daoMinute := 0

/-- The fabric after a reset that re-runs start-up. (DESIGN CHOICE, log 7) -/
def FabricS.reset : FabricS := ⟨[], [], 0, 0, false, none, List.replicate 4 0⟩

/-- A mould slot after a reset that re-runs start-up (R401). -/
def Mould.reset : Mould := ⟨0, none, none, 0, none, 0, false⟩

/-- The key store after a reset that re-runs start-up. (DESIGN CHOICE, log 7) -/
def KeysS.reset : KeysS := ⟨List.replicate 16 Mould.reset, List.replicate 4 none, [], [], false, false, false, 0, []⟩

/-- The hold's logic after a reset that re-runs start-up. (DESIGN CHOICE, log 7) -/
def HoldS.reset : HoldS := ⟨[], [], [], none, false, none, none, 40960, []⟩

/-- The claim logic after a reset that re-runs start-up. (DESIGN CHOICE, log 7) -/
def ClaimS.reset : ClaimS where
  st := .none
  others := 0
  bus := 0
  quietFrom := some 0
  quiet := false
  failoverIn := false
  failoverOut := false
  gate := false
  heldMono := none
  probed := false
  probeMono := none
  ckptLoaded := false
  lastHeader := none
  area := none
  writing := none
  nextFull := false
  dirChanged := []
  nbrChanged := []
  dueMono := 0
  loading := none
  ckptSeq := 0

/-- The own firmware before the boot result is known (R406). (DESIGN CHOICE, log 7) -/
def FwS.reset : FwS where
  mode := 2
  major := 0
  minor := 0
  slotB := false
  store := 0
  prevUsed := false
  lastSigner := 0
  secVersion := 0
  trialMono := none
  vouched := false
  resetMono := none
  lease := none
  journalFull := false
  signStaging := List.replicate 8 none
  imgKeyOk := false
  idValid := false
  booted := false
  meas := [0, 0, 0]
  attests := []

/-- The boot record when neither copy is valid (R386). (DESIGN CHOICE, log 5) -/
def BootRec.blank : BootRec := ⟨0, .empty, .empty, .spare, .spare, 0, 0, 0⟩

/-- Start-up in phase FUSES, with straps at 0 (R405, R429). (DESIGN CHOICE, log 6) -/
def StartS.reset : StartS where
  phase := .fuses
  straps := ⟨0, 0, 0, 0⟩
  bankB33 := false
  held := false
  porLow := false
  brownOut := false
  cause := 0
  resets := 0
  functionsReady := false
  selftestOk := false
  ports := List.replicate 4 ⟨[], 0, false, []⟩
  docked := none
  dock := none
  dockTesting := false
  katUnit := none
  katNext := 12
  katMono := 0
  tap := .idcode
  femDriven := List.replicate 6 false
  coexDriven := List.replicate 2 false

/-- The balls in phase FUSES of a start-up (R423, R424). -/
def Pins.reset : Pins where
  femPa := List.replicate 6 .z
  femLna := List.replicate 6 .z
  antSel := List.replicate 6 .z
  coexReq := List.replicate 2 .z
  coexPri := List.replicate 2 .z
  trig := List.replicate 8 .z
  bollard := List.replicate 4 .z
  failoverN := .z
  mgmtAlertN := .z
  tidePpsOut := .z
  tideTod := .z
  scuttledOut := .high
  tmeshOut := [.low, .low]
  resetOutN := .low
  qspiResetN := .low
  clkreqN := .low
  wakeN := .z

/-- The state right after POR_N rises on an unprovisioned part with a blank flash: phase FUSES of start-up (R405).
(DESIGN CHOICE, log 5; DESIGN CHOICE, log 6) -/
def State.reset : State where
  regs := []
  pend := []
  posted := []
  time := TimeS.reset
  berths := (List.range 6).map BerthS.reset
  dec := ⟨[], List.replicate 8 none⟩
  bcom := ⟨[false, false], List.replicate 8 [], 0, false⟩
  mac := MacS.reset
  tables := TablesS.reset
  svc := SvcS.reset
  camp := CampS.reset
  fns := List.replicate 8 FnS.reset
  ports := List.replicate 2 PortS.reset
  jobs := []
  stevs := List.replicate 8 none
  landed := []
  lastServed := [7, 7, 7]
  fabric := FabricS.reset
  keys := KeysS.reset
  plinth := ⟨true, none, [0, 0], 0, List.replicate 8 none, none, none⟩
  hold := HoldS.reset
  claim := ClaimS.reset
  fw := FwS.reset
  flash := ⟨BootRec.blank, List.replicate 2 (List.replicate 64 0xFF), [], [], [⟨1, 0, [], []⟩, ⟨1, 0, [], []⟩], none⟩
  otp := ⟨false, 0, 0, 0, 0, none, false, [], [], List.replicate 16 0,
    ⟨true, Config.factorySigner, false, false⟩ :: List.replicate 3 ⟨false, 0, false, false⟩, 0⟩
  start := StartS.reset
  mgmt := ⟨0, 0x53012618, 0x2EE, 0x600, 0, 0, 440, true⟩
  pins := Pins.reset
  outs := []
  draws := 0
  pending := []

end Sys2Proof.Machine
end

