-- ==== Sys2Proof/Machine/Operands.lean ====
section
/-!
DEFINITION. The operands of a register access (R34 to R41, R460): which block and which register an offset names, what the
register's reset value is, which function may reach it, and the stage-1 check of a written word.
-/

namespace Sys2Proof.Machine

/-- The block of a BAR0 offset, none where the map reserves it (R34). -/
def blockOf (off : Nat) : Option Block :=
  if off < 0x100 then some .ident
  else if off < 0x800 then some .ring
  else if off < 0x1000 then some .xlate
  else if off < 0x1800 then some .tbl
  else if off < 0x2000 then some .evt
  else if off < 0x2400 then some .bringup
  else if off < 0x4000 then none
  else if off < 0x4400 then some (.berth 0)
  else if off < 0x4800 then some (.berth 1)
  else if off < 0x4C00 then some (.berth 2)
  else if off < 0x5000 then some (.berth 3)
  else if off < 0x5400 then some (.berth 4)
  else if off < 0x5800 then some (.berth 5)
  else if off < 0x5C00 then none
  else if off < 0x6000 then some .bcom
  else if off < 0x6400 then some .time
  else if off < 0x6800 then some .mac
  else if off < 0x6C00 then some .route
  else if off < 0x6E00 then some .svc
  else if off < 0x7000 then some .camp
  else if off < 0x7400 then some .key
  else if off < 0x7800 then some .plinth
  else if off < 0x7C00 then some .hold
  else if off < 0x8000 then some .fabric
  else if off < 0x8400 then some .claim
  else if off < 0x8800 then some .fw
  else if off < 0x8C00 then some .gevt
  else if off < 0x9000 then some .test
  else none

/-- The offset of BERTHn (R34). -/
def berthBase (n : Nat) : Nat := 0x4000 + n * 0x400

/-- The first offset of a block (R34). -/
def Block.base : Block → Nat
  | .ident => 0
  | .ring => 0x100
  | .xlate => 0x800
  | .tbl => 0x1000
  | .evt => 0x1800
  | .bringup => 0x2000
  | .berth n => berthBase n.val
  | .bcom => 0x5C00
  | .time => 0x6000
  | .mac => 0x6400
  | .route => 0x6800
  | .svc => 0x6C00
  | .camp => 0x6E00
  | .key => 0x7000
  | .plinth => 0x7400
  | .hold => 0x7800
  | .fabric => 0x7C00
  | .claim => 0x8000
  | .fw => 0x8400
  | .gevt => 0x8800
  | .test => 0x8C00

/-- The registers of a block, offsets of BERTHn relative to the block. -/
def Block.rows : Block → List RegRow
  | .ident => Rows.ident
  | .ring => Rows.ring
  | .xlate => Rows.xlate
  | .tbl => Rows.tbl
  | .evt => Rows.evt
  | .bringup => Rows.bringup
  | .berth _ => Rows.berth
  | .bcom => Rows.bcom
  | .time => Rows.time
  | .mac => Rows.mac
  | .route => Rows.route
  | .svc => Rows.svc
  | .camp => Rows.camp
  | .key => Rows.key
  | .plinth => Rows.plinth
  | .hold => Rows.hold
  | .fabric => Rows.fabric
  | .claim => Rows.claim
  | .fw => Rows.fw
  | .gevt => Rows.gevt
  | .test => Rows.test

/-- The bit of a global block in IDENT_GRANTED and RING_GRANT (R52, R263); own-view blocks have none. -/
def Block.grantBit : Block → Option Nat
  | .bringup => some 0
  | .berth n => some (1 + n.val)
  | .bcom => some 7
  | .time => some 8
  | .mac => some 9
  | .route => some 10
  | .svc => some 11
  | .camp => some 12
  | .key => some 13
  | .plinth => some 14
  | .hold => some 15
  | .fabric => some 16
  | .claim => some 17
  | .fw => some 18
  | .gevt => some 19
  | .test => some 20
  | .ident | .ring | .xlate | .tbl | .evt => none

/-- Whether each function has its own instance of the block (R34). -/
def Block.ownView (b : Block) : Bool := b.grantBit.isNone

/-- The row that describes an offset relative to its block's rows, and the index in its array. -/
def findRow (rows : List RegRow) (off : Nat) : Option (RegRow × Nat) :=
  match rows with
  | [] => none
  | r :: rest =>
    if r.off ≤ off ∧ (off - r.off) % r.stride = 0 ∧ (off - r.off) / r.stride < r.count then
      some (r, (off - r.off) / r.stride)
    else findRow rest off

/-- The offset as the rows of its block count it. -/
def relOff (b : Block) (off : Nat) : Nat :=
  match b with
  | .berth n => off - berthBase n.val
  | _ => off

/-- The row of a BAR0 offset (R34, R41); berths 4 and 5 have 16 channel entries (R119), and RING_Cx_MOD exists for
the return rings only (R294). -/
def rowOf (off : Nat) : Option (Block × RegRow × Nat) :=
  match blockOf off with
  | none => none
  | some b =>
    match findRow b.rows (relOff b off) with
    | none => none
    | some (r, i) =>
      match b with
      | .berth n => if r.off = Reg.BERTH_RX_CH ∧ n.val ≥ 4 ∧ i ≥ 16 then none else some (b, r, i)
      | .ring => if r.off = Reg.RING_MOD ∧ i < 4 then none else some (b, r, i)
      | _ => some (b, r, i)

/-- The key of a register in the register file: own-view blocks by function and offset, global blocks by offset. -/
def keyOf (fn off : Nat) : Nat := if off < 0x2000 then fn * 0x10000 + off else off

/-- The routing mask of one source at reset: the harbour master function, and for 216 to 247 its own function (R54). -/
def routeReset (hm src : Nat) : Nat :=
  let m := 1 <<< hm
  if 216 ≤ src ∧ src ≤ 247 then m ||| (1 <<< ((src - 216) / 4)) else m

/-- The reset value of a register, given the harbour master function's number (the tables of the chapters). -/
def regReset (hm key : Nat) : Word :=
  let off := key % 0x10000
  match rowOf off with
  | none => 0
  | some (b, r, i) =>
    let v := r.reset
    BitVec.ofNat 32 <|
      match b with
      | .berth n =>
        if n.val < 4 then v
        else if r.off = Reg.BERTH_RX_PLAN then 0xF
        else if r.off = Reg.BERTH_RX_LO then 0x254504
        else if r.off = Reg.BERTH_RX_CF0 then 0x24B288
        else if r.off = Reg.BERTH_RX_CH then v ||| (4 <<< 1)
        else if r.off = Reg.BERTH_TX_CF0 then 2405000
        else v
      | .bcom => if r.off = Reg.BCOM_COUPLE ∧ i % 7 = 0 then 0 else v
      | .route => if r.off = Reg.ROUTE_CFG then v ||| (hm <<< 24) else v
      | .svc => if r.off = Reg.SVC_UP_CFG then v ||| (hm <<< 8) else v
      | .ring => if r.off = Reg.RING_MOD then v ||| (i % 4) else v
      | .gevt =>
        if r.off = Reg.GEVT_ROUTE then
          routeReset hm (4 * i) ||| (routeReset hm (4 * i + 1) <<< 8) ||| (routeReset hm (4 * i + 2) <<< 16) |||
            (routeReset hm (4 * i + 3) <<< 24)
        else v
      | .plinth => if r.off = Reg.PLINTH_SCUTTLE_INFO then 7 else v
      | _ => v

/-- Whether an RSN word has every residue in its range (R7, R69): r256 in [31:24], r255 in [23:16], r253 in [15:8],
r251 in [7:0]. -/
def rsnOk (w : Word) : Bool := bitsOf 23 16 w < 255 && bitsOf 15 8 w < 253 && bitsOf 7 0 w < 251

/-- Whether a slotframe length divides 256 * 255 * 253 * 251 (R74). -/
def slotframeOk (v : Nat) : Bool := v ≠ 0 && 4145475840 % v = 0

/-- One stage-1 range (R460). -/
def Valid.test (width v : Nat) (w : Word) : Valid → Bool
  | .range lo hi => lo ≤ v && v ≤ hi
  | .signed lo hi => lo ≤ signedOf width v && signedOf width v ≤ hi
  | .oneOf l => l.contains v
  | .zeroOr lo hi => v = 0 || (lo ≤ v && v ≤ hi)
  | .mult lo hi step => lo ≤ v && v ≤ hi && v % step = 0
  | .slotframe => slotframeOk v
  | .rsn => rsnOk w

/-- One field of a written word against its range (R460 stage 1). -/
def FieldCheck.test (c : FieldCheck) (w : Word) : Bool := c.ok.test (c.hi + 1 - c.lo) (bitsOf c.hi c.lo w) w

/-- The ranges of a row, checked (R37, R460 stage 1). -/
def checksOk (r : RegRow) (w : Word) : Bool := r.checks.all fun c => c.test w

/-- The ranges that differ by berth (R91, R119, R128, R146): RX LO, default power, and the plan and entry fields. -/
def berthOk (n : Nat) (r : RegRow) (w : Word) : Bool :=
  if r.off = Reg.BERTH_RX_LO then
    let k := bitsOf 21 0 w
    if n < 4 then 470000 ≤ k && k ≤ 960000 else 2400000 ≤ k && k ≤ 2483500
  else if r.off = Reg.BERTH_TX_PWR then
    let p := signedOf 16 (bitsOf 15 0 w)
    (-80 : Int) ≤ p && p ≤ (if n < 4 then (56 : Int) else 40)
  else true

end Sys2Proof.Machine
end

