-- ==== Sys2Proof/Machine/Slots.lean ====
section
/-!
DEFINITION. Arithmetic on slot names (R68 to R77): RSN and binary value, slot count, on-air ASN, distance and order, and the
codings of a slot name in registers and descriptors.
-/

namespace Sys2Proof.Machine

/-- The slots of an epoch, M (R71). -/
def slotsPerEpoch : Nat := 4145475840

/-- rsn_to_x of R71. -/
def Rsn.toX (r : Rsn) : Nat :=
  (r.r256.val * 275285505 + r.r255.val * 520216576 + r.r253.val * 344090880 + r.r251.val * 3005882880) % slotsPerEpoch

/-- x_to_rsn of R71. -/
def Rsn.ofX (x : Nat) : Rsn :=
  ⟨Fin.ofNat 256 x, Fin.ofNat 255 x, Fin.ofNat 253 x, Fin.ofNat 251 x⟩

/-- R70: the RSN `k` slots later; the epoch is not touched. -/
def Rsn.add (r : Rsn) (k : Nat) : Rsn :=
  ⟨Fin.ofNat 256 (r.r256.val + k % 256), Fin.ofNat 255 (r.r255.val + k % 255), Fin.ofNat 253 (r.r253.val + k % 253),
    Fin.ofNat 251 (r.r251.val + k % 251)⟩

/-- The last RSN of an epoch, [255:254:252:250] (R76). -/
def Rsn.last : Rsn := ⟨255, 254, 252, 250⟩

/-- An RSN as a register holds it (R7). -/
def Rsn.word (r : Rsn) : Word :=
  BitVec.ofNat 32 (r.r256.val * 2 ^ 24 + r.r255.val * 2 ^ 16 + r.r253.val * 2 ^ 8 + r.r251.val)

/-- The RSN a word spells; none where a residue is out of its range (R7, R69). -/
def Rsn.ofWord (w : Word) : Option Rsn :=
  if rsnOk w then
    some ⟨Fin.ofNat 256 (bitsOf 31 24 w), Fin.ofNat 255 (bitsOf 23 16 w), Fin.ofNat 253 (bitsOf 15 8 w),
      Fin.ofNat 251 (bitsOf 7 0 w)⟩
  else none

/-- The slot count A = E * M + x (R72). -/
def SlotName.count (n : SlotName) : Nat := n.epoch.toNat * slotsPerEpoch + n.rsn.toX

/-- The on-air ASN (R72). -/
def SlotName.asn (n : SlotName) : Nat := n.count % 2 ^ 40

/-- The slot whose count is `a`; epochs beyond 65,535 do not exist and read modulo 2^16 (R72). -/
def SlotName.ofCount (a : Nat) : SlotName := ⟨BitVec.ofNat 16 (a / slotsPerEpoch), Rsn.ofX (a % slotsPerEpoch)⟩

/-- The distance from slot `a` to slot `b` (R73). -/
def slotDist (a b : SlotName) : Int := (b.count : Int) - (a.count : Int)

/-- The slot `k` slots after `n`, in the order of R73. -/
def SlotName.addSlots (n : SlotName) (k : Nat) : SlotName := SlotName.ofCount (n.count + k)

/-- The slot `k` slots before `n`, not before the first. -/
def SlotName.subSlots (n : SlotName) (k : Nat) : SlotName := SlotName.ofCount (n.count - k)

/-- A slot name as a descriptor holds it: an RSN of 4 octets and an epoch of 2 (R69); RSN 0 with epoch 0 means none. -/
inductive SlotField where
  | none
  | slot (n : SlotName)
  | invalid
  deriving DecidableEq, Repr

/-- The slot name in 6 octets of a descriptor (R69, R239). -/
def slotFieldOf (bs : List Byte) : SlotField :=
  let w := BitVec.ofNat 32 (ofLeBytes (bs.take 4))
  let e := BitVec.ofNat 16 (ofLeBytes ((bs.drop 4).take 2))
  match Rsn.ofWord w with
  | Option.none => .invalid
  | some r => if w = 0 ∧ e = 0 then .none else .slot ⟨e, r⟩

/-- The slot named, if any. -/
def SlotField.name : SlotField → Option SlotName
  | .slot n => some n
  | _ => Option.none

/-- b − a as a signed 48-bit value (R56). -/
def instantDiff (a b : Instant) : Int := (b - a).toInt

/-- Instant `b` is later than `a` (R56). -/
def instantLater (a b : Instant) : Bool := 0 < instantDiff a b

end Sys2Proof.Machine
end

