-- ==== Sys2Proof/Machine/Ops.lean ====
section
/-!
DEFINITION. The named operations that every meaning is built from: the register file and its fields, statistics counters
(R42, R43), raising events (R45), the mesh clock's readings (R17, R55, R60), output and MSI-X messages (R48), random draws,
return entries (R272, R274, R288) and the directory and neighbour tables as stores.
-/

namespace Sys2Proof.Machine

/-! ### The register file -/

/-- The harbour master function's number (R263, R429). -/
def hmFn (s : State) : Nat := s.start.straps.hm.val

/-- A register's value (R34): what was written last, else its reset value. -/
def rd (s : State) (k : Nat) : Word :=
  match s.regs.find k with
  | some v => v
  | none => regReset (hmFn s) k

/-- A register set; at its reset value it is unlisted, so that equal register files are equal data. -/
def wr (k : Nat) (v : Word) (s : State) : State :=
  { s with regs := if v = regReset (hmFn s) k then s.regs.del k else s.regs.put k v }

/-- A field of the register `base` beyond the field's own offset: 0 for a global block, `fb f` for function `f`'s view,
`berthBase n` for berth `n`, plus a stride times an index in an array. -/
def fget (s : State) (base : Nat) (f : Fld) : Nat := bitsOf f.hi f.lo (rd s (base + f.off))

/-- A field set to `v`. -/
def fset (base : Nat) (f : Fld) (v : Nat) (s : State) : State :=
  wr (base + f.off) (putBits f.hi f.lo (rd s (base + f.off)) v) s

/-- A one-bit field as a Bool. -/
def fbit (s : State) (base : Nat) (f : Fld) : Bool := fget s base f = 1

/-- A field read as a signed number. -/
def fint (s : State) (base : Nat) (f : Fld) : Int := signedOf (f.hi + 1 - f.lo) (fget s base f)

/-- The base of function `f`'s own view (R34). -/
def fb (f : Nat) : Nat := f * 0x10000

/-! ### Output, draws and time -/

/-- Something leaves the device. (DESIGN CHOICE, log 11) -/
def emit (o : Out) (s : State) : State := { s with outs := o :: s.outs }

/-- The next random draw (R328). (DESIGN CHOICE, log 3) -/
def drawn (s : State) : BitVec 64 := Config.draw s.draws

/-- One draw consumed. (DESIGN CHOICE, log 3) -/
def advanceDraws (s : State) : State := { s with draws := s.draws + 1 }

/-- NS, the mesh-clock instant of this step (R55, R56). -/
def nowNs (s : State) : Instant := BitVec.ofNat 48 (s.time.clock.toNat >>> 32)

/-- MONO in ns (R60). -/
def monoNs (s : State) : Nat := s.time.mono.toNat >>> 32

/-- TIME_STATUS.SLOTS (R66). -/
def slotsOn (s : State) : Bool :=
  match s.time.slots with
  | .running | .stopping => true
  | .stopped | .armed => false

/-! ### Functions, berths and units -/

/-- Function `f` changed by `g`. -/
def modFn (f : Nat) (g : FnS → FnS) (s : State) : State := { s with fns := s.fns.modify f g }

/-- Function `f`. -/
def getFn (s : State) (f : Nat) : FnS := s.fns.getD f FnS.reset

/-- Ring `r` of function `f`. -/
def getRing (s : State) (f r : Nat) : RingS := (getFn s f).rings.getD r RingS.reset

/-- Ring `r` of function `f` changed by `g`. -/
def modRing (f r : Nat) (g : RingS → RingS) (s : State) : State :=
  modFn f (fun x => { x with rings := x.rings.modify r g }) s

/-- Berth `n`. -/
def getBerth (s : State) (n : Nat) : BerthS := s.berths.getD n (BerthS.reset n)

/-- Berth `n` changed by `g`. -/
def modBerth (n : Nat) (g : BerthS → BerthS) (s : State) : State := { s with berths := s.berths.modify n g }

/-- The berths of the part (R1). -/
def berthPresent (s : State) (n : Nat) : Bool := if s.otp.is2614 then n < 4 else n < 6

/-- The output gate is open (R372). -/
def gateOpen (s : State) : Bool := s.claim.gate

/-- Unit `u` is fenced (R28). -/
def unitFenced (s : State) (u : Nat) : Bool := bitAt u (rd s Reg.FABRIC_FENCED)

/-- Unit `u` takes no new work: it is fenced, or under its known-answer test (R28, R413). -/
def unitOut (s : State) (u : Nat) : Bool := unitFenced s u || s.start.katUnit = some u

/-- The port of a function: 0 for A, 1 for B (R262). -/
def portOf (f : Nat) : Nat := if f < 4 then 0 else 1

/-- PCIe port `p`: 0 is A, 1 is B. -/
def getPort (s : State) (p : Nat) : PortS := s.ports.getD p PortS.reset

/-- Port `p` changed by `g`. -/
def modPort (p : Nat) (g : PortS → PortS) (s : State) : State := { s with ports := s.ports.modify p g }

/-- Phase SERVICE or RECOVERY is reached: descriptors and doorbells are fetched (R406). -/
def serving (s : State) : Bool :=
  match s.start.phase with
  | .service | .recovery => true
  | _ => false

/-- Apply `g` for every number below `n`, in order. -/
def forBelow (n : Nat) (g : Nat → State → State) (s : State) : State := (List.range n).foldl (fun t i => g i t) s

/-! ### Status bits -/

/-- Set the common REJECTED bit of a block whose status register is at `k` (R37, R38). -/
def reject (k : Nat) (s : State) : State := wr k (rd s k ||| 0x20) s

/-- Set POST_DROP (R39). -/
def postDrop (k : Nat) (s : State) : State := wr k (rd s k ||| 0x08) s

/-- The key of a block's status register for a function's access (R38). -/
def statusKey (f : Nat) (b : Block) : Nat := keyOf f b.base

/-! ### Events -/

/-- The functions that a source is routed to (R54). -/
def routeMask (s : State) (code : Nat) : Nat := bitsOf (8 * (code % 4) + 7) (8 * (code % 4)) (rd s (Reg.GEVT_ROUTE + code / 4 * 4))

/-- Step 2 and 3 of R45 for one function: the pending bit, and delivery where it is enabled. A quiesced function is sent
nothing (R50). -/
def raiseTo (o : EvOcc) (f : Nat) (s : State) : State :=
  if (routeMask s o.code).testBit f then
    let k := fb f + Reg.EVT_PEND + o.code / 32 * 4
    let was := bitAt (o.code % 32) (rd s k)
    let s1 := wr k (setBitAt (o.code % 32) (rd s k) true) s
    let enabled := fbit s (fb f) Fl.EVT_CTRL_ENABLE && bitAt (o.code % 32) (rd s (fb f + Reg.EVT_ENABLE + o.code / 32 * 4))
    if enabled && !(getFn s f).quiesced then modFn f (fun x => { x with evq := x.evq ++ [{ o with newly := !was }] }) s1 else s1
  else s

/-- R45: raise an event with its record; `ts` is the island's capture, or the time of R17. -/
def raiseOcc (o : EvOcc) (s : State) : State :=
  let k := Reg.GEVT_RAW + o.code / 32 * 4
  forBelow 8 (raiseTo o) (wr k (setBitAt (o.code % 32) (rd s k) true) s)

/-- Raise an event with RESULT, node and AUX. (DESIGN CHOICE, log 8) -/
def raiseFull (code result node aux : Nat) (s : State) : State :=
  raiseOcc ⟨code, false, BitVec.ofNat 32 result, node, nowNs s, BitVec.ofNat 64 aux, false⟩ s

/-- Raise an event about no node. (DESIGN CHOICE, log 8) -/
def raise (code result : Nat) (s : State) : State := raiseFull code result noNode 0 s

/-- Raise an event with AUX about no node. -/
def raiseAux (code result aux : Nat) (s : State) : State := raiseFull code result noNode aux s

/-- Raise an event about a node. -/
def raiseNode (code result node : Nat) (s : State) : State := raiseFull code result node 0 s

/-! ### Counters -/

/-- R43: the record of event 255 for a counter at key `k`. -/
def raiseSaturated (k : Nat) (s : State) : State :=
  let off := k % 0x10000
  raiseAux 255 off (if off < 0x2000 then 8 + k / 0x10000 else 0) s

/-- R42: count `n` occurrences; the counter stops at its maximum, where its CNT_SAT bit is set and event 255 raised once. -/
def bumpBy (base : Nat) (c : Cnt) (n : Nat) (s : State) : State :=
  let k := base + c.off
  let v := (rd s k).toNat + n
  if v < 0xFFFFFFFF then wr k (BitVec.ofNat 32 v) s
  else
    let s1 := wr k 0xFFFFFFFF s
    if bitAt c.bit (rd s (base + c.sat)) then s1
    else raiseSaturated k (wr (base + c.sat) (setBitAt c.bit (rd s (base + c.sat)) true) s1)

/-- Count one occurrence. -/
def bump (base : Nat) (c : Cnt) (s : State) : State := bumpBy base c 1 s

/-! ### Messages to the host -/

/-- A vector's messages are held back (R48): its mask bit, Function Mask, or MSI-X not enabled. (PRESUMED, log 68) -/
def FnS.masked (x : FnS) (vec : Nat) : Bool := !x.msixEn || x.msixFnMask || x.msixMask.getD vec false

/-- Send or hold back the MSI-X message of a vector (R48): masked vectors set their pending bit, a quiesced function is sent
nothing (R50, R276). -/
def msix (f vec : Nat) (s : State) : State :=
  let x := getFn s f
  if x.quiesced then s
  else if x.masked vec then modFn f (fun y => { y with msixPend := y.msixPend.set vec true }) s
  else emit (.msix f vec) s

/-- The MSI-X vector of an event source for a function (R53). -/
def evtVector (s : State) (f code : Nat) : Nat :=
  bitsOf (4 * (code % 8) + 3) (4 * (code % 8)) (rd s (fb f + Reg.EVT_VEC + code / 8 * 4))

/-- The key of ring `r`'s register at row offset `off` (R294). -/
def ringKey (f r off : Nat) : Nat := fb f + off + 0x20 * r

/-- RING_x_CTRL.EN (R294). -/
def ringEn (s : State) (f r : Nat) : Bool := bitAt 0 (rd s (ringKey f r Reg.RING_CTRL))

/-- RING_x_CTRL.ON: EN applied and the function not quiesced (R294). -/
def ringOn (s : State) (f r : Nat) : Bool := ringEn s f r && !(getFn s f).quiesced

/-- 2^SIZE of a ring (R265). -/
def ringSize (s : State) (f r : Nat) : Nat := 2 ^ bitsOf 4 0 (rd s (ringKey f r Reg.RING_SIZE))

/-- The return ring of a submission ring (R264): S0 and S1 to C0, S2 to C2, S3 to C1. -/
def returnRing (r : Nat) : Nat := if r < 2 then 4 else if r = 2 then 6 else 5

/-- A return entry is produced for ring `c` of function `f`: RETURN_ENTRY_WRITE writes or holds it (R272, R288). -/
def produce (f c : Nat) (e : Entry) (s : State) : State := modFn f (fun x => { x with out := x.out ++ [(c, e)] }) s

/-- A fetched descriptor by its ring and number. -/
def findDesc (s : State) (f r i : Nat) : Option DescS := (getRing s f r).descs.find? fun d => d.index = i

/-- A fetched descriptor changed. -/
def modDesc (f r i : Nat) (g : DescS → DescS) (s : State) : State :=
  modRing f r (fun x => { x with descs := x.descs.map fun d => if d.index = i then g d else d }) s

/-- The octet `off` of a descriptor. -/
def DescS.byte (d : DescS) (off : Nat) : Nat := (d.bytes.getD off 0).toNat

/-- `n` octets of a descriptor from `off`, as a number (R269, R271). -/
def DescS.num (d : DescS) (off n : Nat) : Nat := ofLeBytes ((d.bytes.drop off).take n)

/-- HOST_TAG (R269). -/
def DescS.tag (d : DescS) : Word := BitVec.ofNat 32 (d.num 4 4)

/-- QUIET_OK (R269). -/
def DescS.quietOk (d : DescS) : Bool := (d.byte 1).testBit 1

/-- ORDERED (R269). -/
def DescS.ordered (d : DescS) : Bool := (d.byte 1).testBit 0

/-- The codes of R273. -/
abbrev stOk : Nat := 0x00
/-- R273. -/
abbrev stTimeout : Nat := 0x01
/-- R273. -/
abbrev stNoRoute : Nat := 0x02
/-- R273. -/
abbrev stTooLate : Nat := 0x03
/-- R273. -/
abbrev stRejected : Nat := 0x04
/-- R273. -/
abbrev stFault : Nat := 0x05
/-- R273. -/
abbrev stPoisoned : Nat := 0x06
/-- R273. -/
abbrev stFlushed : Nat := 0x07
/-- R273. -/
abbrev stBusy : Nat := 0x08
/-- R273. -/
abbrev stBadDesc : Nat := 0x09
/-- R273. -/
abbrev stNodeUnknown : Nat := 0x0A
/-- R273. -/
abbrev stKeyStale : Nat := 0x0B
/-- R273. -/
abbrev stOrphan : Nat := 0x0C
/-- R273. -/
abbrev stAborted : Nat := 0x0D
/-- R273. -/
abbrev stTableFull : Nat := 0x0E
/-- R273. -/
abbrev stResetLost : Nat := 0x0F

/-- What a completion reports (R272). -/
structure Done where
  status : Nat
  result : Nat := 0
  node : Nat := noNode
  aux : Nat := 0
  ts : Option Instant := none
  deriving DecidableEq, Repr

/-- The return entry of a completion. -/
def Done.entry (d : Done) (tag : Word) (opcode : Nat) (interim : Bool) (s : State) : Entry :=
  ⟨tag, d.status, opcode, interim, BitVec.ofNat 32 d.result, d.node, d.ts.getD (nowNs s), BitVec.ofNat 64 d.aux⟩

/-- Lost results: counted, the LOST bit set, and a loss notice follows (R274, R353). -/
def loseItems (f n : Nat) (s : State) : State :=
  let s1 := bumpBy (fb f) Ct.RING_LOST n s
  let s2 := fset (fb f) Fl.RING_STATUS_LOST 1 s1
  modFn f (fun x => { x with loss := some (match x.loss with
    | none => min n 0xFFFFFFFE
    | some m => if m = 0xFFFFFFFF then m else min (m + n) 0xFFFFFFFE) }) s2

/-- Lost entries: they count as lost results, and event 218 + 4f tells so (R288). -/
def loseEntries (f n : Nat) (s : State) : State := raiseAux (218 + 4 * f) 3 n (loseItems f n s)

/-! ### Flushes -/

/-- A flush of queue `q` waits for this item (R357). -/
def flushTakes (s : State) (q key : Nat) : Bool := s.hold.flushing.any fun x => x.1 = q && x.2.2.contains key

/-- R357: a producer has finished an item that a flush waits for; the item is discarded, and after the last the flush is over.
(DEDUCED, log 52) -/
def flushItem (key : Nat) (s : State) : State :=
  { s with hold := { s.hold with flushing := match s.hold.flushing with
    | some (q, t, items) => if items.erase key = [] then none else some (q, t, items.erase key)
    | none => none } }

/-! ### DMA jobs -/

/-- A job becomes ready (R277, R285). -/
def addJob (j : Job) (s : State) : State := { s with jobs := s.jobs ++ [j] }

/-! ### Tables as stores -/

/-- The directory entry of a handle (R194, R195). -/
def dirGet (s : State) (h : Handle) : Option DirEnt := s.tables.dir.find h

/-- A directory entry stored; the next checkpoint marks it (R379). -/
def dirPut (h : Handle) (e : DirEnt) (s : State) : State :=
  { s with
    tables := { s.tables with dir := s.tables.dir.put h e }
    claim := { s.claim with dirChanged := if s.claim.dirChanged.contains h then s.claim.dirChanged else h :: s.claim.dirChanged } }

/-- A directory entry changed, where it is valid. -/
def dirMod (h : Handle) (g : DirEnt → DirEnt) (s : State) : State :=
  match dirGet s h with
  | some e => dirPut h (g e) s
  | none => s

/-- A directory entry removed; the next checkpoint marks it (R379). -/
def dirDel (h : Handle) (s : State) : State :=
  { s with
    tables := { s.tables with dir := s.tables.dir.del h }
    claim := { s.claim with dirChanged := if s.claim.dirChanged.contains h then s.claim.dirChanged else h :: s.claim.dirChanged } }

/-- The neighbour handle of berth and index (R187). -/
def nbrHandle (n i : Nat) : Nat := n * 2048 + i

/-- The neighbour entry of a handle (R188). -/
def nbrGet (s : State) (h : Nat) : Option Nbr := s.tables.nbrs.find h

/-- A neighbour entry stored; the next checkpoint marks it (R379). -/
def nbrPut (h : Nat) (e : Nbr) (s : State) : State :=
  { s with
    tables := { s.tables with nbrs := s.tables.nbrs.put h e }
    claim := { s.claim with nbrChanged := if s.claim.nbrChanged.contains h then s.claim.nbrChanged else h :: s.claim.nbrChanged } }

/-- A neighbour entry changed, where it is valid. -/
def nbrMod (h : Nat) (g : Nbr → Nbr) (s : State) : State :=
  match nbrGet s h with
  | some e => nbrPut h (g e) s
  | none => s

/-- A neighbour entry removed; the next checkpoint marks it (R379). -/
def nbrDel (h : Nat) (s : State) : State :=
  { s with
    tables := { s.tables with nbrs := s.tables.nbrs.del h }
    claim := { s.claim with nbrChanged := if s.claim.nbrChanged.contains h then s.claim.nbrChanged else h :: s.claim.nbrChanged } }

/-- A node's directory entry by its EUI-64, with its handle. -/
def dirByEui (s : State) (e : Eui) : Option (Handle × DirEnt) := s.tables.dir.find? fun p => p.2.eui = e

end Sys2Proof.Machine
end

