-- ==== Sys2Proof/Machine/Clock.lean ====
section
/-!
DEFINITION. The passing of time (R55, R57, R60, R62): XREF_IN ticks add the effective increment to the mesh clock and to MONO,
slews included; and fabric-side timers (R18), whose firing is counted late beyond 100 µs.
-/

namespace Sys2Proof.Machine

/-- 25 ns in units of 2^-32 ns. -/
def tickUnits : Int := 25 * 4294967296

/-- The increment without a slew: 25 ns + TIME_INC + servo_corr (R57). -/
def baseInc (s : State) : Int := tickUnits + (rd s Reg.TIME_INC).toInt + s.time.servoCorr

/-- The slew of one tick: TIME_SLEW.PPM × 107,374.18 units, rounded to the nearest unit (R62). -/
def slewStep (s : State) : Int := (((fget s 0 Fl.TIME_SLEW_PPM * 10737418 + 50) / 100 : Nat) : Int)

/-- The slew of `n` ticks: a full step each in the direction of the remainder, the last tick the exact remainder (R62). -/
def slewOver (s : State) (n : Nat) : Int := clampInt (-(n * slewStep s)) (n * slewStep s) s.time.adjRem

/-- The sum TIME_INC + servo_corr + slew of the next tick, TIME_INC_EFF (R57). -/
def incEff (s : State) : Int := baseInc s - tickUnits + slewOver s 1

/-- R62: the ticks until the remainder is gone. -/
def ticksToZero (s : State) : Nat :=
  let st := (slewStep s).toNat
  if st = 0 then 0 else (s.time.adjRem.natAbs + st - 1) / st

/-- The mesh clock in ns when `d` units were added to it. -/
def nsAfter (s : State) (d : Int) : Instant := ((s.time.clock + BitVec.ofInt 80 d) >>> 32).setWidth 48

/-- The slew remainder reaches 0 at an instant (R62, R88): event 57. -/
def adjDone (t : Instant) (s : State) : State := raiseOcc ⟨57, false, 0, noNode, t, 0, false⟩ s

/-- The slew applied over `n` ticks: taken off the remainder; the PPS expectation moves with every nanosecond of it (R63). -/
def applySlew (n : Nat) (s : State) : State :=
  let d := slewOver s n
  let rem := s.time.adjRem - d
  let moved := Int.fdiv s.time.adjRem 4294967296 - Int.fdiv rem 4294967296
  let s1 := { s with time := { s.time with
    adjRem := rem
    expected := s.time.expected.map fun e => if fget s 0 Fl.TIME_CTRL_DISC = 1 then e + BitVec.ofInt 48 moved else e } }
  if s.time.adjRem ≠ 0 ∧ rem = 0 then adjDone (nsAfter s (ticksToZero s * baseInc s + s.time.adjRem)) s1 else s1

/-- `n` ticks of XREF_IN pass (R55, R60). -/
def elapse (n : Nat) (s : State) : State :=
  if n = 0 then s
  else
    let adv := n * baseInc s + slewOver s n
    let s1 := applySlew n s
    { s1 with
      time := { s1.time with
        clock := s1.time.clock + BitVec.ofInt 80 adv
        mono := s1.time.mono + BitVec.ofInt 96 adv }
      plinth := { s1.plinth with ticks := if s1.plinth.vbat then s1.plinth.ticks + n else s1.plinth.ticks } }

/-- The least number of ticks in which the clock gains at least `need` units (R57, R62). -/
def ticksFor (s : State) (need : Int) : Nat :=
  let base := baseInc s
  let st := slewStep s
  let rem := s.time.adjRem
  let dir : Int := if 0 ≤ rem then st else -st
  let full : Nat := if st = 0 then 0 else rem.natAbs / st.toNat
  let ceilDiv (a b : Int) : Nat := if a ≤ 0 ∨ b ≤ 0 then 0 else ((a + b - 1) / b).toNat
  if need ≤ 0 then 0
  else if need ≤ full * (base + dir) then ceilDiv need (base + dir)
  else
    let left := need - full * (base + dir)
    let odd := rem - full * dir
    if odd = 0 then full + ceilDiv left base
    else if left ≤ base + odd then full + 1
    else full + 1 + ceilDiv (left - (base + odd)) base

/-- Time passes until NS first reaches `t` (R67); none where it lies behind (R56). (DESIGN CHOICE, log 2) -/
def elapseToNs (t : Instant) (s : State) : State :=
  let d := instantDiff (nowNs s) t
  if d ≤ 0 then s
  else elapse (ticksFor s (d * 4294967296 - ((s.time.clock.toNat % 4294967296 : Nat) : Int))) s

/-- Time passes until MONO first reaches `t` ns; none where it has passed. (DESIGN CHOICE, log 2) -/
def elapseToMono (t : Nat) (s : State) : State :=
  if t ≤ monoNs s then s
  else elapse (ticksFor s (((t * 4294967296 : Nat) : Int) - (s.time.mono.toNat : Int))) s

/-- A fabric-side timer with this deadline in MONO ns fires (R18): not before it, and counted when more than 100 µs late. -/
def fireTimer (deadline : Nat) (s : State) : State :=
  let s1 := elapseToMono deadline s
  if deadline + 100000 < monoNs s1 then raise 188 0 (bump 0 Ct.FABRIC_TIMER_LATE s1) else s1

/-- TIME passes by one tick: what a step on an empty queue does. (DESIGN CHOICE, log 2) -/
def idleTick (s : State) : State := elapse 1 s

end Sys2Proof.Machine
end

