-- ==== Sys2Proof/Machine/Taps.lean ====
section
/-!
DEFINITION. The bring-up read ports as taps (R354, R408): what an item of each queue of R353 is made of, and the copies that enter
the ports' FIFOs when a step brings items into a watched queue.
-/

namespace Sys2Proof.Machine

/-- `l` cut or padded with zeros to `n` octets. -/
def fitOctets (n : Nat) (l : List Byte) : List Byte := l.take n ++ List.replicate (n - l.length) 0

/-- The 32 octets of a receive record (R116). -/
def RxRec.octets (r : RxRec) : List Byte :=
  let b (c : Bool) (k : Nat) : Nat := if c then 2 ^ k else 0
  let st := r.psduLen + b r.fcsOk 12 + b r.fcs4 13 + b r.whitened 14 + b r.coded 15 +
    ((r.abort.map AbortReason.code).getD 0) * 2 ^ 20 + b r.abort.isSome 31
  leBytes 4 st ++ leBytes 6 r.sfdTime.toNat ++ leBytes 2 (unsignedOf 16 r.rssi) ++ leBytes 2 (unsignedOf 16 r.floor) ++
    leBytes 2 (unsignedOf 16 r.cfo) ++ leBytes 4 r.name.rsn.word.toNat ++ leBytes 2 r.name.epoch.toNat ++ leBytes 1 r.entry ++
    leBytes 1 (r.berth + r.mode * 8 + b r.clip 6 + b r.gainStep 7) ++ leBytes 2 r.channel ++ leBytes 1 r.gain ++
    leBytes 1 (r.decoder.getD 0 + b r.decoder.isSome 3 + b r.recapture 4 + b r.ackLate 5) ++ leBytes 4 r.seq.toNat

/-- The PSDU of a record, padded to a multiple of 8 octets (R116). -/
def RxRec.psdu (r : RxRec) : List Byte :=
  let bs := match r.frame with
    | some f => f.received
    | none => Config.noise r.seq.toNat
  fitOctets ((r.psduLen + 7) / 8 * 8) (fitOctets r.psduLen bs)

/-- A queue item as a tap copies it: what tells it from others, its bytes where a rule gives their number and what they are, its
poison, and its length slot where that is not the plain one (R354). -/
structure TapItem where
  key : Nat
  len : Option Nat
  poison : Bool
  slot : Option Nat
  body : Option (List Byte)
  deriving DecidableEq, Repr

/-- The 32 octets of a return entry with its PHASE (R272). -/
def Entry.octetsAt (e : Entry) (phase : Bool) : List Byte :=
  leBytes 4 e.tag.toNat ++ leBytes 2 e.status ++ leBytes 1 e.opcode ++
    leBytes 1 ((if phase then 1 else 0) + if e.interim then 2 else 0) ++ leBytes 4 e.result.toNat ++ leBytes 4 e.node ++ leBytes 8 e.ts.toNat ++ leBytes 8 e.aux.toNat

/-- The 32 octets of a return entry before a ring gives it its phase. -/
def Entry.octets (e : Entry) : List Byte := e.octetsAt false

/-- The 32 octets of a delivery header (R251). -/
def UpItem.header (i : UpItem) (octets : Nat) (truncated : Bool) : List Byte :=
  let b (c : Bool) (k : Nat) : Nat := if c then 2 ^ k else 0
  leBytes 8 i.src.toNat ++ fitOctets 8 i.token ++
    leBytes 4 (i.node + i.kind * 2 ^ 18 + min 15 i.token.length * 2 ^ 22 + i.coapType * 2 ^ 26 + b i.opened 28 + b i.linkUnsec 29 +
      b truncated 30 + b i.late 31) ++
    leBytes 1 i.code ++ leBytes 1 i.berth ++ leBytes 2 i.midOrSport ++ leBytes 2 i.dport ++ leBytes 2 octets ++ leBytes 4 0

/-- An item whose octets are known. -/
def TapItem.spelt (key : Nat) (poison : Bool) (bs : List Byte) : TapItem := ⟨key, some bs.length, poison, none, some bs⟩

/-- An item of which a rule gives the length at most. -/
def TapItem.sized (key : Nat) (len : Option Nat) : TapItem := ⟨key, len, false, none, none⟩

/-- An item of a receive record queue: the slot holds record bytes 0 to 7 (R354). -/
def TapItem.ofRecord (r : RxRec) : TapItem :=
  ⟨r.seq.toNat, none, false, some (ofLeBytes (r.octets.take 8)), some (r.octets.drop 8 ++ r.psdu)⟩

/-- The class of a descriptor's place in a function's queues: fetched, or gathered. -/
def DescS.gathered (d : DescS) : Bool := d.phase ≠ .waiting && d.phase ≠ .gather

/-- The items of function `f`'s queue `k` of R353: descriptors, gathers, return entries, deliveries. -/
def tapFn (s : State) (f k : Nat) : List TapItem :=
  let x := getFn s f
  let descs := x.rings.flatMap fun r => r.descs
  if k = 0 then descs.map fun d => .spelt (d.index * 8 + d.ring) false d.bytes
  else if k = 1 then
    (descs.filter DescS.gathered).map fun d => .spelt (d.index * 8 + d.ring) d.poisoned d.payload
  else if k = 2 then x.out.map fun p => .spelt p.1 false p.2.octets
  else x.ups.map fun i => .spelt 0 false (i.header i.content.length false ++ i.content)

/-- The items of a queue of R353, as far as the device's state holds them. (DEDUCED, log 60) -/
def tapItems (s : State) (q : Nat) : List TapItem :=
  if q < 6 then (s.mac.records.filter fun r => r.berth = q).map TapItem.ofRecord
  else if q < 12 then ((s.berths.getD (q - 6) (BerthS.reset 0)).requests).map fun t => .sized t.refAt.toNat (some t.len)
  else if q < 14 then
    (s.dec.queue.filter fun c => c.ackDue = (q = 12 : Bool)).map fun c => .sized c.record.seq.toNat (some (8 * c.record.psduLen))
  else if q < 19 then (s.mac.queue.filter fun x => x.cls.code = q - 14).map fun x => .sized x.id (some x.len)
  else if q = 20 then s.svc.upq.map fun u => .sized u.sfdTime.toNat none
  else if q = 30 then s.tables.arb.map fun a => .sized a.sfdTime.toNat none
  else if q < 32 then []
  else if q < 64 then tapFn s ((q - 32) / 4) (q % 4)
  else if q < 72 then (getFn s (q - 64)).held.map fun p => .spelt p.1 false p.2.octets
  else if q < 76 then []
  else if q < 79 then (s.jobs.filter fun j => j.cls = q - 76).map fun j => .sized (j.fn * 2 ^ 64 + j.addr) none
  else if q = 79 then s.fns.flatMap fun x => x.evq.map fun o => .sized (o.ts.toNat * 256 + o.code) (some 32)
  else
    match s.camp.camps[q - 80]? with
    | some c => (s.mac.queue.filter fun x => x.owner = .campaign c.id).map fun x => .sized x.id (some x.len)
    | none => []

/-- An item's length slot (R354). -/
def slotWord (len : Nat) (poison : Bool) : Nat := len % 2 ^ 24 + if poison then 2 ^ 24 else 0

/-- The 64-bit words that octets fill. -/
def packWords : Nat → List Byte → List (BitVec 64)
  | 0, _ => []
  | n + 1, bs => BitVec.ofNat 64 (ofLeBytes (bs.take 8)) :: packWords n (bs.drop 8)

/-- The 64-bit words of a copied item, its slot first, and how many free values they took: where no rule gives an item's bytes or
their number, they are free. (DEDUCED, log 60) -/
def TapItem.words (i : TapItem) (s : State) : List (BitVec 64) × Nat :=
  let (n, d1) := match i.body, i.len with
    | some bs, _ => (bs.length, 0)
    | none, some n => (n, 0)
    | none, none => ((Config.freeValue s.draws).toNat % 256, 1)
  let k := (n + 7) / 8
  let slot := BitVec.ofNat 64 (i.slot.getD (slotWord n i.poison))
  match i.body with
  | some bs => (slot :: packWords k bs, d1)
  | none => (slot :: (List.range k).map fun j => Config.freeValue (s.draws + d1 + j), d1 + k)

/-- A read port of the bring-up window. -/
def getTap (s : State) (p : Nat) : PortTap := s.start.ports.getD p ⟨[], 0, false, []⟩

/-- A read port changed. -/
def modTap (p : Nat) (g : PortTap → PortTap) (s : State) : State :=
  { s with start := { s.start with ports := s.start.ports.modify p g } }

/-- R409: the oldest word of a port's FIFO is returned to a read and removed; an empty FIFO returns the last value again. -/
def popTap (f p : Nat) (s : State) : State :=
  let x := getTap s p
  let off := Reg.BRINGUP_PORT_DATA + 0x10 * p
  match x.fifo with
  | w :: rest =>
    emit (.readData f off w.value)
      (modTap p (fun y => { y with fifo := rest, last := w.value, lastFirst := w.first }) s)
  | [] => emit (.readData f off x.last) (fset (0x10 * p) Fl.BRINGUP_PORT_STATUS_UNDERRUN 1 s)

/-- R409: stalled reads are served in the order they came, as long as there are words. -/
def serveTap (p : Nat) (s : State) : State :=
  (getTap s p).stalled.foldl (fun t x =>
    if (getTap t p).fifo.isEmpty then t
    else popTap x.1 p (modTap p (fun y => { y with stalled := y.stalled.drop 1 }) t)) s

/-- The two FIFO words of a queue word, the low half first (R408). -/
def tapHalves (first : Bool) (w : BitVec 64) : List TapWord := [⟨w.truncate 32, first⟩, ⟨(w >>> 32).truncate 32, false⟩]

/-- The FIFO words of an item's queue words; the first begins the item (R408). -/
def tapWords : List (BitVec 64) → List TapWord
  | [] => []
  | w :: rest => tapHalves true w ++ rest.flatMap (tapHalves false)

/-- R408: words of an item enter a port's FIFO, all or none; a stalled read takes the first (R409). (DEDUCED, log 60) -/
def pushTap (p : Nat) (hs : List TapWord) (s : State) : State :=
  if 64 < (getTap s p).fifo.length + hs.length then fset (0x10 * p) Fl.BRINGUP_PORT_STATUS_OVERFLOW 1 s
  else serveTap p (modTap p (fun x => { x with fifo := x.fifo ++ hs }) s)

/-- R408: an item is copied into a port's FIFO. -/
def tapItem (p : Nat) (s : State) (i : TapItem) : State :=
  pushTap p (tapWords (i.words s).1) { s with draws := s.draws + (i.words s).2 }

/-- The items of `after` that are not among `before`, each of which accounts for one. -/
def newItems : List TapItem → List TapItem → List TapItem
  | _, [] => []
  | before, i :: after =>
    if before.contains i then newItems (before.erase i) after else i :: newItems before after

/-- Port `p` copies the items that a step from `before` brought into its queue (R408). -/
def tapPort (before : State) (p : Nat) (s : State) : State :=
  let base := 0x10 * p
  if fbit before base Fl.BRINGUP_PORT_CFG_TAP_EN && fbit s base Fl.BRINGUP_PORT_CFG_TAP_EN then
    let q := fget s base Fl.BRINGUP_PORT_CFG_QID
    (newItems (tapItems before q) (tapItems s q)).foldl (tapItem p) s
  else s

/-- Every read port copies (R408). -/
def tapAll (before s : State) : State := forBelow 4 (tapPort before) s

end Sys2Proof.Machine
end

