-- ==== Sys2Proof/Machine/Stevs.lean ====
section
/-!
DEFINITION. The stevedores (R277, R278): which functions may move bytes, the fault records, where the structures in host memory lie,
the class-0 writes that wait of themselves for a stevedore, and which ready job a free stevedore takes.
-/

namespace Sys2Proof.Machine

/-! ### Who may move -/

/-- A function's jobs may move: bus master on (R262), its port's link up (R292), not quiesced, and the unit not diagnosed or
halted (R376, R407). (DEDUCED, log 41) -/
def dmaOn (s : State) (f : Nat) : Bool :=
  (getFn s f).busMaster && (getPort s (portOf f)).linkUp && !(getFn s f).quiesced && serving s && s.claim.st ≠ .diag && !s.start.held

/-! ### Fault records -/

/-- Fault record `i` of function `f`. -/
def getFault (s : State) (f i : Nat) : Option FaultRec := (getFn s f).faults.getD i none

/-- Fault record `i` of function `f` set. -/
def setFault (f i : Nat) (r : Option FaultRec) (s : State) : State := modFn f (fun x => { x with faults := x.faults.set i r }) s

/-- The fault records of a function that are valid. -/
def validFaults (s : State) (f : Nat) : List FaultRec := (getFn s f).faults.filterMap id

/-- All 16 records of a function are valid: its further jobs are not started (R282). -/
def recordsFull (s : State) (f : Nat) : Bool := (validFaults s f).length = 16

/-- The site of a job (R283). -/
def JobWhat.site : JobWhat → Nat
  | .doorbell => 0
  | .fetch _ _ => 1
  | .gather _ _ | .campGather _ _ | .campResume _ _ | .ckptLoad _ _ => 2
  | .respond _ _ _ _ | .campRecord _ _ _ | .ckptWrite | .ckptBack => 3
  | .deliver _ => 4
  | .entry _ _ => 5
  | .status => 6

/-- The record whose parked job satisfies `ok`, if any. -/
def faultAt (s : State) (f : Nat) (ok : JobWhat → Bool) : Option Nat :=
  (getFn s f).faults.findIdx? fun r => r.any fun x => ok x.job.what

/-- The job writes an entry to return ring `c`. -/
def JobWhat.writes (c : Nat) : JobWhat → Bool
  | .entry q _ => q = c
  | _ => false

/-- The job fetches from submission ring `r`. -/
def JobWhat.fetches (r : Nat) : JobWhat → Bool
  | .fetch q _ => q = r
  | _ => false

/-- A SITE 5 fault stands on ring `c` (R283, R288). -/
def entryFault (s : State) (f c : Nat) : Option Nat := faultAt s f (JobWhat.writes c)

/-- A SITE 1 fault stands on ring `r` (R283). -/
def fetchFault (s : State) (f r : Nat) : Option Nat := faultAt s f (JobWhat.fetches r)

/-! ### Structures in host memory -/

/-- The 64-bit address in a pair of registers whose low word's low bits are flags (R294). -/
def addrPair (s : State) (lo hi mask : Nat) : Nat := (rd s hi).toNat * 4294967296 + (rd s lo).toNat / mask * mask

/-- The base address of ring `r` (R265). -/
def ringBase (s : State) (f r : Nat) : Nat := addrPair s (ringKey f r Reg.RING_BASE_LO) (ringKey f r Reg.RING_BASE_HI) 64

/-- The doorbell block's address (R267). -/
def dbAddr (s : State) (f : Nat) : Nat := addrPair s (fb f + Reg.RING_DB_LO) (fb f + Reg.RING_DB_HI) 64

/-- The status block's address (R268). -/
def sbAddr (s : State) (f : Nat) : Nat := addrPair s (fb f + Reg.RING_SB_LO) (fb f + Reg.RING_SB_HI) 64

/-- The doorbell block and the status block have addresses (R266). -/
def blocksValid (s : State) (f : Nat) : Bool :=
  bitAt 0 (rd s (fb f + Reg.RING_DB_LO)) && bitAt 0 (rd s (fb f + Reg.RING_SB_LO))

/-- The address of a return ring's next entry (R265). -/
def entryAddr (s : State) (f c : Nat) : Nat := ringBase s f c + (getRing s f c).tail.toNat % ringSize s f c * 32

/-! ### The next entry -/

/-- A job of function `f`, ready or on a stevedore, that satisfies `ok`. -/
def atWork (s : State) (f : Nat) (ok : Job → Bool) : Bool := (s.jobs ++ s.stevs.filterMap id).any fun j => j.fn = f && ok j

/-- The job writes a given entry to ring `c`: its first write of it faulted. -/
def Job.owns (c : Nat) (j : Job) : Bool :=
  match j.what with
  | .entry q (some _) => q = c
  | _ => false

/-- A return ring has room and takes entries: enabled, not stopped, and with no entry of its own that faulted (R265, R288). -/
def ringOpen (s : State) (f c : Nat) : Bool :=
  let r := getRing s f c
  ringOn s f c && (entryFault s f c).isNone && !atWork s f (Job.owns c) && (r.tail - r.head).toNat < ringSize s f c

/-- An entry can be written to return ring `c` now. -/
def canTake (s : State) (f c : Nat) : Bool := dmaOn s f && ringOpen s f c

/-- R274: the loss notice. -/
def lossEntry (s : State) (n : Nat) : Entry :=
  ⟨0xFFFFFFFF, stResetLost, 0x7F, false, BitVec.ofNat 32 n, noNode, nowNs s, BitVec.ofNat 64 s.flash.boot.incarnation.toNat⟩

/-- The held entry to be written next: the first whose ring can take it (R288). -/
def nextHeld (s : State) (f : Nat) : Option Nat := (getFn s f).held.findIdx? fun p => canTake s f p.1

/-- The return entry that function `f` writes next, with its ring, and the state without it (R274, R288): a loss notice ahead of
the rest, held entries ahead of those produced later; one that was held counts as it leaves the holding queue. -/
def nextEntry (s : State) (f : Nat) : Option (Nat × Entry × State) :=
  match (getFn s f).loss, canTake s f 6 with
  | some n, true => some (6, lossEntry s n, modFn f (fun x => { x with loss := none }) s)
  | _, _ =>
    match nextHeld s f with
    | some i =>
      match (getFn s f).held[i]? with
      | some (c, e) => some (c, e, bump (fb f) Ct.RING_HELD (modFn f (fun x => { x with held := x.held.eraseIdx i }) s))
      | none => none
    | none =>
      match (getFn s f).out with
      | (c, e) :: rest =>
        if canTake s f c && !((getFn s f).held.any fun p => p.1 = c) then
          some (c, e, modFn f (fun x => { x with out := rest }) s)
        else none
      | [] => none

/-- C3 delivery applies (R46). -/
def c3On (s : State) (f : Nat) : Bool := fbit s (fb f) Fl.EVT_CTRL_C3_EN && ringOn s f 7 && dmaOn s f

/-- C3 is full (R49). -/
def c3Full (s : State) (f : Nat) : Bool :=
  ringSize s f 7 ≤ ((getRing s f 7).tail - (getRing s f 7).head).toNat

/-- An event entry of C3 faulted, and the next ones wait for it. (DESIGN CHOICE, log 77) -/
def c3Waits (s : State) (f : Nat) : Bool := (entryFault s f 7).isSome || atWork s f (Job.owns 7)

/-- The event occurrence that is written to C3 next (R46, R47, R49). -/
def eventDue (s : State) (f : Nat) : Option EvOcc :=
  match (getFn s f).evq with
  | o :: _ =>
    if c3On s f && ((getFn s f).holdoffs.find o.code).isNone && !c3Full s f && !c3Waits s f then some o else none
  | [] => none

/-! ### The next delivery -/

/-- Content octets that a receive buffer has room for behind the delivery header (R251, R270). -/
abbrev rxContent : Nat := 2016

/-- What is written into the receive buffer: the header and the content, cut where it is too long (R251). -/
def UpItem.octets (i : UpItem) : List Byte := 
  i.header (min i.content.length rxContent) (rxContent < i.content.length) ++ i.content.take rxContent

/-- The upward item that is delivered next, the post that takes it, and the state without both (R287). -/
def deliverDue (s : State) (f : Nat) : Option (RxPost × UpItem × State) :=
  match (getFn s f).ups, (getFn s f).posts with
  | i :: ups, p :: posts => some (p, i, modFn f (fun x => { x with ups := ups, posts := posts }) s)
  | _, _ => none

/-- A delivery that has begun and was not parked (R287). -/
def Job.delivering (j : Job) : Bool :=
  match j.what with
  | .deliver (some _) => j.slot.isNone
  | _ => false

/-! ### Class-0 writes that wait -/

/-- The status block can be written: it is due, and no page request is out for it (R268, R280, R283 SITE 6). -/
def statusReady (s : State) (f : Nat) : Bool :=
  (getFn s f).statusDue && dmaOn s f &&
    !((getFn s f).faults.any fun r => r.any fun x => x.job.what = .status && x.auto)

/-- A class-0 write of function `f` (R277). -/
def writeJob (f : Nat) (what : JobWhat) (addr total : Nat) : Job := ⟨f, what, 0, addr, total, 0, true, [], false, false, none, false, 0⟩

/-- The class-0 writes of function `f` that are due: of a return entry, of an event entry, of the status block, of a delivery. -/
def writesDue (s : State) (f : Nat) : List Job :=
  (match nextEntry s f with
    | some (c, _, _) => [writeJob f (.entry c none) (entryAddr s f c) 32]
    | none => []) ++
  (match eventDue s f with
    | some _ => [writeJob f (.entry 7 none) (entryAddr s f 7) 32]
    | none => []) ++
  (if statusReady s f then [writeJob f .status (sbAddr s f) 64] else []) ++
  (match deliverDue s f with
    | some (p, i, _) =>
      if dmaOn s f && !atWork s f Job.delivering then [writeJob f (.deliver none) p.addr i.octets.length] else []
    | none => [])

/-- The job is a class-0 write that has not taken up what it writes. -/
def Job.open (j : Job) : Bool :=
  match j.what with
  | .entry _ none | .status | .deliver none => true
  | _ => false

/-- The class-0 writes of function `f` become ready, and those that are no longer due leave. -/
def readyWrites (f : Nat) (s : State) : State :=
  let due := writesDue s f
  let stays (j : Job) : Bool := j.fn ≠ f || !j.open || due.any fun w => w.what = j.what
  let jobs := s.jobs.filter stays
  let stevs := s.stevs.map fun o => o.filter stays
  { s with
    jobs := jobs ++ due.filter fun w => !((jobs ++ stevs.filterMap id).any fun j => j.fn = f && j.what = w.what)
    stevs := stevs }

/-! ### Assignment -/

/-- Stevedores that hold class-2 jobs (R278). -/
def bulkRunning (s : State) : Nat :=
  (s.stevs.filter fun j => match j with
    | some x => x.cls = 2
    | none => false).length

/-- Class `c` may take one more stevedore (R278): BULK_MAX bounds class 2. -/
def classOpen (s : State) (c : Nat) : Bool :=
  c ≠ 2 || bulkRunning s < fget s (fb (hmFn s)) Fl.RING_STEV_CFG_BULK_MAX

/-- The functions in the order of their turn after `last` (R278). (DEDUCED, log 41) -/
def turnOrder (last : Nat) : List Nat := (List.range 8).map fun k => (last + 1 + k) % 8

/-- The first ready job of class `c` of the function whose turn it is, by its place in the ready list (R278); a function with every
fault record valid starts none (R282). (DEDUCED, log 41) -/
def pickOf (s : State) (c : Nat) : Option Nat :=
  (turnOrder (s.lastServed.getD c 7)).findSome? fun f =>
    if dmaOn s f && !recordsFull s f then s.jobs.findIdx? fun j => j.cls = c ∧ j.fn = f else none

/-- The ready job that the next free stevedore takes (R278): the lowest class first. -/
def pickJob (s : State) : Option Nat :=
  (pickOf s 0).orElse fun _ => (pickOf s 1).orElse fun _ => if classOpen s 2 then pickOf s 2 else none

/-- A free stevedore that is not fenced (R28, R278). -/
def freeStev (s : State) : Option Nat :=
  (List.range 8).find? fun k => s.stevs[k]? = some none && !unitFenced s (4 + k)

/-- One assignment of a ready job to a free stevedore, where there is one of each. -/
def assignOne (s : State) : State :=
  match freeStev s, pickJob s with
  | some k, some i =>
    match s.jobs[i]? with
    | some j =>
      { s with
        jobs := s.jobs.eraseIdx i
        stevs := s.stevs.set k (some j)
        lastServed := s.lastServed.set j.cls j.fn }
    | none => s
  | _, _ => s

/-- Every free stevedore takes a ready job, as long as there is one (R278); class-0 writes that are due are ready. -/
def assignJobs (s : State) : State := (List.range 8).foldl (fun t _ => assignOne t) (forBelow 8 readyWrites s)

/-- The stevedore that makes a class-0 write of function `f`: the one that has the job, else a free one (R278). -/
def writer (s : State) (f : Nat) (ok : JobWhat → Bool) : Option Nat :=
  match (List.range 8).find? fun k => (s.stevs.getD k none).any fun j => j.fn = f && ok j.what with
  | some k => some k
  | none => if recordsFull s f then none else freeStev s

end Sys2Proof.Machine
end

