-- ==== Sys2Proof/Machine/Settle.lean ====
section
/-!
DEFINITION. What follows of itself from a state, whatever step led to it: the cells of the buffer pool in use (R341, R356), the
DMA jobs that free stevedores take (R278), and the levels of the output balls (R127, R138, R364, R372, R381, R422 to R425,
R432). Every meaning ends in `settle`.
-/

namespace Sys2Proof.Machine

/-! ### The buffer pool -/

/-- Cells of 256 octets that hold `n` octets (R341). -/
def cellsFor (n : Nat) : Nat := (n + 255) / 256

/-- Cells that a function's gathered payloads and upward items hold. -/
def FnS.cells (x : FnS) : Nat :=
  (x.rings.map fun r => (r.descs.map fun d => cellsFor d.payload.length).sum).sum +
    (x.ups.map fun u => cellsFor u.content.length).sum

/-- Cells that a job holds: the upward item that it delivers, or what its gather has brought so far (R277, R302). -/
def Job.cells (j : Job) : Nat :=
  match j.what with
  | .deliver (some (_, i)) => cellsFor i.content.length
  | .gather _ _ | .campGather _ _ => cellsFor j.octets.length
  | _ => 0

/-- Cells that jobs hold: ready, running, parked and landed ones. -/
def jobCells (s : State) : Nat :=
  ((s.jobs ++ s.stevs.filterMap id ++ s.landed).map Job.cells).sum +
    (s.fns.map fun x => ((x.faults.filterMap id).map fun r => r.job.cells).sum).sum

/-- Cells of the soft decisions of a frame, 4 bits per code bit at rate 1/2; an uncoded one has none (R113). -/
def RxRec.softCells (r : RxRec) : Nat := if r.coded then cellsFor (8 * r.psduLen) else 0

/-- Cells of the soft decisions of coded frames: in reception, waiting for an engine and with one (R113). (DEDUCED, log 52) -/
def softCells (s : State) : Nat :=
  (s.berths.map fun b => (b.demods.map fun d => (d.record.map RxRec.softCells).getD 0).sum).sum +
    (s.dec.queue.map fun c => c.record.softCells).sum + (s.dec.engines.map fun c => (c.map fun x => x.record.softCells).getD 0).sum

/-- Cells of the pool in use: gathers in progress, gathered payloads, upward items, queued frames, receive records, the soft decisions of coded
frames (4 bits per code bit, R113), reassembly (R236) and prepared source blocks (R302). (DEDUCED, log 52) -/
def cellsUsed (s : State) : Nat :=
  (s.fns.map FnS.cells).sum + jobCells s + (s.mac.queue.map fun f => cellsFor f.len).sum +
    (s.mac.records.map fun r => cellsFor r.psduLen).sum + softCells s +
    (s.svc.reasm.map fun r => cellsFor (r.frags.map Frag.len).sum).sum +
    (s.camp.prepared.map fun p => cellsFor p.2.2.length).sum

/-- HOLD_POOL.FREE (R356). -/
def cellsFree (s : State) : Nat := 40960 - cellsUsed s

/-- The pool has a cell for a queue other than 6 to 11 and 64 to 71 (R356). -/
def cellFree (s : State) : Bool := fget s 0 Fl.HOLD_POOL_CFG_RESV < cellsFree s

/-- The pool has `n` cells beside the reserved ones (R356). (DEDUCED, log 52) -/
def cellsOpen (s : State) (n : Nat) : Bool := fget s 0 Fl.HOLD_POOL_CFG_RESV + n ≤ cellsFree s

/-- R356: a producer of queue `q` finds no cell that it may take and stalls: counted once per stall, event 167. (DEDUCED, log 52) -/
def poolStall (q : Nat) (s : State) : State :=
  if s.hold.stalled.contains q then s
  else raise 167 q (bump 0 Ct.HOLD_POOL_STALL { s with hold := { s.hold with stalled := q :: s.hold.stalled } })

/-- R356: LOW_WATER follows the free count, and the stalls end when there is a cell. -/
def noteLowWater (s : State) : State :=
  if cellsFree s < s.hold.lowWater || (cellFree s && !s.hold.stalled.isEmpty) then
    { s with hold := { s.hold with
      lowWater := min (cellsFree s) s.hold.lowWater
      stalled := if cellFree s then [] else s.hold.stalled } }
  else s

/-- R356: event 166 is raised when the free count falls below WARN, and again only after it rose above. -/
def watchPool (s : State) : State :=
  let warn := fget s 0 Fl.HOLD_POOL_CFG_WARN
  if cellsFree s < warn then
    if s.hold.poolLow then s else raise 166 0 { s with hold := { s.hold with poolLow := true } }
  else if warn < cellsFree s ∧ s.hold.poolLow then { s with hold := { s.hold with poolLow := false } }
  else s

/-- What follows from the free count of the pool (R356). -/
def settlePool (s : State) : State := watchPool (noteLowWater s)

/-! ### Balls -/

/-- A push-pull output with an active level: `inverted` makes it active low. -/
def levelOf (active inverted : Bool) : Level := if active != inverted then .high else .low

/-- An open-drain ball: low when it drives. -/
def openDrain (drives : Bool) : Level := if drives then .low else .z

/-- RX_ON of a berth: RX_EN applied as 1 (R119). -/
def rxOn (s : State) (n : Nat) : Bool := fbit s (berthBase n) Fl.BERTH_RX_CTRL_RX_EN

/-- FEM_PA_EN_n is asserted (R127): from T_ramp − PA_LEAD_US to T_last + RAMP_US + PA_LAG_US of the frame on air. -/
def paOn (s : State) (n : Nat) : Bool :=
  match (getBerth s n).onAir with
  | none => false
  | some t =>
    let us (k : Nat) : Instant := BitVec.ofNat 48 (1000 * k)
    let ramp := fget s (berthBase n) Fl.BERTH_TX_RAMP_RAMP_US
    let lead := fget s (berthBase n) Fl.BERTH_TX_FEM_PA_LEAD_US
    let lag := fget s (berthBase n) Fl.BERTH_TX_FEM_PA_LAG_US
    0 ≤ instantDiff (t.preAt - us (ramp + lead)) (nowNs s) && 0 < instantDiff (nowNs s) (t.lastAt + us (ramp + lag))

/-- Berth `n` is in dry dock (R411). -/
def inDock (s : State) (n : Nat) : Bool := s.start.docked = some n

/-- One front-end ball (R127, R372, R411, R424): high-impedance until TX_FEM was applied since the reset, or while the gate is
closed with SHARED_FEM 1; else `live` with the gate open and `idle` with it closed. -/
def femLevel (s : State) (n : Nat) (live idle : Level) : Level :=
  if !(s.start.femDriven.getD n false) || s.start.held || !berthPresent s n then .z
  else if gateOpen s then live
  else if fbit s 0 Fl.CLAIM_CFG_SHARED_FEM then .z
  else idle

/-- The coexistence group of a berth: 0 below 1 GHz, 1 at 2.4 GHz (R137). -/
def coexGroup (n : Nat) : Nat := if n < 4 then 0 else 1

/-- The transmissions of a group that hold its request (R138). -/
def coexHolders (s : State) (g : Nat) : List Tx :=
  ((List.range 6).filter fun n => coexGroup n = g).flatMap fun n =>
    let b := getBerth s n
    ((b.onAir.toList ++ b.requests).filter fun t => t.coexHeld)

/-- The classes that set COEX_PRI_g: EBs, Enh-ACKs, block-ack frames and urgent traffic (R138). -/
def TxClass.prior : TxClass → Bool
  | .eb | .ba | .urgent | .ack => true
  | .bulk | .campaign => false

/-- One coexistence ball (R138, R381, R424): deasserted unless ACTIVE; high-impedance until BCOM_COEX_CFGg was taken since the reset. -/
def coexLevel (s : State) (g : Nat) (active pol : Bool) : Level :=
  if !(s.start.coexDriven.getD g false) || s.start.held || (s.otp.is2614 && g = 1) then .z
  else levelOf (active && gateOpen s && fbit s (4 * g) Fl.BCOM_COEX_CFG_EN) pol

/-- A unit's claim (R363): 0ppp in STANDBY, 1ppp in RISING and ACTIVE, else 0. -/
def ownClaim (s : State) : BitVec 4 :=
  match s.claim.st with
  | .none | .diag => 0
  | .standby => BitVec.ofNat 4 s.start.straps.claim.val
  | .rising | .active => BitVec.ofNat 4 (8 + s.start.straps.claim.val)

/-- The bus value: the bus settles to the highest claim present (R364). (DEDUCED, log 54) -/
def busValue (own others : BitVec 4) : BitVec 4 := if own.toNat < others.toNat then others else own

/-- BOLLARD_k is pulled low (R364): bit k of the claim, while every bus bit above equals its own. -/
def bollardDrives (own others : BitVec 4) (k : Nat) : Bool :=
  own.getLsbD k && (List.range 4).all fun j => j ≤ k || own.getLsbD j = (busValue own others).getLsbD j

/-- The phase is MAQUETTE or later and start-up did not halt (R404, R405, R407). -/
def pastSelftest (s : State) : Bool :=
  match s.start.phase with
  | .fuses | .fill | .selftest | .halted => false
  | .maquette | .init | .service | .recovery => true

/-- The phase is INIT or later (R424). -/
def pastInit (s : State) : Bool :=
  match s.start.phase with
  | .init | .service | .recovery => true
  | _ => false

/-- One TRIG ball (R81, R424): driven while OUT_EN is 1. -/
def trigLevel (s : State) (k : Nat) : Level :=
  let base := 0x20 * k
  if s.start.held || !fbit s base Fl.TIME_TRIG_CFG_OUT_EN then .z
  else levelOf ((s.time.trigs.getD k ⟨none, none⟩).active.isSome) (fbit s base Fl.TIME_TRIG_CFG_POL)

/-- TIDE_PPS_OUT (R83, R381, R424): the pulse of a source in ACTIVE, else low from phase INIT on. (DEDUCED, log 56) -/
def tideLevel (s : State) : Level :=
  if s.start.held || !pastInit s then .z
  else if s.claim.st = .diag then .low
  else if !fbit s 0 Fl.TIME_CTRL_TIDE_SRC then .low
  else
    match s.time.tideLastPulse with
    | none => .low
    | some t => if monoNs s < t + 1000 then .high else .low

/-- TIDE_TOD (R83, R424): driven by a source from the start bit to the stop bit of each message, 100 ns to a bit, from 2 µs after
the pulse's edge; released otherwise. (DEDUCED, log 56) -/
def tideTodLevel (s : State) : Level :=
  if s.start.held || !pastInit s || s.claim.st = .diag || !fbit s 0 Fl.TIME_CTRL_TIDE_SRC then .z
  else
    match s.time.tideLastPulse with
    | none => .z
    | some t =>
      let bit := (monoNs s - (t + 2000)) / 100
      match s.time.tideOctets[bit / 10]? with
      | none => .z
      | some x =>
        if monoNs s < t + 2000 then .z
        else if bit % 10 = 0 then .low
        else if bit % 10 = 9 || x.getLsbD (bit % 10 - 1) then .high
        else .low

/-- The level of every output ball in a state. -/
def pinLevels (s : State) : Pins where
  femPa := (List.range 6).map fun n =>
    let pol := fbit s (berthBase n) Fl.BERTH_TX_FEM_PA_POL
    femLevel s n (levelOf (paOn s n) pol) (levelOf false pol)
  femLna := (List.range 6).map fun n =>
    let pol := fbit s (berthBase n) Fl.BERTH_TX_FEM_LNA_POL
    femLevel s n (levelOf (rxOn s n && (getBerth s n).blankEnd.isNone && !inDock s n) pol) (levelOf false pol)
  antSel := (List.range 6).map fun n =>
    let lev (f : Fld) : Level := if fbit s (berthBase n) f then .high else .low
    femLevel s n (lev (if (getBerth s n).blankEnd.isSome then Fl.BERTH_TX_FEM_ANT_TX else Fl.BERTH_TX_FEM_ANT_RX))
      (lev Fl.BERTH_TX_FEM_ANT_RX)
  coexReq := (List.range 2).map fun g =>
    coexLevel s g (!(coexHolders s g).isEmpty) (fbit s (4 * g) Fl.BCOM_COEX_CFG_REQ_POL)
  coexPri := (List.range 2).map fun g =>
    coexLevel s g ((coexHolders s g).any fun t => t.cls.prior) (fbit s (4 * g) Fl.BCOM_COEX_CFG_PRI_POL)
  trig := (List.range 8).map (trigLevel s)
  bollard := (List.range 4).map fun k => openDrain (!s.start.held && bollardDrives (ownClaim s) s.claim.others k)
  failoverN := openDrain (!s.start.held && s.claim.failoverOut)
  mgmtAlertN := openDrain (!s.start.held && s.mgmt.alert ≠ 0)
  tidePpsOut := tideLevel s
  tideTod := tideTodLevel s
  scuttledOut := if s.plinth.root.isNone then .high else .low
  tmeshOut := s.plinth.lfsr.map fun x => if x.getLsbD 14 then .high else .low
  resetOutN := if pastSelftest s && !s.start.held then .high else .low
  qspiResetN := if pastSelftest s && !s.start.held then .high else .low
  clkreqN := if s.start.porLow then .z else .low
  wakeN := .z

/-- The balls take their levels. -/
def settlePins (s : State) : State := { s with pins := pinLevels s }

/-- What follows of itself from a state. -/
def settle (s : State) : State := settlePins (assignJobs (settlePool s))

/-- A step of the device: nothing happens while POR_N is low, a brown-out lasts or the TAP holds the device (R400, R403). -/
def act (f : State → State) (s : State) : Host.Outcome State Fault Refusal :=
  .next (if s.start.held then s else settle (tapAll s (f s)))

/-- A step of an engine: none runs while start-up is halted (R407). -/
def engine (f : State → State) (s : State) : Host.Outcome State Fault Refusal :=
  act (fun t => match t.start.phase with
    | .halted => t
    | _ => f t) s

end Sys2Proof.Machine
end

