-- ==== Sys2Proof/Machine/Access.lean ====
section
/-!
DEFINITION. A host's register access (R34 to R41, R460): whether it reaches a register, the bus errors, the two stages of a
write's check, posted and buffered writes, and the plain effect of a write on the bits of its register.
-/

namespace Sys2Proof.Machine

/-- The cause bits of IDENT_BUS_ERR (R41, R52). -/
inductive BusCause where
  | size
  | forbidden
  | reserved
  | uncorr
  deriving DecidableEq, Repr

/-- The cause's bit in IDENT_BUS_ERR (R52). -/
def BusCause.bit : BusCause → Nat
  | .size => 2
  | .forbidden => 3
  | .reserved => 4
  | .uncorr => 5

/-- R41: the function logs a Completer Abort with the request's header in its AER uncorrectable error status, and signals it as a
non-fatal error. (PRESUMED, log 68) -/
def logAbort (f off : Nat) (read : Bool) (shape : Shape) (s : State) : State :=
  emit (.nonFatalError f) (modFn f (fun x => { x with aer := some ⟨read, off, shape⟩ }) s)

/-- R41: the accessing function's IDENT_BUS_ERR takes the access, its cause and its offset; a read completes with Completer
Abort; AER logs it. Nothing else changes. -/
def busError (f off : Nat) (read : Bool) (shape : Shape) (c : BusCause) (s : State) : State :=
  let k := keyOf f Reg.IDENT_BUS_ERR
  let w := setBitAt c.bit (setBitAt (if read then 0 else 1) (rd s k) true) true
  let s1 := wr k (putBits 31 16 w (off / 4 * 4)) s
  logAbort f off read shape (if read then emit (.completerAbort f off) s1 else s1)

/-- RING_GRANT of function `f`, as the harbour master function's view holds it (R263). -/
def grantWord (s : State) (f : Nat) : Word := rd s (fb (hmFn s) + Reg.RING_GRANT + 4 * f)

/-- A function may reach a block (R34, R35): the harbour master function every block, others their own views and the blocks
granted to them, never GEVT and TEST. -/
def mayReach (s : State) (f : Nat) (b : Block) : Bool :=
  match b.grantBit with
  | none => true
  | some k => f = hmFn s || (k < 19 && bitAt k (grantWord s f))

/-- What an access reaches. -/
inductive Reach where
  | reg (b : Block) (r : RegRow) (i : Nat)
  | err (c : BusCause)
  deriving DecidableEq, Repr

/-- The grant section of the RING block exists in the harbour master function's view only (R294). -/
def grantSection (off : Nat) : Bool := 0x700 ≤ off && off < 0x72C

/-- A location that is reserved for this access (R1, R41, R294): an absent berth's, or the grant section in the view of a function
other than the harbour master function. -/
def locReserved (s : State) (f off : Nat) : Block → Bool
  | .berth n => !berthPresent s n.val
  | .ring => grantSection off && f ≠ hmFn s
  | _ => false

/-- The register that an access names, or its bus error (R34, R36, R41). (DESIGN CHOICE, log 70) -/
def reach (s : State) (f off : Nat) (shape : Shape) : Reach :=
  match shape with
  | .malformed => .err .size
  | .word =>
    if off % 4 ≠ 0 then .err .size
    else
      match rowOf off with
      | none => .err .reserved
      | some (b, r, i) =>
        if locReserved s f off b then .err .reserved
        else if mayReach s f b then .reg b r i
        else .err .forbidden

/-- A read of a read port by function `f` is stalled (R409). -/
def stalledFn (s : State) (f : Nat) : Bool := s.start.ports.any fun p => p.stalled.any fun x => x.1 = f

/-- Accesses of a function reach the device: its functions are ready and its port's link is up (R406, R292), and no earlier read of
it is stalled (R409). (DEDUCED, log 45) -/
def hostReady (s : State) (f : Nat) : Bool :=
  s.start.functionsReady && (getPort s (portOf f)).linkUp && !stalledFn s f

/-- A block shows BUSY: a posted write is not acknowledged (R38, R39), or its long operation runs (R136, R338, R361, R419).
(DESIGN CHOICE, log 64) -/
def blockBusy (s : State) (b : Block) : Bool :=
  (s.posted.any fun p => p.block = b) ||
    match b with
    | .plinth => s.plinth.provisioning.isSome
    | .bcom => s.bcom.fusing
    | .test => s.start.dock.isSome
    | .hold => s.hold.flushing.isSome || s.hold.repairing.isSome
    | _ => false

/-- While start-up is halted only IDENT, BRINGUP, TEST, HOLD and FABRIC take writes (R407). -/
def blockLive (s : State) (b : Block) : Bool :=
  match s.start.phase with
  | .halted =>
    match b with
    | .ident | .bringup | .test | .hold | .fabric => true
    | _ => false
  | _ => true

/-- A register whose writes are never posted and never dropped (R38): the block's status register. -/
def isStatus (b : Block) (r : RegRow) : Bool := relOff b b.base = r.off && b ≠ .ident && b ≠ .evt

/-- The plain effect of a written word on a register (R37): `rw` bits take it, `w1c` bits written as 1 clear. -/
def mixWord (r : RegRow) (old v : Word) : Word :=
  let rw := BitVec.ofNat 32 r.rw
  let wc := BitVec.ofNat 32 r.w1c
  (old &&& ~~~(rw ||| wc)) ||| (v &&& rw) ||| (old &&& wc &&& ~~~v)

/-- The plain effect stored. -/
def plainWrite (k : Nat) (r : RegRow) (v : Word) (s : State) : State := wr k (mixWord r (rd s k) v) s

/-- The register row of a key (R34). -/
def rowOfKey (k : Nat) : Option RegRow := (rowOf (k % 0x10000)).map fun x => x.2.1

/-- The plain effect of a word on the register of a key. -/
def storeKey (k : Nat) (v : Word) (s : State) : State :=
  match rowOfKey k with
  | some r => plainWrite k r v s
  | none => s

/-- A value becomes pending (R40); a second one replaces the first. -/
def pendPut (k : Nat) (v : Word) (s : State) : State := { s with pend := s.pend.put k v }

/-- The pending values whose keys lie in [lo, hi). -/
def pendIn (s : State) (lo hi : Nat) : List (Nat × Word) := s.pend.filter fun p => lo ≤ p.1 && p.1 < hi

/-- Pending values whose keys lie in [lo, hi) are gone (R40). -/
def pendClear (lo hi : Nat) (s : State) : State :=
  { s with pend := s.pend.filter fun p => !(lo ≤ p.1 && p.1 < hi) }

/-- The value of a key after a boundary: the pending one, else the applied one (R40). -/
def nextVal (s : State) (k : Nat) : Word := (s.pend.find k).getD (rd s k)

/-- One value of a boundary: applied where `ok` holds of it against the state, else rejected in the status register `st` (R40,
R460 stage 2). -/
def applyOne (st : Nat) (ok : Nat → Word → State → Bool) (p : Nat × Word) (s : State) : State :=
  if ok p.1 p.2 s then storeKey p.1 p.2 s else reject st s

/-- All values of a block that are pending at its boundary are checked and applied together (R40). -/
def applyPending (lo hi st : Nat) (ok : Nat → Word → State → Bool) (s : State) : State :=
  pendClear lo hi ((pendIn s lo hi).foldl (fun t p => applyOne st ok p t) s)

/-- The blocks whose posted and buffered writes cross a quay, or wait for the far side of their engine (R24, R39).
(DEDUCED, log 24) -/
def crossesQuay (b : Block) : Bool :=
  match b with
  | .berth _ | .bcom | .time | .claim | .plinth | .key | .fw | .test => true
  | _ => false

/-- The function shows activity (R291). -/
def active (f : Nat) (s : State) : State := modFn f (fun x => { x with liveMono := monoNs s }) s

/-- A host write as far as every register has it in common (R36 to R39, R460 stage 1): `ok` is the stage-1 check beyond the
ranges of the register's row, `eff` what a write that passes does. (DEDUCED, log 9) -/
def hostWriteWith (f off : Nat) (v : Word) (shape : Shape) (ok : Block → RegRow → Nat → Bool)
    (eff : Block → RegRow → Nat → State → State) (s : State) : State :=
  if hostReady s f then
    let t := active f s
    match reach s f off shape with
    | .err c => busError f off false shape c t
    | .reg b r i =>
      if !blockLive s b then t
      else if isStatus b r then plainWrite (keyOf f off) r v t
      else if blockBusy s b then postDrop (statusKey f b) t
      else if checksOk r v && ok b r i then eff b r i t
      else reject (statusKey f b) t
  else s

/-- A register access by the host to one register with an effect of its own (a row of the operation table). (DEDUCED, log 9) -/
def rowWrite (f off : Nat) (v : Word) (ok : Bool) (eff : State → State) (s : State) : State :=
  hostWriteWith f off v .word (fun _ _ _ => ok) (fun _ _ _ => eff) s

/-- The far side takes a posted value (R39): the stage-1 rights and ranges hold, `ok` is the stage-2 check, and a value that
fails it is rejected. -/
def farSide (st : Nat) (ok : Bool) (eff : State → State) (s : State) : State := if ok then eff s else reject st s

end Sys2Proof.Machine
end

