-- ==== Sys2Proof/Machine/HoldRead.lean ====
section
/-!
DEFINITION. What a read of the hold meets (R340 to R348): corrected bits and their log, and uncorrectable words with their
counters, registers and event 160.
-/

namespace Sys2Proof.Machine

/-- PATH codes (R348). -/
inductive UePath where
  | register
  | table
  | fetch
  | load
  | tagged
  | engine
  | stevedore
  | struct
  deriving DecidableEq, Repr

/-- The code of a path (R348). -/
def UePath.code : UePath → Nat
  | .register => 0
  | .table => 1
  | .fetch => 2
  | .load => 3
  | .tagged => 4
  | .engine => 5
  | .stevedore => 6
  | .struct => 7

/-- The code of an uncorrectable class in HOLD_LAST_UE_INFO (R361). -/
def UeClass.code : UeClass → Nat
  | .ue => 0
  | .addr => 1
  | .poison => 2

/-- A location lies in a pilot memory (R356). -/
def locPilot (loc : BitVec 26) : Bool := loc.getLsbD 25

/-- The bank of a hold location, or the core of a pilot-memory one (R340, R356). -/
def locBank (loc : BitVec 26) : Nat :=
  if locPilot loc then (loc.toNat >>> 23) % 4 else (loc.toNat >>> 18) % 16

/-- The word within its bank (R340). -/
def locWord (loc : BitVec 26) : Nat := loc.toNat % 2 ^ 18

/-- The location of word `w` of a directory entry (R194, R340). -/
def dirLoc (h w : Nat) : BitVec 26 := BitVec.ofNat 26 (h / 32768 * 2 ^ 18 + h % 32768 * 8 + w)

/-- The structure at a location, as the table engine finds it (R341). -/
def structAt (loc : BitVec 26) : Struct :=
  let w := locWord loc
  if locPilot loc then .other
  else if locBank loc < 8 then .dir (locBank loc * 32768 + w / 8) (w % 8)
  else if locBank loc = 8 then .bucket (w / 2)
  else if locBank loc = 10 ∧ w < 98304 then .nbr (w / 8 / 2048) (w / 8 % 2048)
  else .other

/-- Changes of the hold's own state. -/
def modHold (g : HoldS → HoldS) (s : State) : State := { s with hold := g s.hold }

/-- The words of a location were written: its next uncorrectable read raises event 160 again (R348). -/
def holdWritten (loc : BitVec 26) (s : State) : State := modHold (fun h => { h with seen := h.seen.filter (· ≠ loc) }) s

/-- R345: a corrected bit enters the log. -/
def logCe (loc : BitVec 26) (bit : Nat) (s : State) : State :=
  match s.hold.log.findIdx? fun e => e.loc = loc with
  | some i =>
    let e := s.hold.log.getD i ⟨loc, bit, 0, false⟩
    let e2 : CeEnt := ⟨loc, bit, min 255 (e.count + 1), true⟩
    let s1 := modHold (fun h => { h with log := h.log.set i e2 }) s
    if e.recurring then s1 else raiseAux 161 0 loc.toNat s1
  | none =>
    if s.hold.log.length < 32 then modHold (fun h => { h with log := h.log ++ [⟨loc, bit, 1, false⟩] }) s
    else if fbit s 0 Fl.HOLD_STATUS_LOG_FULL then s
    else raiseAux 162 0 loc.toNat (fset 0 Fl.HOLD_STATUS_LOG_FULL 1 s)

/-- R344: more than RATE corrected bits within one second; at most one event a second. (DEDUCED, log 52) -/
def ceRate (s : State) : State :=
  let now := monoNs s
  let ces := s.hold.ces.filter (fun t => now < t + 1000000000) ++ [now]
  let s1 := modHold (fun h => { h with ces := ces }) s
  let due : Bool := match s.hold.rateMono with
    | some t => t + 1000000000 ≤ now
    | none => true
  if fget s 0 Fl.HOLD_CE_CFG_RATE < ces.length ∧ due then raise 163 0 (modHold (fun h => { h with rateMono := some now }) s1)
  else s1

/-- R344: a correctable error is counted and logged; the data is right. (DESIGN CHOICE, log 53) -/
def metCe (loc : BitVec 26) (bit : Nat) (s : State) : State :=
  ceRate (logCe loc bit (bump 0 (if locPilot loc then Ct.HOLD_PILOT_CE else Ct.HOLD_CE) s))

/-- R348: an uncorrectable read on a path is counted, shown and told. (DESIGN CHOICE, log 53) -/
def metUe (p : UePath) (cls : UeClass) (loc : BitVec 26) (s : State) : State :=
  let s1 := match cls with
    | .ue => bump 0 Ct.HOLD_UE s
    | .addr => bump 0 Ct.HOLD_ADDR_ERR (bump 0 Ct.HOLD_UE s)
    | .poison => bump 0 Ct.HOLD_POISON_READ s
  let s2 := fset 0 Fl.HOLD_LAST_UE_INFO_PATH p.code
    (fset 0 Fl.HOLD_LAST_UE_INFO_CLASS cls.code (fset 0 Fl.HOLD_LAST_UE_LOC_LOC loc.toNat s1))
  if s2.hold.seen.contains loc then s2
  else
    raiseAux 160 (locBank loc + p.code * 16 + cls.code * 256) loc.toNat
      (modHold (fun h => { h with seen := loc :: h.seen }) s2)

/-- What reading the hold met, on a path. (DESIGN CHOICE, log 53) -/
def holdMet (p : UePath) (m : HoldRead) (s : State) : State :=
  match m with
  | .clean => s
  | .ce loc bit => metCe loc bit.val s
  | .bad cls loc => metUe p cls loc s

/-- The location of an uncorrectable read, if there was one. -/
def HoldRead.badLoc : HoldRead → Option (BitVec 26)
  | .bad _ loc => some loc
  | _ => none

end Sys2Proof.Machine
end

