-- ==== Sys2Proof/Machine/Tables.lean ====
section
/-!
DEFINITION. The neighbour tables, the node directory and the cuckoo index (R186 to R208), the home berth (R192), the route
walker (R214, R215), and the images of entries, as far as they need no frame.
-/

namespace Sys2Proof.Machine

/-- The tables changed. -/
def modTab (g : TablesS → TablesS) (s : State) : State := { s with tables := g s.tables }

/-- ROUTE_PREFIX, octet 0 first (R223). -/
def routePrefix (s : State) : BitVec 64 :=
  BitVec.ofNat 64 ((rd s Reg.ROUTE_PREFIX_HI).toNat * 2 ^ 32 + (rd s Reg.ROUTE_PREFIX_LO).toNat)

/-- ROUTE_DODAGID, octet 0 first (R223). -/
def dodagId (s : State) : Ip6 :=
  BitVec.ofNat 128 ((List.range 4).foldl (fun n i => n * 2 ^ 32 + (rd s (Reg.ROUTE_DODAGID + 4 * i)).toNat) 0)

/-- The device's own IPv6 address (R228). -/
def deviceAddr (s : State) : Ip6 := Ip6.of (routePrefix s) s.otp.eui

/-! ### The cuckoo index -/

/-- mix64 of R202. -/
def mix64 (z0 : BitVec 64) : BitVec 64 :=
  let z1 := (z0 ^^^ (z0 >>> 33)) * 0xFF51AFD7ED558CCD
  let z2 := (z1 ^^^ (z1 >>> 33)) * 0xC4CEB9FE1A85EC53
  z2 ^^^ (z2 >>> 33)

/-- alt of R202. -/
def altOf (seed1 : BitVec 64) (tag : Nat) : Nat :=
  let a := (mix64 (BitVec.ofNat 64 tag ^^^ seed1)).toNat % 131072
  if a = 0 then 1 else a

/-- The index keys of an EUI-64 (R202). -/
structure IndexKeys where
  b1 : Nat
  b2 : Nat
  tag : Nat
  v0 : Nat
  deriving DecidableEq, Repr

/-- keys of R202. -/
def keysFor (seed0 seed1 : BitVec 64) (e : Eui) : IndexKeys :=
  let z := (mix64 (e ^^^ seed0)).toNat
  let b1 := z % 131072
  let tag := (z >>> 17) % 16384
  ⟨b1, b1 ^^^ altOf seed1 tag, tag, (z >>> 31) % 4⟩

/-- The index keys under the unit's seeds. -/
def keysOf (s : State) (e : Eui) : IndexKeys := keysFor s.tables.seed0 s.tables.seed1 e

/-- The four ways of a bucket (R201). -/
def waysOf (s : State) (b : Nat) : List Way := (s.tables.index.find b).getD (List.replicate 4 ⟨0, 0⟩)

/-- A way written. -/
def putWay (b i : Nat) (w : Way) (s : State) : State :=
  modTab (fun t => { t with index := t.index.put b ((waysOf s b).set i w) }) s

/-- The first empty way of a bucket. -/
def emptyWay (s : State) (b : Nat) : Option Nat := (waysOf s b).findIdx? fun w => w.handle1 = 0

/-- The bucket is under repair (R205). -/
def underRepair (s : State) (k : IndexKeys) : Bool := s.tables.repairing = some k.b1 || s.tables.repairing = some k.b2

/-- probe of R203. -/
def probe (s : State) (e : Eui) : Option Handle :=
  let k := keysOf s e
  (waysOf s k.b1 ++ waysOf s k.b2).findSome? fun w =>
    if w.handle1 ≠ 0 ∧ w.tag = k.tag then
      match dirGet s (w.handle1 - 1) with
      | some d => if d.eui = e then some (w.handle1 - 1) else none
      | none => none
    else none

/-- lookup of R203: no relocation runs within a step, so one probe suffices. A lookup that touches a bucket under repair waits
and finds what the repaired bucket will hold (R205). -/
def lookup (s : State) (e : Eui) : Option Handle :=
  if underRepair s (keysOf s e) then (dirByEui s e).map Prod.fst else probe s e

/-- The relocation path of R204: the (bucket, way) pairs from b1 on, and the bucket and way at which it ends. -/
def relocPath (s : State) (v0 : Nat) : Nat → Nat → Nat → List (Nat × Nat) → Option (List (Nat × Nat) × (Nat × Nat))
  | 0, _, _, _ => none
  | fuel + 1, i, b, path =>
    let p := (b, (v0 + i) % 4)
    if path.contains p then none
    else
      let w := (waysOf s b).getD p.2 ⟨0, 0⟩
      let b2 := b ^^^ altOf s.tables.seed1 w.tag
      match emptyWay s b2 with
      | some j => some (path ++ [p], (b2, j))
      | none => relocPath s v0 fuel (i + 1) b2 (path ++ [p])

/-- R204 step 3: the path is executed from its end to its start; answers the way vacated last. -/
def execPath : List (Nat × Nat) → Nat × Nat → State → (Nat × Nat) × State
  | [], hole, s => (hole, s)
  | p :: rest, hole, s =>
    let w := (waysOf s p.1).getD p.2 ⟨0, 0⟩
    execPath rest p (wr Reg.ROUTE_RGEN (rd s Reg.ROUTE_RGEN + 1) (putWay hole.1 hole.2 w s))

/-- R204: handle `h` with EUI `e` enters the index; the number of moves, or none where the insertion fails. -/
def insertWay (h : Handle) (e : Eui) (s : State) : Option Nat × State :=
  let k := keysOf s e
  let w : Way := ⟨h + 1, k.tag⟩
  match emptyWay s k.b1, emptyWay s k.b2 with
  | some i, _ => (some 0, putWay k.b1 i w s)
  | none, some i => (some 0, putWay k.b2 i w s)
  | none, none =>
    match relocPath s k.v0 64 0 k.b1 [] with
    | none => (none, s)
    | some (path, hole) =>
      let r := execPath path.reverse hole s
      (some path.length, putWay r.1.1 r.1.2 w r.2)

/-- R205: the scan reinserts the valid entries that hash to the bucket and are in none of their buckets. -/
def reinsertAll (b : Nat) (s : State) : State :=
  s.tables.dir.foldl (fun t p =>
    let k := keysOf t p.2.eui
    if (k.b1 = b ∨ k.b2 = b) ∧ probe t p.2.eui = none then (insertWay p.1 p.2.eui t).2 else t) s

/-- R205: the repair ends. -/
def repairDone (s : State) : State :=
  match s.tables.repairing with
  | none => s
  | some b =>
    let s1 := reinsertAll b s
    raiseAux 102 b 1 (fset 0 Fl.ROUTE_STATUS_REPAIR 0 (modTab (fun t => { t with repairing := none }) s1))

/-- R205: a bucket meets an uncorrectable error; a repair that still runs ends first. -/
def repairStart (b : Nat) (s : State) : State :=
  let s1 := repairDone s
  raiseAux 102 b 0 (fset 0 Fl.ROUTE_STATUS_REPAIR 1
    (modTab (fun t => { t with repairing := some b, index := t.index.put b (List.replicate 4 ⟨0, 0⟩) }) s1))

/-- R204, R205: an insertion that touches a bucket under repair waits for its end. -/
def indexInsert (h : Handle) (e : Eui) (s : State) : Option Nat × State :=
  insertWay h e (if underRepair s (keysOf s e) then repairDone s else s)

/-- The way of a handle leaves the index. -/
def indexRemove (h : Handle) (e : Eui) (s : State) : State :=
  let k := keysOf s e
  let clear (b : Nat) (t : State) : State :=
    match (waysOf t b).findIdx? fun w => w.handle1 = h + 1 with
    | some i => putWay b i ⟨0, 0⟩ t
    | none => t
  clear k.b2 (clear k.b1 s)

/-- Meaning of INDEX_REPAIR_DONE. -/
def execIndexRepairDone (s : State) : Host.Outcome State Fault Refusal := engine repairDone s

/-! ### Strays -/

/-- The EUI-64 leaves the stray list (R207). -/
def strayDrop (e : Eui) (s : State) : State :=
  modTab (fun t => { t with strays := t.strays.filter fun x => x.eui ≠ e }) s

/-- R207: a stray is recorded; a new entry replaces the old. -/
def strayPut (x : Stray) (s : State) : State :=
  let s1 := strayDrop x.eui s
  if s1.tables.strays.length < 64 then modTab (fun t => { t with strays := t.strays ++ [x] }) s1
  else raiseAux 108 0 x.eui.toNat (bump 0 Ct.ROUTE_STRAY_FULL s1)

/-- R207: the end of a stray's lifetime. -/
def doStrayExpired (e : Eui) (s : State) : State :=
  match s.tables.strays.find? fun x => x.eui = e with
  | some x =>
    match x.until? with
    | some t => strayDrop e (elapseToMono t s)
    | none => s
  | none => s

/-- Meaning of STRAY_EXPIRED. -/
def execStrayExpired (e : Eui) (s : State) : Host.Outcome State Fault Refusal := engine (doStrayExpired e) s

/-! ### Entries of the directory -/

/-- A new directory entry (R187): the EUI-64, STATE and TENANT; all else 0, parents none and groups empty. -/
def DirEnt.fresh (e : Eui) (st : NodeState) (tenant depth : Nat) : DirEnt where
  eui := e
  parent0 := noNode
  parent1 := noNode
  depth := depth
  tenant := tenant
  state := st
  pref := 0
  castGen := 0
  campState := 0
  lastRsn := 0
  lastEpoch := 0
  daoLife := 0
  sealTxSeq := 0
  sealRxHigh := 0
  daoSeq := 0
  campId := 0
  sealRxWin := 0
  campPos := 0
  nbr := 0
  nbrValid := false
  mid0 := 0
  mid1 := 0
  rxCnt := 0
  txFail := 0
  groups := List.replicate 8 0xFFF
  bad := []

/-- A handle that no entry and no free list names, from the next never used one on (R194). -/
def freshHandle (s : State) : Option Handle :=
  let t := s.tables
  ((List.range (t.dir.length + t.dirFreed.length + 1)).map (t.dirNext + ·)).find? fun h =>
    h < noNode && !t.dir.has h && !t.dirFreed.contains h

/-- The handle allocated next (R194). -/
def nextHandle (s : State) : Option Handle := (freshHandle s).orElse fun _ => s.tables.dirFreed.head?

/-- A handle is taken for a new entry (R194). -/
def takeHandle (h : Handle) (s : State) : State :=
  modTab (fun t => { t with
    dirNext := if freshHandle s = some h then h + 1 else t.dirNext
    dirFreed := t.dirFreed.filter (· ≠ h) }) s

/-- R187, R207, R217: an entry is inserted at a handle and in the index; the number of moves, or none where that fails. -/
def dirInsert (h : Handle) (d : DirEnt) (s : State) : Option Nat × State :=
  let r := indexInsert h d.eui s
  match r.1 with
  | none => (none, r.2)
  | some n => (some n, strayDrop d.eui (dirPut h d (takeHandle h r.2)))

/-- R206: an insertion fails, with the RESULT of its row. -/
def insertFailed (result : Nat) (e : Eui) (s : State) : State :=
  raiseAux 100 result e.toNat (bump 0 Ct.ROUTE_INSERT_FAIL s)

/-- R200: an entry is marked SUSPECT; the word of its state is written. -/
def markSuspect (h : Handle) (s : State) : State :=
  raiseNode 101 0 h (bump 0 Ct.ROUTE_SUSPECT
    (holdWritten (dirLoc h 1) (dirMod h (fun d => { d with state := .suspect, bad := d.bad.filter (· ≠ 1) }) s)))

/-- What the hold's read met where frames and walks read the tables (R200, R205): a word of an entry that is uncorrectable is so for
every read of the entry, and an uncorrectable bucket is repaired. -/
def dirHit (m : HoldRead) (s : State) : State :=
  let s1 := holdMet .struct m s
  match m.badLoc.map structAt with
  | some (.dir h w) => dirMod h (fun d => { d with bad := w :: d.bad.filter (· ≠ w) }) s1
  | some (.bucket b) => repairStart b s1
  | _ => s1

/-- What was met is a bucket of the index, so that the lookup of a frame fails (R205). -/
def bucketHit (m : HoldRead) : Bool :=
  match m.badLoc.map structAt with
  | some (.bucket _) => true
  | _ => false

/-- R200: a frame or a walk reads an entry: an uncorrectable word of it, other than one that this command's read has just met, is met,
and marks it SUSPECT; a SUSPECT entry raises event 101. -/
def dirSee (h : Handle) (m : HoldRead) (s : State) : State :=
  match dirGet s h with
  | none => s
  | some d =>
    if d.state = .suspect then raiseNode 101 0 h s
    else
      match d.bad with
      | [] => s
      | w :: _ => markSuspect h (if m.badLoc = some (dirLoc h w) then s else metUe .struct .ue (dirLoc h w) s)

/-- A command whose own read is that of one entry. -/
def dirRead (h : Handle) (m : HoldRead) (s : State) : State := dirSee h m (dirHit m s)

/-- The entry of a handle, unless it is SUSPECT (R200). -/
def dirUsable (s : State) (h : Handle) : Option DirEnt := (dirGet s h).filter fun d => d.state ≠ .suspect

/-- The entry of a handle is SUSPECT (R200). -/
def dirSuspect (s : State) (h : Handle) : Bool := (dirGet s h).any fun d => d.state = .suspect

/-! ### Neighbour entries -/

/-- Entries of a neighbour, by handle (R187). -/
def nbrsOf (s : State) (e : Eui) : List (Nat × Nbr) := s.tables.nbrs.filter fun p => p.2.eui = e

/-- Berth `b`'s entry of an EUI-64. -/
def nbrAt (s : State) (b : Nat) (e : Eui) : Option (Nat × Nbr) := (nbrsOf s e).find? fun p => p.1 / 2048 = b

/-- Berth `b`'s entry of a short address. -/
def nbrShort (s : State) (b : Nat) (a : BitVec 16) : Option (Nat × Nbr) :=
  s.tables.nbrs.find? fun p => p.1 / 2048 = b && p.2.short = a && a ≠ 0xFFFE

/-- The home entry of an EUI-64 (R192). -/
def homeOf (s : State) (e : Eui) : Option (Nat × Nbr) := (nbrsOf s e).find? fun p => p.2.home

/-- The next index of a berth's table (R187): never used ones ascending, then the one freed longest ago. -/
def nextNbr (s : State) (b : Nat) : Option Nat :=
  let n := s.tables.nbrNext.getD b 0
  let freed := s.tables.nbrFreed.getD b []
  let fresh := ((List.range (2048 - n)).map (n + ·)).find? fun i => !s.tables.nbrs.has (nbrHandle b i) && !freed.contains i
  fresh.orElse fun _ => freed.head?

/-- An index is taken. -/
def takeNbr (b i : Nat) (s : State) : State :=
  let freed := s.tables.nbrFreed.getD b []
  modTab (fun t => { t with
    nbrNext := if freed.contains i then t.nbrNext else t.nbrNext.set b (i + 1)
    nbrFreed := t.nbrFreed.set b (freed.filter (· ≠ i)) }) s

/-- The lowest short address that no neighbour holds and that is not the device's own (R190). -/
def freeShort (s : State) : Option (BitVec 16) :=
  let own := fget s 0 Fl.MAC_PAN_SHORT
  ((List.range (s.tables.nbrs.length + 2)).find? fun a =>
    a < 0xFFFE && a ≠ own && !(s.tables.nbrs.any fun p => p.2.short.toNat = a)).map fun a => BitVec.ofNat 16 a

/-- Every entry of a neighbour changed. -/
def nbrsMod (e : Eui) (g : Nbr → Nbr) (s : State) : State := (nbrsOf s e).foldl (fun t p => nbrMod p.1 g t) s

/-- R190: a neighbour without a short address is given one, while SHORT_EN is 1. -/
def giveShort (e : Eui) (s : State) : State :=
  if fbit s 0 Fl.ROUTE_CTRL_SHORT_EN && (nbrsOf s e).any fun p => p.2.short = 0xFFFE then
    match freeShort s with
    | some a => nbrsMod e (fun x => { x with short := a }) s
    | none => s
  else s

/-- The neighbours in ascending node handle order (R190). -/
def nbrEuis (s : State) : List Eui :=
  let nodes := (s.tables.nbrs.map fun p => p.2.node).eraseDups.mergeSort
  nodes.filterMap fun h => (s.tables.nbrs.find? fun p => p.2.node = h).map fun p => p.2.eui

/-- R190: SHORT_EN changes from 0 to 1. -/
def giveShorts (s : State) : State := (nbrEuis s).foldl (fun t e => giveShort e t) s

/-- R190: MAC_PAN.SHORT was applied; a neighbour that holds it loses it. -/
def ownShortChanged (s : State) : State :=
  let own := fget s 0 Fl.MAC_PAN_SHORT
  match s.tables.nbrs.find? fun p => p.2.short.toNat = own && own ≠ 0xFFFE with
  | some p => giveShort p.2.eui (nbrsMod p.2.eui (fun x => { x with short := 0xFFFE, shortSeen := false }) s)
  | none => s

/-! ### The home berth -/

/-- A berth is eligible to be home (R192): present, TX_EN applied and not in dry dock. -/
def homeEligible (s : State) (b : Nat) : Bool :=
  berthPresent s b && fbit s (berthBase b) Fl.BERTH_TX_CTRL_TX_EN && s.start.docked ≠ some b

/-- The candidate with the highest LQM; equal ones go to the lower berth (R192). Candidates are (handle, LQM). -/
def bestHome (l : List (Nat × Int)) : Option (Nat × Int) :=
  l.foldl (fun best p =>
    match best with
    | none => some p
    | some q => if q.2 < p.2 ∨ (q.2 = p.2 ∧ p.1 / 2048 < q.1 / 2048) then some p else some q) none

/-- R192: the home of a neighbour becomes `new`; the directory's NBR, the count and event 97 follow. -/
def setHome (e : Eui) (new : Option Nat) (s : State) : State :=
  let old := (homeOf s e).map Prod.fst
  let node := ((nbrsOf s e).head?.map fun p => p.2.node).getD ((lookup s e).getD noNode)
  if old = new then s
  else
    let s1 := (nbrsOf s e).foldl (fun t p => nbrMod p.1 (fun x => { x with home := new = some p.1 }) t) s
    let s2 := dirMod node (fun d => { d with nbr := new.getD 0, nbrValid := new.isSome }) s1
    raiseFull 97 (new.getD 0x3FFF) node (old.getD 0x3FFF) (bump 0 Ct.ROUTE_REHOME s2)

/-- Rules 2 and 4 of R192: the eligible entry with the highest LQM, or none, becomes home. (DEDUCED, log 32) -/
def rehome (e : Eui) (s : State) : State :=
  let l := (nbrsOf s e).filterMap fun p => if homeEligible s (p.1 / 2048) then some (p.1, p.2.lqm) else none
  setHome e ((bestHome l).map Prod.fst) s

/-- R192: berths have become eligible or ineligible; neighbours whose home is not eligible, and those without one, are re-homed. -/
def rehomeAll (s : State) : State :=
  (nbrEuis s).foldl (fun t e =>
    match homeOf t e with
    | some p => if homeEligible t (p.1 / 2048) then t else rehome e t
    | none => rehome e t) s

/-- R192: a group of released events about one neighbour is processed. -/
def arbProcess (e : Eui) (evs : List (Nat × Int)) (s : State) : State :=
  let lqmOf (h : Nat) (own : Int) : Int := ((evs.reverse.find? fun q => q.1 = h).map Prod.snd).getD own
  let all := (nbrsOf s e).filterMap fun p => if homeEligible s (p.1 / 2048) then some (p.1, lqmOf p.1 p.2.lqm) else none
  match homeOf s e with
  | none => setHome e ((bestHome (all.filter fun q => evs.any fun r => r.1 = q.1)).map Prod.fst) s
  | some home =>
    let own := lqmOf home.1 home.2.lqm
    match bestHome (all.filter fun q => q.1 ≠ home.1 && own + (fget s 0 Fl.ROUTE_CFG_HYST : Nat) < q.2) with
    | some q => setHome e (some q.1) s
    | none => s

/-- MONO in ns at which the slot, or the virtual slot, that contains an instant ends (R67, R96, R192). -/
def slotEndMono (s : State) (t : Instant) : Nat :=
  let len := 1000 * fget s 0 Fl.TIME_SLOT_LEN_LEN
  if slotsOn s then
    let fromStart := instantDiff s.time.slotStart t
    let endOff : Int := (Int.fdiv fromStart len + 1) * len - instantDiff s.time.slotStart (nowNs s)
    ((monoNs s : Int) + endOff).toNat
  else
    let back := (instantDiff t (nowNs s)).toNat
    let at0 := monoNs s - back
    let gap := (s.time.nextVirtual - at0) / len
    s.time.nextVirtual - gap * len

/-- R192: an event goes to the home arbiter; one that comes after a later one has been released is processed on arrival. -/
def arbPut (ev : ArbEvent) (s : State) : State :=
  let late := match s.tables.arbReleased with
    | some t => instantLater ev.sfdTime t
    | none => false
  if late then arbProcess ev.eui [(ev.nbr, ev.lqm)] (bump 0 Ct.ROUTE_ARB_LATE s)
  else
    let before := s.tables.arb.takeWhile fun x => !instantLater ev.sfdTime x.sfdTime
    modTab (fun t => { t with arb := before ++ [ev] ++ t.arb.drop before.length }) s

/-- A learn or LQM event about an entry at an instant (R187, R189, R192). -/
def arbEvent (nbr : Nat) (at0 : Instant) (s : State) : State :=
  match nbrGet s nbr with
  | some x => arbPut ⟨x.eui, nbr, x.lqm, at0, slotEndMono s at0 + 2000000⟩ s
  | none => s

/-- The held events released by now, group by group, oldest first (R192). -/
def arbRun : Nat → State → State
  | 0, s => s
  | fuel + 1, s =>
    match s.tables.arb with
    | [] => s
    | ev :: _ =>
      if monoNs s < ev.releaseMono then s
      else
        let same (x : ArbEvent) : Bool := x.eui = ev.eui && instantDiff ev.sfdTime x.sfdTime ≤ 1000
        let group := s.tables.arb.filter same
        let last := (group.getLast?.getD ev).sfdTime
        let s1 := modTab (fun t => { t with arb := t.arb.filter fun x => !same x, arbReleased := some last }) s
        arbRun fuel (arbProcess ev.eui (group.map fun x => (x.nbr, x.lqm)) s1)

/-- R192: the oldest held event and those due with it are released. -/
def doArbiterRelease (s : State) : State :=
  match s.tables.arb with
  | [] => s
  | ev :: _ =>
    let s1 := elapseToMono ev.releaseMono s
    arbRun s1.tables.arb.length s1

/-- Meaning of ARBITER_RELEASE. -/
def execArbiterRelease (s : State) : Host.Outcome State Fault Refusal := engine doArbiterRelease s

/-! ### Learning -/

/-- The directory entry that learning finds or makes (R187 step 1); none where it cannot be made (R206). -/
def learnNode (e : Eui) (s : State) : Option Handle × State :=
  match lookup s e with
  | some h => (some h, s)
  | none =>
    let fail (t : State) : Option Handle × State :=
      let age := fget t 0 Fl.ROUTE_NBR_CFG_AGE_S
      (none, strayPut ⟨e, none, if age = 0 then none else some (monoNs t + age * 1000000000)⟩ (insertFailed 0 e t))
    match nextHandle s with
    | none => fail s
    | some h =>
      let r := dirInsert h (DirEnt.fresh e .heard (fget s 0 Fl.ROUTE_CFG_DEF_TENANT) 1) s
      match r.1 with
      | some _ => (some h, r.2)
      | none => fail r.2

/-- R206: a berth's table is full while learning. -/
def nbrFull (b : Nat) (h : Handle) (e : Eui) (s : State) : State :=
  let s1 := dirMod h (fun d => if d.nbrValid ∨ d.state = .routed then d else { d with state := .overflow }) s
  raiseFull 99 b h e.toNat (bump 0 Ct.ROUTE_NBR_FULL s1)

/-- A new neighbour entry (R187 step 3). -/
def Nbr.fresh (e : Eui) (node : Handle) (short : BitVec 16) (be : Nat) (lqm rssi : Int) (name : SlotName) (mono : Nat) : Nbr where
  eui := e
  short := short
  lqm := lqm
  node := node
  home := false
  hasDrift := false
  held := false
  shortSeen := false
  misses := 0
  be := be
  rssiAvg := rssi
  d := 0
  oLast := 0
  tLast := 0
  backoff := 0
  seen := false
  last := ⟨0, Rsn.ofX 0⟩
  dup := []
  rxCnt := 0
  txFail := 0
  learned := name
  accepted := false
  heardMono := mono

/-- R187: berth `b` learns the sender of a record; what R162 keeps of a neighbour stands in all its entries. -/
def learn (b : Nat) (e : Eui) (be : Nat) (lqm rssi : Int) (name : SlotName) (sfd : Instant) (s : State) : State :=
  let r := learnNode e s
  match r.1 with
  | none => r.2
  | some h =>
    match nextNbr r.2 b with
    | none => nbrFull b h e r.2
    | some i =>
      let other := (nbrsOf r.2 e).head?.map Prod.snd
      let k := nbrHandle b i
      let x := Nbr.fresh e h ((other.map Nbr.short).getD 0xFFFE) be lqm rssi name (monoNs r.2)
      let y := match other with
        | some o => { x with seen := o.seen, last := o.last, dup := o.dup }
        | none => x
      let s1 := nbrPut k y (takeNbr b i r.2)
      arbEvent k sfd (raiseNode 96 k h (giveShort e s1))

/-! ### The route walker -/

/-- A node is usable as a hop (R214); one that the walk's read finds uncorrectable is SUSPECT from then on (R200).
(DEDUCED, log 32) -/
def DirEnt.hop (d : DirEnt) : Bool := d.state ≠ .suspect && d.bad.isEmpty && (d.state = .routed || d.nbrValid)

/-- parent_k of a node: its handle stands for the root (R195). -/
def DirEnt.parent (d : DirEnt) (k : Nat) : Nat := if k = 0 then d.parent0 else d.parent1

/-- first of R215. -/
def DirEnt.firstParent (d : DirEnt) : Nat := if d.pref.testBit 2 ∧ d.parent1 ≠ noNode then 1 else 0

/-- Walk statuses (R223). -/
inductive WalkEnd where
  | ok
  | missingParent
  | loop
  | tooDeep
  | targetUnusable
  | flood
  | noHome
  deriving DecidableEq, Repr

/-- The code of a walk status (R223). -/
def WalkEnd.code : WalkEnd → Nat
  | .ok => 0
  | .missingParent => 1
  | .loop => 2
  | .tooDeep => 3
  | .targetUnusable => 4
  | .flood => 5
  | .noHome => 6

/-- The outcome of a walk: its status, its path from the target on, its backtracks and what it reported. -/
structure Walk where
  status : WalkEnd
  path : List Handle
  backtracks : Nat
  loop : Option (Handle × Handle)
  missing : Option (Handle × Handle)
  /-- The missing parent was met before any loop. -/
  missingFirst : Bool := false
  /-- The nodes that the walk read and found uncorrectable (R200). -/
  suspects : List Handle := []
  deriving DecidableEq, Repr

/-- Whether a walk ends at node `n` with parent `k` current, and how (R214). -/
def walkEnds (s : State) (n : Handle) (d : DirEnt) (k : Nat) : Option WalkEnd :=
  if d.state = .overflow then some .flood
  else if !d.nbrValid then none
  else
    let cut := fget s 0 Fl.ROUTE_CFG_SHORTCUT_LQM
    let near : Bool := match nbrGet s d.nbr with
      | some x => cut ≠ 255 && 4 * (cut : Int) ≤ x.lqm
      | none => false
    if d.parent k = n ∨ d.state ≠ .routed ∨ d.pref.testBit 1 ∨ near then some .ok else none

/-- The nodes of a path that have an untried other parent: their positions, the last one (R215). A path element is (node,
parent tried, other parent tried). -/
def lastUntried (s : State) (path : List (Handle × Nat × Bool)) : Option Nat :=
  (List.range path.length).reverse.find? fun i =>
    match path[i]? with
    | some (n, k, tried) =>
      match dirGet s n with
      | some d => !tried && d.parent (1 - k) ≠ noNode
      | none => false
    | none => false

/-- The loop of R215. -/
def walkLoop (s : State) : Nat → List (Handle × Nat × Bool) → Walk → Walk
  | 0, _, w => { w with status := .tooDeep }
  | fuel + 1, path, w =>
    match path.getLast? with
    | none => { w with status := .targetUnusable }
    | some (n, k, _) =>
      match dirGet s n with
      | none => { w with status := .targetUnusable }
      | some d =>
        match walkEnds s n d k with
        | some e => { w with status := e, path := path.map fun x => x.1 }
        | none =>
          let q := d.parent k
          let back (why : WalkEnd) (w1 : Walk) : Walk :=
            match lastUntried s path with
            | some i =>
              if w1.backtracks = fget s 0 Fl.ROUTE_CFG_MAX_BACKTRACK then { w1 with status := why }
              else
                let cut := (path.take i) ++ ((path.drop i).take 1).map fun x => (x.1, 1 - x.2.1, true)
                walkLoop s fuel cut { w1 with backtracks := w1.backtracks + 1 }
            | none => { w1 with status := why }
          let hop := dirGet s q
          let unread : Bool := q ≠ noNode && q ≠ n && hop.any fun x => x.state ≠ .suspect && !x.bad.isEmpty
          if q = noNode ∨ q = n ∨ !hop.any DirEnt.hop then
            back .missingParent { w with
              suspects := if unread && !w.suspects.contains q then w.suspects ++ [q] else w.suspects
              missing := some (w.missing.getD (n, if q = n then noNode else q))
              missingFirst := w.missingFirst || w.loop.isNone }
          else if path.any fun x => x.1 = q then back .loop { w with loop := some (w.loop.getD (n, q)) }
          else if path.length = 24 then { w with status := .tooDeep }
          else walkLoop s fuel (path ++ [(q, ((dirGet s q).map DirEnt.firstParent).getD 0, false)]) w

/-- walk of R215 after the target's own checks (R214). -/
def walkOf (s : State) (t : Handle) : Walk :=
  let w : Walk := ⟨.targetUnusable, [], 0, none, none, false, []⟩
  match dirGet s t with
  | none => w
  | some d =>
    if d.state = .suspect then w
    else if d.pref.testBit 1 ∧ !d.nbrValid then { w with status := .noHome }
    else walkLoop s 256 [(t, d.firstParent, false)] w

/-- The walk gave a route. -/
def Walk.good (w : Walk) : Bool := w.status = .ok || w.status = .flood

/-- The hops h_1 to h_m (R216). -/
def Walk.hops (w : Walk) : List Handle := w.path.reverse

/-- R200, R215: counts, events and DEPTH follow from a walk to `t`; entries that it found uncorrectable become SUSPECT. -/
def walkEffects (t : Handle) (w : Walk) (m : HoldRead) (s0 : State) : State :=
  let s := w.suspects.foldl (fun u h => dirSee h m u) s0
  let pair (p : Handle × Handle) : Nat := p.1 + p.2 * 4294967296
  let loop (u : State) : State := match w.loop with
    | some p => raiseFull 104 0 p.1 (pair p) (bump 0 Ct.ROUTE_LOOP u)
    | none => u
  let missing (u : State) : State := match w.missing with
    | some p => raiseFull 105 0 p.1 (pair p) (bump 0 Ct.ROUTE_MISSING u)
    | none => u
  let s2 := if w.missingFirst then loop (missing s) else missing (loop s)
  if w.good then
    match dirGet s2 t with
    | some d => if d.depth = w.path.length then s2 else dirMod t (fun x => { x with depth := w.path.length }) s2
    | none => s2
  else raiseNode 106 w.status.code t (bump 0 Ct.ROUTE_WALK_FAIL s2)

/-- R223: the results of a test walk. -/
def walkResults (w : Walk) (s : State) : State :=
  let first := if w.status = .ok then ((w.hops.head?.bind fun h => dirGet s h).map DirEnt.nbr).getD 0x3FFF else 0x3FFF
  let s1 := fset 0 Fl.ROUTE_WALK_RESULT_STATUS w.status.code (fset 0 Fl.ROUTE_WALK_RESULT_HOPS w.path.length
    (fset 0 Fl.ROUTE_WALK_RESULT_BACKTRACKS w.backtracks (fset 0 Fl.ROUTE_WALK_RESULT_FIRST_NBR first s)))
  forBelow 24 (fun j t => wr (Reg.ROUTE_WALK_HOP + 4 * j) (BitVec.ofNat 32 (w.hops.getD j noNode)) t) s1

/-- R215: a walk asked for by ROUTE_WALK_CTRL, where its reads met `m`. -/
def runWalk (t : Handle) (m : HoldRead) (s : State) : State :=
  let s1 := dirRead t m s
  let w := walkOf s1 t
  walkEffects t w m (walkResults w s1)

/-- A write to ROUTE_WALK_CTRL (R223). -/
def takeWalkCtrl (v : Word) (m : HoldRead) (s : State) : State :=
  let h := bitsOf 17 0 v
  let s1 := fset 0 Fl.ROUTE_WALK_CTRL_HANDLE h s
  if bitAt 31 v then runWalk h m s1 else s1

/-- Meaning of ROUTE_WALK_TEST. -/
def execRouteWalkTest (f : Fn) (v : Word) (m : HoldRead) (s : State) : Host.Outcome State Fault Refusal :=
  act (rowWrite f.val Reg.ROUTE_WALK_CTRL (v ||| 0x80000000) true (takeWalkCtrl (v ||| 0x80000000) m)) s

/-! ### Entry images -/

/-- STATE's code (R196). -/
def NodeState.code : NodeState → Nat
  | .heard => 0
  | .routed => 1
  | .expired => 2
  | .named => 3
  | .suspect => 4
  | .overflow => 5
  | .reserved c => c.val

/-- The state of a code (R196). -/
def NodeState.ofCode (c : Nat) : NodeState :=
  if c = 0 then .heard
  else if c = 1 then .routed
  else if c = 2 then .expired
  else if c = 3 then .named
  else if c = 4 then .suspect
  else if c = 5 then .overflow
  else .reserved (Fin.ofNat 16 c)

/-- The group slots [lo, lo + n) of an entry, 12 bits each (R195). -/
def groupBits (l : List Nat) (lo n : Nat) : Nat :=
  ((List.range n).map fun i => l.getD (lo + i) 0xFFF * 2 ^ (12 * i)).sum

/-- The eight words of a directory entry (R195). -/
def DirEnt.words (d : DirEnt) : List Nat :=
  [d.eui.toNat,
   d.parent0 + d.parent1 * 2 ^ 18 + d.depth * 2 ^ 36 + 2 ^ 41 + d.tenant * 2 ^ 42 + d.state.code * 2 ^ 45 + d.pref * 2 ^ 49 +
     d.castGen.toNat * 2 ^ 52 + d.campState * 2 ^ 60,
   d.lastRsn.toNat + d.lastEpoch.toNat * 2 ^ 32 + d.daoLife * 2 ^ 48,
   d.sealTxSeq + d.sealRxHigh * 2 ^ 24 + d.daoSeq.toNat * 2 ^ 48 + d.campId.toNat * 2 ^ 56,
   d.sealRxWin.toNat + d.campPos.toNat * 2 ^ 32 + d.nbr * 2 ^ 48 + (if d.nbrValid then 2 ^ 63 else 0),
   d.mid0.toNat + d.mid1.toNat * 2 ^ 16 + d.rxCnt * 2 ^ 32 + d.txFail * 2 ^ 48,
   groupBits d.groups 0 5,
   groupBits d.groups 5 3]

/-- Bits [hi:lo] of a 64-bit word. -/
def nbits (hi lo v : Nat) : Nat := v / 2 ^ lo % 2 ^ (hi + 1 - lo)

/-- A directory entry with word `i` replaced (R195, R198): NBR and NBR_VALID are ignored. -/
def DirEnt.setWord (i v : Nat) (d : DirEnt) : DirEnt :=
  match i with
  | 0 => { d with eui := BitVec.ofNat 64 v }
  | 1 => { d with
      parent0 := nbits 17 0 v
      parent1 := nbits 35 18 v
      depth := nbits 40 36 v
      tenant := nbits 44 42 v
      state := NodeState.ofCode (nbits 48 45 v)
      pref := nbits 51 49 v
      castGen := BitVec.ofNat 8 (nbits 59 52 v)
      campState := nbits 63 60 v }
  | 2 => { d with
      lastRsn := BitVec.ofNat 32 v
      lastEpoch := BitVec.ofNat 16 (nbits 47 32 v)
      daoLife := nbits 63 48 v }
  | 3 => { d with
      sealTxSeq := nbits 23 0 v
      sealRxHigh := nbits 47 24 v
      daoSeq := BitVec.ofNat 8 (nbits 55 48 v)
      campId := BitVec.ofNat 8 (nbits 63 56 v) }
  | 4 => { d with
      sealRxWin := BitVec.ofNat 32 v
      campPos := BitVec.ofNat 16 (nbits 47 32 v) }
  | 5 => { d with
      mid0 := BitVec.ofNat 16 v
      mid1 := BitVec.ofNat 16 (nbits 31 16 v)
      rxCnt := nbits 47 32 v
      txFail := nbits 63 48 v }
  | 6 => { d with groups := ((List.range 5).map fun j => nbits (12 * j + 11) (12 * j) v) ++ d.groups.drop 5 }
  | _ => { d with groups := d.groups.take 5 ++ (List.range 3).map fun j => nbits (12 * j + 11) (12 * j) v }

/-- The words of a mask, replaced. -/
def DirEnt.setWords (mask : Nat) (ws : List Nat) (d : DirEnt) : DirEnt :=
  (List.range 8).foldl (fun x i => if mask.testBit i then x.setWord i (ws.getD i 0) else x) d

/-- A reserved bit of word `i` is set (R195). -/
def wordReserved (i v : Nat) : Bool :=
  match i with
  | 4 => v.testBit 62
  | 6 => nbits 63 60 v ≠ 0
  | 7 => nbits 63 36 v ≠ 0
  | _ => false

/-- AGE of a duplicate pair and the pair's 16 bits (R188). -/
def dupBits (l : List (Byte × Nat)) : Nat :=
  ((List.range 4).map fun k => match l[k]? with
    | some (dsn, age) => (dsn.toNat + min 255 age * 256) * 2 ^ (16 * k)
    | none => 0).sum

/-- A 64-bit word of a neighbour entry (R188). -/
def Nbr.words (x : Nbr) : List Nat :=
  let b (c : Bool) (k : Nat) : Nat := if c then 2 ^ k else 0
  [x.eui.toNat,
   x.short.toNat + unsignedOf 16 x.lqm * 2 ^ 16 + (x.node + 2 ^ 18 + b x.home 19 + b x.hasDrift 20 + b x.held 21 +
     b x.shortSeen 22 + x.misses * 2 ^ 23 + x.be * 2 ^ 27) * 2 ^ 32,
   unsignedOf 16 x.rssiAvg + unsignedOf 16 x.d * 2 ^ 16 + unsignedOf 32 x.oLast * 2 ^ 32,
   x.tLast.toNat + x.backoff * 2 ^ 48,
   x.last.rsn.word.toNat + x.last.epoch.toNat * 2 ^ 32 + dupBits x.dup % 2 ^ 16 * 2 ^ 48,
   dupBits x.dup / 2 ^ 16 + x.rxCnt * 2 ^ 48,
   x.txFail + x.learned.rsn.word.toNat * 2 ^ 16 + x.learned.epoch.toNat * 2 ^ 48,
   0]

/-- The 64 octets of eight words (R195). -/
def imageOf (ws : List Nat) : List Byte := ws.flatMap (leBytes 8)

/-- The eight words of 64 octets. -/
def wordsOf (bs : List Byte) : List Nat := (List.range 8).map fun i => ofLeBytes ((bs.drop (8 * i)).take 8)

end Sys2Proof.Machine
end

