-- ==== Sys2Proof/Machine/Keys.lean ====
section
/-!
DEFINITION. The key store, the cast cache and the random numbers (R316 to R328): mould commands, grace, the keys that frames are
secured and checked with, and the DRBG.
-/

namespace Sys2Proof.Machine

/-- The key store changed. -/
def modKeys (g : KeysS → KeysS) (s : State) : State := { s with keys := g s.keys }

/-- Mould slot `i`. -/
def getMould (s : State) (i : Nat) : Mould := s.keys.slots.getD i Mould.reset

/-- Mould slot `i` changed. -/
def modMould (i : Nat) (g : Mould → Mould) (s : State) : State := modKeys (fun k => { k with slots := k.slots.modify i g }) s

/-- STATE of a slot (R319): 0 EMPTY, 1 ACTIVE, 2 RETIRED. -/
def Mould.state (m : Mould) : Nat := if m.current.isSome then 1 else if m.retired then 2 else 0

/-- The root is valid (R332). -/
def rootValid (s : State) : Bool := s.plinth.root.isSome

/-! ### The cast cache -/

/-- Cache entries of a slot are gone (R321): their version or key no longer exists. -/
def dropCasts (slot : Nat) (s : State) : State := modKeys (fun k => { k with cache := k.cache.filter fun e => e.slot ≠ slot }) s

/-- R321: a cast is used; a hit becomes the most recently used entry, a miss is derived and replaces the least recently used. -/
def useCast (slot : Nat) (fromPrior : Bool) (e : Eui) (gen : BitVec 8) (s : State) : State :=
  let c : CacheEnt := ⟨slot, (getMould s slot).version, fromPrior, e, gen⟩
  let room := 4096 - s.keys.graces.length
  if s.keys.cache.contains c then modKeys (fun k => { k with cache := c :: k.cache.filter (· ≠ c) }) s
  else bump 0 Ct.KEY_DERIVE (modKeys (fun k => { k with cache := (c :: k.cache).take room }) s)

/-- R324: an old generation of a node is pinned, where there is room. -/
def pinGen (node : Handle) (e : Eui) (gen : BitVec 8) (s : State) : State :=
  let rest := s.keys.graces.filter fun g => !(g.eui = e && g.gen = gen)
  if 1024 ≤ rest.length then raiseNode 151 0 node (bump 0 Ct.KEY_GRACE_DROP (modKeys (fun k => { k with graces := rest }) s))
  else
    let g : GenGrace := ⟨e, gen, monoNs s + fget s 0 Fl.KEY_GRACE_GRACE_S * 1000000000⟩
    modKeys (fun k => { k with graces := rest ++ [g], cache := k.cache.take (4095 - rest.length) }) s

/-- The handle of a node for a record, none where it has no entry (R339). -/
def nodeOf (s : State) (e : Eui) : Handle := (lookup s e).getD noNode

/-- R324: the pinned generation of a node ends. -/
def endGen (g : GenGrace) (s : State) : State :=
  raiseNode 146 256 (nodeOf s g.eui) (modKeys (fun k => { k with graces := k.graces.filter (· ≠ g) }) s)

/-- R324: the oldest pinned generation of a node ends with its grace. -/
def doGenGraceEnded (e : Eui) (s : State) : State :=
  match s.keys.graces.find? fun g => g.eui = e with
  | some g => endGen g (fireTimer g.untilMono s)
  | none => s

/-- Meaning of GEN_GRACE_ENDED. -/
def execGenGraceEnded (e : Eui) (s : State) : Host.Outcome State Fault Refusal := engine (doGenGraceEnded e) s

/-! ### Mould commands -/

/-- A slot is erased (R320, R331). -/
def eraseSlot (i : Nat) (s : State) : State :=
  dropCasts i (modMould i (fun m => { m with
    current := none
    prior := none
    graceMono := none
    version := m.version + 1
    retired := false }) s)

/-- The staging and its writers are zeroed (R320). -/
def clearStaging (s : State) : State := modKeys (fun k => { k with staging := List.replicate 4 none }) s

/-- The staged key, when function `f` wrote all of it (R320): octet 0 is the most significant. -/
def stagedKey (s : State) (f : Nat) : Option (BitVec 128) :=
  s.keys.staging.foldl (fun acc w => match acc, w with
    | some k, some (v, g) => if g = f then some (k * 4294967296#128 + v.zeroExtend 128) else none
    | _, _ => none) (some 0)

/-- The grace of a slot starts (R324). (DEDUCED, log 48) -/
def graceEnd (s : State) : Nat := monoNs s + fget s 0 Fl.KEY_GRACE_GRACE_S * 1000000000

/-- LOAD of R320 with the staged key `k`. (DEDUCED, log 48) -/
def mouldLoad (k : BitVec 128) (i use : Nat) (s : State) : State :=
  let s1 := dropCasts i (modMould i (fun x => { x with
    use := use
    current := some k
    prior := x.current
    priorUse := x.use
    graceMono := if x.current.isSome then some (graceEnd s) else none
    version := x.version + 1
    retired := false }) s)
  raiseAux 144 i ((getMould s i).version + 1).toNat s1

/-- INVALIDATE of R320. (DEDUCED, log 48) -/
def mouldInvalidate (i : Nat) (s : State) : State :=
  raise 145 i (dropCasts i (modMould i (fun x => { x with
    current := none
    prior := x.current
    priorUse := x.use
    graceMono := some (graceEnd s)
    version := x.version + 1
    retired := true }) s))

/-- The prior key and its casts are zeroed (R324). (DEDUCED, log 48) -/
def endGrace (i : Nat) (s : State) : State :=
  if (getMould s i).prior.isSome then
    let s1 := modKeys (fun k => { k with cache := k.cache.filter fun e => !(e.slot = i && e.fromPrior) }) s
    raise 146 i (modMould i (fun x => { x with prior := none, graceMono := none }) s1)
  else s

/-- The stage-1 check of a word of KEY_MOULD_CTRL (R320, R460): a command names an operation, and LOAD a USE. -/
def mouldWordOk (v : Word) : Bool :=
  let op := bitsOf 10 8 v
  !bitAt 31 v || (1 ≤ op && op ≤ 4 && !(op = 1 && bitsOf 5 4 v = 0))

/-- What the command of a word of KEY_MOULD_CTRL does, where it is accepted (R320). (DEDUCED, log 48) -/
def mouldEffect (s : State) (f : Nat) (v : Word) : Option (State → State) :=
  let i := bitsOf 3 0 v
  let use := bitsOf 5 4 v
  let m := getMould s i
  match bitsOf 10 8 v with
  | 1 =>
    match stagedKey s f with
    | some k => if use = 0 ∨ !rootValid s ∨ (m.prior.isSome ∧ m.priorUse ≠ use) then none else some (mouldLoad k i use)
    | none => none
  | 2 => if m.state = 1 then some (mouldInvalidate i) else none
  | 3 => some fun t => raise 145 (i + 256) (eraseSlot i t)
  | 4 => some (endGrace i)
  | _ => none

/-- The far side takes KEY_MOULD_CTRL (R320); a rejected command leaves the register as it was (R37). -/
def takeMould (f : Nat) (v : Word) (s : State) : State :=
  let store := storeKey Reg.KEY_MOULD_CTRL (setBitAt 31 v false)
  if bitAt 31 v then
    clearStaging (match mouldEffect s f v with
      | some g => g (store s)
      | none => reject Reg.KEY_STATUS s)
  else store s

/-- KEY_MOULD_CTRL with GO and an OP. -/
def mouldWord (op : Nat) (v : Word) : Word := setBitAt 31 (putBits 10 8 v op) true

/-- Meaning of MOULD_LOAD. -/
def execMouldLoad (f : Fn) (v : Word) (s : State) : Host.Outcome State Fault Refusal :=
  act (rowWrite f.val Reg.KEY_MOULD_CTRL (mouldWord 1 v) true (takeMould f.val (mouldWord 1 v))) s

/-- Meaning of MOULD_INVALIDATE. -/
def execMouldInvalidate (f : Fn) (v : Word) (s : State) : Host.Outcome State Fault Refusal :=
  act (rowWrite f.val Reg.KEY_MOULD_CTRL (mouldWord 2 v) true (takeMould f.val (mouldWord 2 v))) s

/-- Meaning of MOULD_ERASE. -/
def execMouldErase (f : Fn) (v : Word) (s : State) : Host.Outcome State Fault Refusal :=
  act (rowWrite f.val Reg.KEY_MOULD_CTRL (mouldWord 3 v) true (takeMould f.val (mouldWord 3 v))) s

/-- Meaning of MOULD_END_GRACE. -/
def execMouldEndGrace (f : Fn) (v : Word) (s : State) : Host.Outcome State Fault Refusal :=
  act (rowWrite f.val Reg.KEY_MOULD_CTRL (mouldWord 4 v) true (takeMould f.val (mouldWord 4 v))) s

/-- R324: the grace of a slot's prior key ends. -/
def doGraceEnded (i : Nat) (s : State) : State :=
  match (getMould s i).graceMono with
  | some t => endGrace i (fireTimer t s)
  | none => s

/-- Meaning of GRACE_ENDED. -/
def execGraceEnded (i : Fin 16) (s : State) : Host.Outcome State Fault Refusal := engine (doGraceEnded i.val) s

/-- R324: a node's CAST_GEN advances and its SEAL_TX_SEQ becomes 0; the old generation is pinned. -/
def advanceGen (h : Handle) (d : DirEnt) (s : State) : State :=
  pinGen h d.eui d.castGen (dirMod h (fun x => { x with castGen := x.castGen + 1, sealTxSeq := 0 }) s)

/-- The far side takes KEY_NODE_GEN (R324, R337). -/
def takeNodeGen (v : Word) (s : State) : State :=
  let h := bitsOf 17 0 v
  if bitAt 31 v then
    match dirGet s h with
    | some d => advanceGen h d (storeKey Reg.KEY_NODE_GEN (setBitAt 31 v false) s)
    | none => reject Reg.KEY_STATUS s
  else storeKey Reg.KEY_NODE_GEN v s

/-- Meaning of KEY_NODE_GEN. -/
def execKeyNodeGen (f : Fn) (v : Word) (s : State) : Host.Outcome State Fault Refusal :=
  act (rowWrite f.val Reg.KEY_NODE_GEN (setBitAt 31 v true) true (takeNodeGen (setBitAt 31 v true))) s

/-- R319, R321: the store met an error: a slot's parity fails, or an entry of the cast cache cannot be read. The pinned entries
are counted after the others. -/
def keyStoreMet (m : HoldRead) (what : Struct) (s : State) : State :=
  match m.badLoc, what with
  | some _, .mould i => raise 150 (256 + i.val) (bump 0 Ct.KEY_SLOT_ERR (eraseSlot i.val s))
  | some _, .cache i =>
    let s1 := raise 150 0 (bump 0 Ct.KEY_CACHE_UE s)
    let n := s1.keys.cache.length
    if i < n then modKeys (fun k => { k with cache := k.cache.eraseIdx i }) s1
    else
      match s1.keys.graces[i - n]? with
      | some g => endGen g s1
      | none => s1
  | _, _ => s

/-! ### The keys of frames -/

/-- CAST_GEN of a node, 0 without an entry (R318). -/
def genOf (s : State) (e : Eui) : BitVec 8 :=
  match lookup s e with
  | some h => ((dirGet s h).map DirEnt.castGen).getD 0
  | none => 0

/-- The link cast of a neighbour, when its slot is ACTIVE with USE LINK (R322). -/
def linkKey (s : State) (e : Eui) : Option CastKey :=
  let m := getMould s (fget s 0 Fl.KEY_LINK_CFG_SLOT)
  if rootValid s && m.use = 1 then m.current.map fun k => ⟨k, 1, e, genOf s e⟩ else none

/-- KEY_BCAST_CFG.SLOT_b (R337). -/
def bcastSlot (s : State) (b : Nat) : Nat := bitsOf (4 * b + 3) (4 * b) (rd s Reg.KEY_BCAST_CFG)

/-- The broadcast key of a berth, when available (R322). -/
def bcastKey (s : State) (b : Nat) : Option CastKey :=
  let m := getMould s (bcastSlot s b)
  if rootValid s && bitAt (24 + b) (rd s Reg.KEY_BCAST_CFG) && m.use = 3 then m.current.map fun k => ⟨k, 3, s.otp.eui, 0⟩ else none

/-- The seal cast of a node, when its slot is ACTIVE with USE SEAL (R326). -/
def sealKey (s : State) (e : Eui) : Option CastKey :=
  let m := getMould s (fget s 0 Fl.SVC_SEAL_CFG_MOULD)
  if rootValid s && m.use = 2 then m.current.map fun k => ⟨k, 2, e, genOf s e⟩ else none

/-- The generations of a node that are pinned, the latest first (R324). -/
def pinnedGens (s : State) (e : Eui) : List (BitVec 8) := ((s.keys.graces.filter fun g => g.eui = e).map GenGrace.gen).reverse

/-- A candidate of R325: the key, whether it serves by grace, and the cache entry it stands for. -/
structure Candidate where
  key : CastKey
  grace : Bool
  fromPrior : Bool
  deriving DecidableEq, Repr

/-- The candidates for an inbound secured frame by its slot and sender, in order (R325). -/
def inboundCandidates (s : State) (slot : Nat) (e : Eui) : List Candidate :=
  let m := getMould s slot
  let cur (u : Nat) (x : Eui) (g : BitVec 8) (gr : Bool) : List Candidate :=
    if m.use = u then m.current.toList.map fun k => ⟨⟨k, u, x, g⟩, gr, false⟩ else []
  let old (u : Nat) (x : Eui) (g : BitVec 8) : List Candidate :=
    if m.priorUse = u then m.prior.toList.map fun k => ⟨⟨k, u, x, g⟩, true, true⟩ else []
  if !rootValid s then []
  else
    cur 1 e (genOf s e) false ++ (pinnedGens s e).flatMap (fun g => cur 1 e g true) ++ old 1 e (genOf s e) ++
      cur 3 s.otp.eui 0 false ++ old 3 s.otp.eui 0

/-- A frame under a retired slot that holds no prior key (R325). -/
def slotRetired (s : State) (slot : Nat) : Bool := (getMould s slot).state = 2 && (getMould s slot).prior.isNone

/-- The candidates for an upward envelope of a node, with their generations (R326): current then prior key. -/
def sealCandidates (s : State) (e : Eui) (gen6 : Nat) : List Candidate :=
  let m := getMould s (fget s 0 Fl.SVC_SEAL_CFG_MOULD)
  let gens := (genOf s e :: pinnedGens s e).filter fun g => g.toNat % 64 = gen6
  if !rootValid s then []
  else
    gens.flatMap fun g =>
      (if m.use = 2 then m.current.toList.map fun k => (⟨⟨k, 2, e, g⟩, g ≠ genOf s e, false⟩ : Candidate) else []) ++
      (if m.priorUse = 2 then m.prior.toList.map fun k => ⟨⟨k, 2, e, g⟩, true, true⟩ else [])

/-- A key is used for a frame of a slot (R327); uses in earlier slots need no record. -/
def noteNonce (k : CastKey) (n : SlotName) (s : State) : State :=
  modKeys (fun x => { x with nonces := (k, n) :: x.nonces.filter fun p => 0 ≤ slotDist n p.2 }) s

/-- The key already secures a frame of the slot (R327). -/
def nonceUsed (s : State) (k : CastKey) (n : SlotName) : Bool := s.keys.nonces.contains (k, n)

/-- R323: an outbound frame is refused for its key. -/
def keyStale (node : Handle) (s : State) : State := raiseNode 147 0 node (bump 0 Ct.KEY_STALE s)

/-! ### Random numbers -/

/-- The DRBG serves (R328). -/
def drbgOn (s : State) : Bool := s.keys.drbgReady && !s.keys.drbgBlocked

/-- KEY_DRBG_CFG.RESEED_S from now. -/
def reseedAt (s : State) : Nat := monoNs s + fget s 0 Fl.KEY_DRBG_CFG_RESEED_S * 1000000000

/-- The DRBG is instantiated at start-up (R328). (DEDUCED, log 49) -/
def drbgStart (s : State) : State :=
  modKeys (fun k => { k with drbgReady := true, drbgBlocked := false, reseedMono := reseedAt s }) (advanceDraws s)

/-- R328: a health test fails. (DEDUCED, log 49) -/
def doEntropyFail (s : State) : State :=
  if s.keys.entropyFail then s
  else
    let s1 := modKeys (fun k => { k with entropyFail := true }) (fset 0 Fl.KEY_STATUS_ENTROPY_FAIL 1 s)
    raise 152 0 (bump 0 Ct.KEY_ENTROPY_FAIL s1)

/-- Meaning of ENTROPY_FAIL. -/
def execEntropyFail (s : State) : Host.Outcome State Fault Refusal := act doEntropyFail s

/-- A reseed (R328). (DEDUCED, log 49) -/
def reseed (s : State) : State :=
  modKeys (fun k => { k with drbgBlocked := false, reseedMono := reseedAt s })
    (advanceDraws (fset 0 Fl.KEY_STATUS_DRBG_BLOCKED 0 s))

/-- R328: the restarted source passes its tests; a DRBG that blocks reseeds. -/
def doEntropyRecovered (s : State) : State :=
  if s.keys.entropyFail then
    let s1 := modKeys (fun k => { k with entropyFail := false }) (fset 0 Fl.KEY_STATUS_ENTROPY_FAIL 0 s)
    let s2 := raise 152 1 s1
    if s2.keys.drbgBlocked then reseed s2 else s2
  else s

/-- Meaning of ENTROPY_RECOVERED. -/
def execEntropyRecovered (s : State) : Host.Outcome State Fault Refusal := act doEntropyRecovered s

/-- R328: a scheduled reseed falls due. -/
def doDrbgReseed (s : State) : State :=
  if !s.keys.drbgReady ∨ s.keys.drbgBlocked then s
  else
    let s1 := elapseToMono s.keys.reseedMono s
    if s1.keys.entropyFail then
      raise 153 0 (modKeys (fun k => { k with drbgBlocked := true }) (fset 0 Fl.KEY_STATUS_DRBG_BLOCKED 1 s1))
    else reseed s1

/-- Meaning of DRBG_RESEED. -/
def execDrbgReseed (s : State) : Host.Outcome State Fault Refusal := act doDrbgReseed s

end Sys2Proof.Machine
end

