-- ==== Sys2Proof/Machine/Octets.lean ====
section
/-!
DEFINITION. The octets of the device's own frames (R4, R14, R15): IEs (R79, R151, R163, R166, R170, R174, R303, R461), MAC header,
security and FCS (R149, R322), CoAP (R227), envelopes and timed messages (R230, R231, R234), reports (R306), UDP, ICMPv6 and RPL
(R210, R211), source routing and MPL headers (R216, R250), 6LoWPAN compression and fragments (R235, R236).
-/

namespace Sys2Proof.Machine

/-! ### Derived keys -/

/-- The input octets of a derivation: counter, LABEL, 0x00, CONTEXT and the output length in bits (R317). -/
def derivationInput (i label : Nat) (eui : Eui) (gen : Byte) (bits : Nat) : List Byte :=
  beBytes 1 i ++ beBytes 4 label ++ [0] ++ beBytes 8 eui.toNat ++ [gen] ++ beBytes 2 bits

/-- The LABEL of a mould's use: link cast, seal cast, broadcast key (R317). -/
def castLabel (use : Nat) : Nat := if use = 1 then 0x514C4E4B else if use = 2 then 0x5153454C else 0x51424353

/-- The derivation input of a link cast, seal cast or broadcast key (R317). -/
def CastKey.input (k : CastKey) : List Byte := derivationInput 1 (castLabel k.use) k.eui k.gen 0x80

/-- The 128 bits of a link cast, seal cast or broadcast key (R317, R318). -/
def CastKey.derived (k : CastKey) : BitVec 128 := Config.cmac128 k.mould k.input

/-- A wrapping key of the plinth, with LABEL, from the root: two counter values, their outputs concatenated (R317).
(DESIGN CHOICE, log 4) -/
def wrapKey (label : Nat) (eui : Eui) (root : BitVec 256) : BitVec 256 :=
  Config.cmac256 root (derivationInput 1 label eui 0 0x100) ++ Config.cmac256 root (derivationInput 2 label eui 0 0x100)

/-- K_IDW, under which the identity key is wrapped (R317, R334). -/
def identityWrapKey (eui : Eui) (root : BitVec 256) : BitVec 256 := wrapKey 0x51494457 eui root

/-- K_IMW, under which a fleet image key is wrapped (R317, R333). -/
def imageWrapKey (eui : Eui) (root : BitVec 256) : BitVec 256 := wrapKey 0x51494D57 eui root

/-! ### CCM -/

/-- CCM* or CCM under a derived key: nonce, associated data, plaintext and tag length give ciphertext and tag (R231, R322).
(DESIGN CHOICE, log 4) -/
opaque ccmOctets : BitVec 128 → List Byte → List Byte → List Byte → Nat → List Byte

/-- Ciphertext and tag of a plaintext, which has the plaintext's length. -/
def ccmSealed (k : CastKey) (nonce aad plain : List Byte) (tag : Nat) : List Byte :=
  let c := ccmOctets k.derived nonce aad plain tag
  c.take (plain.length + tag) ++ List.replicate (plain.length + tag - c.length) 0

/-! ### IEs -/

/-- The OUI in its on-air order, most significant octet first (R15). -/
def ouiOctets (oui : BitVec 24) : List Byte := beBytes 3 oui.toNat

/-- A Payload IE: descriptor with group and length, least significant octet first, then its content (R151, IEEE 802.15.4). -/
def payloadIe (group : Nat) (content : List Byte) : List Byte :=
  leBytes 2 (0x8000 + group * 2048 + content.length) ++ content

/-- A Header IE: descriptor with Element ID and length (R79, IEEE 802.15.4). -/
def headerIe (id : Nat) (content : List Byte) : List Byte := leBytes 2 (id * 128 + content.length) ++ content

/-- A nested IE of the MLME Payload IE in its short form. -/
def nestedShort (id : Nat) (content : List Byte) : List Byte := leBytes 2 (id * 256 + content.length) ++ content

/-- A nested IE of the MLME Payload IE in its long form. -/
def nestedLong (id : Nat) (content : List Byte) : List Byte := leBytes 2 (0x8000 + id * 2048 + content.length) ++ content

/-- A Quay Payload IE: OUI, KIND, and the content after them (R14, R151). -/
def quayIe (oui : BitVec 24) (kind : Nat) (content : List Byte) : List Byte :=
  payloadIe 2 (ouiOctets oui ++ leBytes 1 kind ++ content)

/-- Bits packed least significant first into whole octets: the octet number `i` of those whose numbers `bits` lists (R170). -/
def bitmapOctet (bits : List Nat) (i : Nat) : Byte :=
  BitVec.ofNat 8 (((List.range 8).filter fun j => bits.contains (8 * i + j)).map fun j => 2 ^ j).sum

/-- 4-bit values packed two to an octet, the first in bits [3:0] (R170). -/
def nibblePairs : List Nat → List Byte
  | [] => []
  | [a] => [BitVec.ofNat 8 (a % 16)]
  | a :: b :: rest => BitVec.ofNat 8 (a % 16 + b % 16 * 16) :: nibblePairs rest

/-- The Link Options of an advertised cell: TX, RX, SHARED, TIMEKEEP and PRIORITY as its options word has them (R153, R174).
(PRESUMED, log 26) -/
def linkOptions (d1 : Word) : Nat := bitsOf 4 0 d1

/-- The Slotframe and Link IE's record of a slotframe: handle, length, and its cells' slot offset, channel offset and options (R174). -/
def slotframeOctets (x : Nat × Nat × List (Word × Word)) : List Byte :=
  leBytes 1 x.1 ++ leBytes 2 x.2.1 ++ leBytes 1 x.2.2.length ++
    x.2.2.flatMap fun c => leBytes 2 (bitsOf 15 0 c.1) ++ leBytes 2 (bitsOf 23 16 c.1) ++ leBytes 1 (linkOptions c.2)

/-- The Timeslot IE's last two fields take 3 octets where a value needs them, the others 2 (R174, IEEE 802.15.4).
(PRESUMED, log 26) -/
def timeslotWide (template : List Nat) (lenUs : Nat) : Bool := 65535 < lenUs || template.any fun x => 65535 < x

/-- The octets of an IE with its descriptor (R4, R79, R151, R163, R166, R170, R174, R303, R461). -/
def Ie.wire (oui : BitVec 24) : Ie → List Byte
  | .quayTime flags t => headerIe 0 (ouiOctets oui ++ [1, flags] ++ leBytes 6 t.toNat)
  | .timeCorrection us nack => headerIe 0x1E (leBytes 2 (unsignedOf 12 us + if nack then 0x8000 else 0))
  | .tschSync asn metric => nestedShort 0x1A (leBytes 5 asn ++ leBytes 1 metric)
  | .timeslot id t len =>
    let n := if timeslotWide t len then 3 else 2
    nestedShort 0x1C (leBytes 1 id ++ (t.take 10).flatMap (leBytes 2) ++ (t.drop 10).flatMap (leBytes n) ++ leBytes n len)
  | .hopShort id => nestedLong 9 (leBytes 1 id)
  | .hopFull id page nch phy n seq cur dwell =>
    nestedLong 9 (leBytes 1 id ++ leBytes 1 page ++ leBytes 2 nch ++ leBytes 4 phy ++ leBytes 2 n ++ seq.flatMap (leBytes 2) ++
      leBytes 2 cur ++ leBytes 2 dwell)
  | .slotframes l => nestedShort 0x1B (leBytes 1 l.length ++ l.flatMap slotframeOctets)
  | .wideCell sf per chofs runs =>
    quayIe oui 2 (leBytes 1 sf ++ leBytes 1 (per % 64) ++ leBytes 1 chofs ++ leBytes 1 runs.length ++
      runs.flatMap fun r => leBytes 2 r.start ++ leBytes 2 r.count)
  | .blockAck asn16 slots base n bits hashes =>
    quayIe oui 3 (leBytes 2 asn16 ++ leBytes 1 slots ++ leBytes 1 base ++ leBytes 1 n ++
      (List.range ((slots * n + 7) / 8)).map (bitmapOctet bits) ++ nibblePairs hashes)
  | .symbols camp nonce flags f t zm1 sbn esi count bs =>
    quayIe oui 6 ([camp] ++ leBytes 2 nonce.toNat ++ leBytes 1 flags ++ leBytes 5 f ++ leBytes 2 t ++ leBytes 1 zm1 ++ leBytes 1 sbn ++
      leBytes 3 esi ++ leBytes 1 count ++ bs)
  | .vendor true v kind bs => quayIe v kind.toNat bs
  | .vendor false v kind bs => headerIe 0 (ouiOctets v ++ [kind] ++ bs)
  | .other id => headerIe id []

/-- A header IE (R79, R163). -/
def Ie.isHeader : Ie → Bool
  | .quayTime _ _ | .timeCorrection _ _ | .vendor false _ _ _ => true
  | _ => false

/-- A nested IE of the MLME Payload IE (R174). -/
def Ie.isMlme : Ie → Bool
  | .tschSync _ _ | .timeslot _ _ _ | .hopShort _ | .hopFull _ _ _ _ _ _ _ _ | .slotframes _ => true
  | _ => false

/-- Header IEs, and Header Termination 1 where payload IEs follow (R303, IEEE 802.15.4). (PRESUMED, log 26) -/
def headerIes (oui : BitVec 24) (l : List Ie) : List Byte :=
  (l.filter Ie.isHeader).flatMap (Ie.wire oui) ++ if l.any fun i => !i.isHeader then [0x00, 0x3F] else []

/-- Payload IEs: the MLME IE with what is nested in it, then the others. -/
def payloadIes (oui : BitVec 24) (l : List Ie) : List Byte :=
  let nested := l.filter Ie.isMlme
  (if nested.isEmpty then [] else payloadIe 1 (nested.flatMap (Ie.wire oui))) ++
    (l.filter fun i => !i.isHeader && !i.isMlme).flatMap (Ie.wire oui)

/-! ### CoAP -/

/-- The extended value of an option nibble and the octets after it (RFC 7252, R227). -/
def optExt (nib : Nat) (bs : List Byte) : Option (Nat × List Byte) :=
  if nib < 13 then some (nib, bs)
  else if nib = 13 then
    match bs with
    | a :: r => some (a.toNat + 13, r)
    | _ => none
  else if nib = 14 then
    match bs with
    | a :: b :: r => some (a.toNat * 256 + b.toNat + 269, r)
    | _ => none
  else none

/-- What an options-and-payload string holds (R227): whether it has a payload, whether it has a refused option, and where its
payload begins. -/
structure OptInfo where
  payload : Bool
  refused : Bool
  upTo : Nat
  deriving DecidableEq, Repr

/-- Options the device refuses: Observe, OSCORE, Block2, Block1, Size2 (R227). -/
def refusedOption (n : Nat) : Bool := [6, 9, 23, 27, 28].contains n

/-- The parse of R227; none where the encoding is wrong. -/
def parseOpts : Nat → List Byte → Nat → Nat → Bool → Option OptInfo
  | 0, _, _, _, _ => none
  | fuel + 1, bs, pos, num, bad =>
    match bs with
    | [] => some ⟨false, bad, pos⟩
    | b :: r =>
      if b = 0xFF then (if r.isEmpty then none else some ⟨true, bad, pos⟩)
      else
        match optExt (b.toNat / 16) r with
        | none => none
        | some (delta, r1) =>
          match optExt (b.toNat % 16) r1 with
          | none => none
          | some (len, r2) =>
            if r2.length < len then none
            else
              let rest := r2.drop len
              parseOpts fuel rest (pos + (bs.length - rest.length)) (num + delta) (bad || refusedOption (num + delta))

/-- The parse of a whole string. -/
def optInfo (bs : List Byte) : Option OptInfo := parseOpts (bs.length + 1) bs 0 0 false

/-- The code of a CoAP type (RFC 7252, R251). -/
def CoapType.code : CoapType → Nat
  | .con => 0
  | .non => 1
  | .ack => 2
  | .rst => 3

/-- The type of a code. -/
def CoapType.ofCode (c : Nat) : CoapType :=
  match c % 4 with
  | 0 => .con
  | 1 => .non
  | 2 => .ack
  | _ => .rst

/-- Octets 4 to 9 of a seal envelope, and ACT_AT where it is timed (R230). -/
def Seal.header (v : Seal) : List Byte :=
  leBytes 1 (v.version % 4 * 64 + v.gen6 % 64) ++ leBytes 3 v.seq ++ [if v.actAt.isSome then 1 else 0, 0] ++
    match v.actAt with
    | some a => leBytes 5 a
    | none => []

/-- The nonce of an envelope (R231). -/
def Seal.nonce (v : Seal) : List Byte := beBytes 8 v.sender.toNat ++ beBytes 3 v.seq ++ [if v.upward then 1 else 0, 0]

/-- The associated data of an envelope (R231). -/
def Seal.aad (v : Seal) : List Byte := leBytes 1 v.code ++ v.token ++ v.header

/-- The Quay Seal IE (R230, R231). -/
def Seal.wire (oui : BitVec 24) (v : Seal) : List Byte :=
  quayIe oui v.kind (v.header ++ ccmSealed v.key v.nonce v.aad v.plain 8)

/-- The Quay Timed IE (R234). -/
def timedIe (oui : BitVec 24) (asn : Nat) : List Byte := quayIe oui 5 (leBytes 5 asn)

/-- Options and payload with the Quay Timed IE at the start of the payload; the marker is inserted where there is none (R234). -/
def withTimed (oui : BitVec 24) (asn : Nat) (body : List Byte) : List Byte :=
  match optInfo body with
  | some i =>
    if i.payload then body.take (i.upTo + 1) ++ timedIe oui asn ++ body.drop (i.upTo + 1) else body ++ [0xFF] ++ timedIe oui asn
  | none => body ++ [0xFF] ++ timedIe oui asn

/-- The octets of a CoAP message (R227, R230, R234). -/
def Coap.wire (oui : BitVec 24) (m : Coap) : List Byte :=
  leBytes 1 (64 + m.typ.code * 16 + m.token.length) ++ leBytes 1 m.code ++ beBytes 2 m.mid.toNat ++ m.token ++
    match m.envelope, m.timedAt with
    | some v, _ => [0xFF] ++ v.wire oui
    | none, some a => withTimed oui a m.body
    | none, none => m.body

/-- A Quay IE at the start of octets: its OUI, KIND and content, where the octets hold one whole (R151). -/
def parseQuay (bs : List Byte) : Option (Nat × Nat × List Byte) :=
  let d := ofLeBytes (bs.take 2)
  let n := d % 2048
  if bs.length < 2 ∨ d / 2048 ≠ 18 ∨ n < 4 ∨ bs.length < 2 + n then none
  else some (ofLeBytes ((bs.drop 2).take 3).reverse, ofLeBytes ((bs.drop 5).take 1), (bs.drop 6).take (n - 4))

/-- The Report IE that a payload is, alone (R306). -/
def parseReport (oui : BitVec 24) (bs : List Byte) : Option Report :=
  match parseQuay bs with
  | some (o, 7, c) =>
    if o = oui.toNat ∧ bs.length = 12 ∧ c.length = 6 then
      some ⟨c.getD 0 0, BitVec.ofNat 16 (ofLeBytes ((c.drop 1).take 2)), ofLeBytes ((c.drop 3).take 1), ofLeBytes ((c.drop 4).take 2)⟩
    else none
  | _ => none

/-- The envelope that a payload is, as it stands there: no key is known to have sealed octets that the command brings plain (R230).
(DESIGN CHOICE, log 4) -/
def parseSeal (oui : BitVec 24) (bs : List Byte) : Option Seal :=
  match parseQuay bs with
  | some (o, 4, c) =>
    if o = oui.toNat then
      let at' := if (c.getD 4 0).getLsbD 0 then some (ofLeBytes ((c.drop 6).take 5)) else none
      some ⟨ofLeBytes (c.take 1) / 64, 4, ofLeBytes (c.take 1) % 64, ofLeBytes ((c.drop 1).take 3), at', ⟨0, 0, 0, 0⟩, 0, true, 0, [], false, []⟩
    else none
  | _ => none

/-- What octets that reach SVC_PORT.LOCAL spell (R227, R228): a message whose header or options are wrong is not well formed. -/
def coapParse (oui : BitVec 24) (bs : List Byte) : Coap :=
  let b0 := ofLeBytes (bs.take 1)
  let tkl := b0 % 16
  let body := bs.drop (4 + tkl)
  let code := ofLeBytes ((bs.drop 1).take 1)
  let good := b0 / 64 = 1 && tkl ≤ 8 && 4 + tkl ≤ bs.length && (optInfo body).isSome && (code ≠ 0 || (tkl = 0 && body.isEmpty))
  let pay := match body with
    | 0xFF :: p => p
    | _ => []
  { typ := if bs.length < 4 then .non else CoapType.ofCode (b0 / 16)
    code := code
    mid := BitVec.ofNat 16 (ofLeBytes ((bs.drop 2).take 2).reverse)
    token := (bs.drop 4).take tkl
    body := body
    wellFormed := good
    envelope := parseSeal oui pay
    timedAt := none
    report := parseReport oui pay }

/-! ### RPL -/

/-- The octets of an address. -/
def Ip6.octets (a : Ip6) : List Byte := beBytes 16 a.toNat

/-- The DODAG Configuration option (R210, RFC 6550). -/
def DodagConf.wire (c : DodagConf) : List Byte :=
  [4, 14, 0] ++ leBytes 1 c.doublings ++ leBytes 1 c.imin ++ leBytes 1 c.redundancy ++ beBytes 2 c.maxRankInc ++
    beBytes 2 c.minHopRankInc ++ beBytes 2 c.ocp ++ [0] ++ leBytes 1 c.defLifetime ++ beBytes 2 c.unit

/-- The Prefix Information option (R210, RFC 6550). -/
def PrefixInfo.wire (c : PrefixInfo) : List Byte :=
  [8, 30] ++ leBytes 1 c.len ++ leBytes 1 ((if c.onLink then 128 else 0) + if c.auto then 64 else 0) ++ beBytes 4 c.valid ++
    beBytes 4 c.preferred ++ [0, 0, 0, 0] ++ c.pfx.octets

/-- A DIO's octets after the ICMPv6 header (R210, RFC 6550). -/
def Dio.wire (d : Dio) : List Byte :=
  leBytes 1 d.inst ++ leBytes 1 d.version ++ beBytes 2 d.rank ++
    leBytes 1 ((if d.grounded then 128 else 0) + d.mop % 8 * 8 + d.prf % 8) ++ leBytes 1 d.dtsn ++ [0, 0] ++ d.dodag.octets ++
    (match d.conf with
      | some c => c.wire
      | none => []) ++
    match d.info with
      | some c => c.wire
      | none => []

/-- An RPL message as its ICMPv6 code and the octets after the header (RFC 6550); the device sends DIOs and DAO-ACKs only. -/
def Rpl.wire : Rpl → Nat × List Byte
  | .dio d => (1, d.wire)
  | .dis => (0, [0, 0])
  | .dao _ => (2, [])
  | .daoAck inst seq status => (3, leBytes 1 inst ++ [0, seq] ++ leBytes 1 status)
  | .unsupported => (255, [])

/-! ### UDP and ICMPv6 -/

/-- The ones' complement sum of octets read as 16-bit words, most significant octet first (RFC 1071). -/
def sum16 : List Byte → Nat
  | [] => 0
  | [a] => a.toNat * 256
  | a :: b :: rest => a.toNat * 256 + b.toNat + sum16 rest

/-- The checksum of RFC 1071: carries folded, complemented. -/
def checksum (bs : List Byte) : Nat :=
  let a := sum16 bs
  let b := a % 65536 + a / 65536
  65535 - (b % 65536 + b / 65536) % 65536

/-- The pseudo-header of RFC 8200: source, final destination, length, next header. -/
def pseudo (src dst : Ip6) (n next : Nat) : List Byte := src.octets ++ dst.octets ++ beBytes 4 n ++ [0, 0, 0, BitVec.ofNat 8 next]

/-- The final destination of a packet: the last node of its routing header, else its destination (R216, RFC 8200). -/
def Packet.finalDst (p : Packet) : Ip6 :=
  (p.exts.findSome? fun x => match x with
    | .routing _ _ _ _ hops => hops.getLast?.map (Ip6.of p.dst.upper)
    | _ => none).getD p.dst

/-- The ports and payload of a UDP body. -/
def Body.udpParts (oui : BitVec 24) : Body → Option (Nat × Nat × List Byte)
  | .coap sp dp m => some (sp, dp, m.wire oui)
  | .udp sp dp bs => some (sp, dp, bs)
  | .echoRequest _ | .echoReply _ | .icmp _ _ | .rpl _ => none

/-- Type, code and payload of an ICMPv6 body (R209, R256). -/
def Body.icmpParts : Body → Nat × Nat × List Byte
  | .echoRequest bs => (128, 0, bs)
  | .echoReply bs => (129, 0, bs)
  | .icmp t bs => (t, 0, bs)
  | .rpl m => (155, m.wire)
  | .coap _ _ _ | .udp _ _ _ => (0, 0, [])

/-- The UDP checksum, always computed; 0 is sent as 0xFFFF (RFC 768, RFC 8200). -/
def udpSum (p : Packet) (sp dp : Nat) (bs : List Byte) : Nat :=
  let n := 8 + bs.length
  let c := checksum (pseudo p.src p.finalDst n 17 ++ beBytes 2 sp ++ beBytes 2 dp ++ beBytes 2 n ++ [0, 0] ++ bs)
  if c = 0 then 65535 else c

/-- The octets of an ICMPv6 message with its checksum. -/
def icmpOctets (p : Packet) : List Byte :=
  let (t, c, bs) := p.body.icmpParts
  let head := leBytes 1 t ++ leBytes 1 c
  let sum := checksum (pseudo p.src p.finalDst (4 + bs.length) 58 ++ head ++ [0, 0] ++ bs)
  head ++ beBytes 2 sum ++ bs

/-! ### 6LoWPAN -/

/-- IPHC of a packet with TF = 11 and HLIM = 10 (R235): NH is 1 where an NHC follows, else the next header stands inline; then the
context octet, the next header and the inline part of the destination. (PRESUMED, log 34) -/
def iphcOctets (p : Packet) (nhc : Bool) : List Byte :=
  let b (c : Bool) (k : Nat) : Nat := if c then 2 ^ k else 0
  match p.dispatch with
  | .iphc c m sac sam dac dam =>
    leBytes 1 (0x7A + b nhc 2) ++ leBytes 1 (b c.isSome 7 + b sac 6 + sam * 16 + b m 3 + b dac 2 + dam) ++
      (match c with
        | some (x, y) => leBytes 1 (x * 16 + y)
        | none => []) ++
      (if nhc then [] else [58]) ++
      if m then
        if dam = 1 then [(p.dst.octets).getD 1 0] ++ (p.dst.octets).drop 11 else (p.dst.octets).drop 15
      else if dam = 1 then (p.dst.octets).drop 8
      else []
  | .ipv6 | .mesh | .broadcast | .rfc8138 | .unknown => []

/-- An extension header by NHC (R216, R235, R250): its Length octet, then the header after its first two octets; where no NHC
follows, the next header stands inline before the Length. -/
def ExtHdr.nhc (more : Bool) : ExtHdr → List Byte
  | .hopByHop _ m =>
    [if more then 0xE1 else 0xE0] ++ (if more then [] else [58]) ++ [6, 0x6D, 2, 0x20, m.getD 0, 1, 0]
  | .routing typ left ci ce hops =>
    [if more then 0xE7 else 0xE6] ++ (if more then [] else [58]) ++ leBytes 1 (6 + 8 * hops.length) ++ leBytes 1 typ ++ leBytes 1 left ++
      leBytes 1 (ci * 16 + ce) ++ [0, 0, 0] ++ hops.flatMap fun e => beBytes 8 (iidOf e).toNat
  | .fragment | .destOptions | .ipInIp => []

/-- The UDP header by NHC with C = 0 (R235). -/
def udpNhc (sp dp sum : Nat) : List Byte :=
  (if 0xF0B0 ≤ sp ∧ sp ≤ 0xF0BF ∧ 0xF0B0 ≤ dp ∧ dp ≤ 0xF0BF then [0xF3] ++ leBytes 1 (sp % 16 * 16 + dp % 16)
    else if 0xF000 ≤ dp ∧ dp ≤ 0xF0FF then [0xF1] ++ beBytes 2 sp ++ leBytes 1 dp
    else if 0xF000 ≤ sp ∧ sp ≤ 0xF0FF then [0xF2] ++ leBytes 1 sp ++ beBytes 2 dp
    else [0xF0] ++ beBytes 2 sp ++ beBytes 2 dp) ++ beBytes 2 sum

/-- A packet in its compressed form: the compressed headers, and the octets after them (R235). -/
def Packet.wire (oui : BitVec 24) (p : Packet) : List Byte × List Byte :=
  match p.body.udpParts oui with
  | some (sp, dp, bs) => (iphcOctets p true ++ p.exts.flatMap (ExtHdr.nhc true) ++ udpNhc sp dp (udpSum p sp dp bs), bs)
  | none => (iphcOctets p (!p.exts.isEmpty) ++ p.exts.flatMap (ExtHdr.nhc false), icmpOctets p)

/-- Octets of the uncompressed headers that the compressed ones stand for: what `size` holds beyond the octets after them. -/
def Packet.headSize (p : Packet) (rest : List Byte) : Nat := p.size - rest.length

/-- The octets of a frame's content above the MAC (R235, R236). -/
def Upper.wire (oui : BitVec 24) : Upper → List Byte
  | .none => []
  | .octets bs => bs
  | .packet p => (p.wire oui).1 ++ (p.wire oui).2
  | .fragment tag size offset len _ p =>
    let (head, rest) := p.wire oui
    let hu := p.headSize rest
    if offset = 0 then beBytes 2 (0xC000 + size % 2048) ++ beBytes 2 tag ++ head ++ rest.take (len - hu)
    else beBytes 2 (0xE000 + size % 2048) ++ beBytes 2 tag ++ leBytes 1 (offset / 8) ++ (rest.drop (offset - hu)).take len

/-! ### MAC frames -/

/-- One bit of the CRC-16 of R171, least significant first. -/
def crc16Step (c : BitVec 16) : BitVec 16 := if c.getLsbD 0 then (c >>> 1) ^^^ 0x8408 else c >>> 1

/-- The CRC of R171, which is the 2-octet FCS. -/
def fcs16 (bs : List Byte) : BitVec 16 :=
  bs.foldl (fun c b => (List.range 8).foldl (fun x _ => crc16Step x) (c ^^^ b.zeroExtend 16)) 0

/-- The FCS of 2 or 4 octets (R122, IEEE 802.15.4). -/
def fcsOctets (fcs4 : Bool) (bs : List Byte) : List Byte :=
  if fcs4 then leBytes 4 (crc32 (bs ++ List.replicate (4 - bs.length) 0)).toNat else leBytes 2 (fcs16 bs).toNat

/-- Octets of a MAC address, least significant first (R4). -/
def Addr.wire : Addr → List Byte
  | .none => []
  | .short a => leBytes 2 a.toNat
  | .eui e => leBytes 8 e.toNat

/-- The addressing mode of an address (IEEE 802.15.4). -/
def Addr.mode : Addr → Nat
  | .none => 0
  | .short _ => 2
  | .eui _ => 3

/-- The frame type (IEEE 802.15.4). -/
def FrameKind.code : FrameKind → Nat
  | .beacon => 0
  | .data => 1
  | .ack => 2
  | .other => 7

/-- An address that is not an EUI-64. -/
def Addr.isShort : Addr → Bool
  | .short _ => true
  | .none | .eui _ => false

/-- The Frame Control field (R149, IEEE 802.15.4): with the destination PAN ID alone, PAN ID Compression is 1 beside a short address. -/
def Frame.control (f : Frame) : Nat :=
  let b (c : Bool) (k : Nat) : Nat := if c then 2 ^ k else 0
  f.kind.code + b f.sec.isSome 3 + b f.ar 5 + b (f.pan.isSome && (f.dst.isShort || f.src.isShort)) 6 +
    b f.dsn.isNone 8 + b (!f.ies.isEmpty) 9 + f.dst.mode * 2 ^ 10 + f.version * 2 ^ 12 +
    f.src.mode * 2 ^ 14

/-- MAC header with the auxiliary security header and the header IEs (R149, R150, R322). (PRESUMED, log 26) -/
def Frame.mhr (oui : BitVec 24) (f : Frame) : List Byte :=
  leBytes 2 f.control ++ f.dsn.toList ++
    (match f.pan with
      | some p => leBytes 2 p.toNat
      | none => []) ++ f.dst.wire ++ f.src.wire ++
    (match f.sec with
      | some c => leBytes 1 (c.level + c.keyMode * 8 + (if c.suppressed then 32 else 0) + (if c.asnNonce then 64 else 0)) ++
          leBytes 1 c.keyIndex
      | none => []) ++ headerIes oui f.ies

/-- MIC octets of a security level (R236). -/
def micLen (level : Nat) : Nat := if level = 5 then 4 else if level = 6 then 8 else 0

/-- The PSDU of one of the device's own frames: header, payload IEs and content, enciphered with their MIC where the frame is
secured under the nonce of R322, and the FCS. `eui` is IDENT_EUI. -/
def Frame.psdu (oui : BitVec 24) (eui : Eui) (fcs4 : Bool) (f : Frame) : List Byte :=
  let pay := payloadIes oui f.ies ++ f.upper.wire oui
  let body := match f.kind with
    | .other => pay
    | .beacon | .data | .ack =>
      f.mhr oui ++ match f.sec with
        | some c => ccmSealed c.key (beBytes 8 eui.toNat ++ beBytes 5 c.slot.asn) (f.mhr oui) pay (micLen c.level)
        | none => pay
  body ++ fcsOctets fcs4 body

end Sys2Proof.Machine
end

