-- ==== Sys2Proof/Machine/Air.lean ====
section
/-!
DEFINITION. Airtimes and lengths of the modes (R104, R105, R122), the mode and framing of a berth's frames, and the queue of
the MAC engine as its producers use it (R181).
-/

namespace Sys2Proof.Machine

/-- The rate of a mode in kb/s (R104). -/
def modeRate (m : Nat) : Nat :=
  if m = 0 then 50 else if m = 1 then 100 else if m = 2 then 150 else if m = 3 then 200 else 250

/-- The channel spacing of a mode in kHz (R104). -/
def modeSpacing (m : Nat) : Nat := if m = 0 then 200 else if m = 1 ∨ m = 2 then 400 else if m = 3 then 600 else 5000

/-- The SPACING code that a mode belongs to (R91, R104). -/
def spacingOf (m : Nat) : Nat := if m = 0 then 0 else if m = 1 ∨ m = 2 then 1 else if m = 3 then 2 else 3

/-- PHR octets of a mode (R104). -/
def phrLen (m : Nat) : Nat := if m = 4 then 1 else 2

/-- Largest PSDU of a mode in octets (R105). -/
def psduLimit (m : Nat) : Nat := if m = 4 then 127 else 2047

/-- The mode belongs to the berth's band (R104). -/
def modeOfBand (n m : Nat) : Bool := if n < 4 then m < 4 else m = 4

/-- Bits on air from the end of the SFD on: coded frames carry 3 tail bits and 13 or 5 pad bits, after an even or an odd length, at
rate 1/2 (R105, IEEE 802.15.4-2020). -/
def airBits (m : Nat) (coded : Bool) (len : Nat) : Nat :=
  if coded then 2 * (16 + 8 * len + (if len % 2 = 0 then 16 else 8)) else 8 * (phrLen m + len)

/-- Nanoseconds of a number of bits in a mode. -/
def bitsNs (m bits : Nat) : Nat := bits * 1000000 / modeRate m

/-- Airtime in ns from the end of the SFD to the last symbol (R105). -/
def bodyNs (m : Nat) (coded : Bool) (len : Nat) : Nat := bitsNs m (airBits m coded len)

/-- TsMaxTx in effect, µs (R159). -/
def tsMaxTx (s : State) : Nat := bitsOf 16 0 (rd s Reg.MAC_TS_MAX_TX)

/-- The airtime stays within a number of µs, and the PSDU within the mode's limit (R105, R122). -/
def airFits (us m : Nat) (coded : Bool) (len : Nat) : Bool :=
  airBits m coded len * 1000 ≤ us * modeRate m && len ≤ psduLimit m

/-- Largest PSDU that a number of µs of airtime admits in a mode (R105). -/
def pMax (us m : Nat) (coded : Bool) : Nat :=
  let bits := us * modeRate m / 1000
  if coded then
    let k := bits / 2
    let even := (k - 32) / 8 / 2 * 2
    let odd := if k < 32 then 0 else ((k - 24) / 8 - 1) / 2 * 2 + 1
    min (psduLimit m) (max even odd)
  else min (psduLimit m) (bits / 8 - phrLen m)

/-- PREAMBLE of a berth (R122). -/
def preambleOf (s : State) (n : Nat) : Nat := fget s (berthBase n) Fl.BERTH_TX_CFG_PREAMBLE

/-- SHR airtime in ns (R122). -/
def shrNs (s : State) (n m : Nat) : Nat := if m = 4 then 160000 else bitsNs m (8 * (preambleOf s n + 2))

/-- The berth codes its frames in this mode (R122). -/
def txCoded (s : State) (n m : Nat) : Bool := m ≠ 4 && fget s (berthBase n) Fl.BERTH_TX_CFG_FEC ≠ 0

/-- The berth's frames in this mode carry a 4-octet FCS (R122). -/
def txFcs4 (s : State) (n m : Nat) : Bool := m ≠ 4 && fbit s (berthBase n) Fl.BERTH_TX_CFG_FCS4

/-- The berth whitens its frames in this mode (R122). -/
def txWhitened (s : State) (n m : Nat) : Bool := m ≠ 4 && fbit s (berthBase n) Fl.BERTH_TX_CFG_WHITEN

/-- FCS octets of a berth's frames in a mode. -/
def fcsLen (s : State) (n m : Nat) : Nat := if txFcs4 s n m then 4 else 2

/-- Entry `j` of a berth as a word (R119). -/
def chWord (s : State) (n j : Nat) : Word := rd s (berthBase n + Reg.BERTH_RX_CH + 4 * j)

/-- An entry is enabled and applied (R93). -/
def entryOn (s : State) (n j : Nat) : Bool := ((getBerth s n).bins.getD j none).isSome

/-- CHAN of an entry. -/
def entryChan (s : State) (n j : Nat) : Nat := bitsOf 17 8 (chWord s n j)

/-- MODE of an entry. -/
def entryMode (s : State) (n j : Nat) : Nat := bitsOf 3 1 (chWord s n j)

/-- The applied, enabled entries of a berth, ascending. -/
def entriesOn (s : State) (n : Nat) : List Nat := (List.range (berthEntries n)).filter (entryOn s n)

/-- The mode of a berth's unicast frames (the model's choice, see the log): that of its lowest applied entry, else the first of
its spacing. (DEDUCED, log 67) -/
def berthMode (s : State) (n : Nat) : Nat :=
  match (entriesOn s n).head? with
  | some j => entryMode s n j
  | none =>
    if n ≥ 4 then 4
    else
      let sp := fget s (berthBase n) Fl.BERTH_RX_PLAN_SPACING
      if sp = 0 then 0 else if sp = 1 then 1 else 3

/-- A slotframe is active (R152). -/
def sfOn (s : State) (h : Nat) : Bool := fbit s (4 * h) Fl.MAC_SF_CFG_EN

/-- The berths of a slotframe include `n` (R152). -/
def sfHas (s : State) (h n : Nat) : Bool := (fget s (4 * h) Fl.MAC_SF_CFG_BERTHS).testBit n

/-- BMODE of a slotframe (R152). -/
def sfMode (s : State) (h : Nat) : Nat := fget s (4 * h) Fl.MAC_SF_CFG_BMODE

/-- HOPSEQ of a slotframe, which is also its band (R152). -/
def sfSeq (s : State) (h : Nat) : Nat := fget s (4 * h) Fl.MAC_SF_CFG_HOPSEQ

/-- The modes of a berth's broadcast frames: BMODE of the active slotframes in which it transmits (R152). -/
def bcastModes (s : State) (n : Nat) : List Nat :=
  ((List.range 16).filter fun h => sfOn s h && sfHas s h n).map (sfMode s)

/-- The largest PSDU that every broadcast mode of a berth takes (R105, R152); its unicast mode's where it has none. -/
def bcastMax (s : State) (n : Nat) : Nat :=
  let of (m : Nat) : Nat := pMax (tsMaxTx s) m (txCoded s n m)
  match bcastModes s n with
  | [] => of (berthMode s n)
  | m :: ms => ms.foldl (fun x k => min x (of k)) (of m)

/-- The longest FCS of a berth's broadcast frames (R122). -/
def bcastFcs (s : State) (n : Nat) : Nat :=
  match bcastModes s n with
  | [] => fcsLen s n (berthMode s n)
  | ms => ms.foldl (fun x k => max x (fcsLen s n k)) 2

/-- The berths that transmit, ascending: present with TX_EN applied as 1. (DEDUCED, log 36) -/
def txBerths (s : State) : List Nat :=
  (List.range 6).filter fun n => berthPresent s n && fbit s (berthBase n) Fl.BERTH_TX_CTRL_TX_EN

/-- The berths that send EBs and DIOs (R174, R210). -/
def ebBerths (s : State) : List Nat := (List.range 6).filter fun n => (fget s 0 Fl.MAC_EB_CFG_BERTHS).testBit n && berthPresent s n

/-- Octets of a MAC address in a frame. -/
def Addr.octets : Addr → Nat
  | .none => 0
  | .short _ => 2
  | .eui _ => 8

/-- The overhead V of a device data frame (R236). -/
def frameOverhead (dst : Addr) (level fcs : Nat) : Nat :=
  5 + dst.octets + 8 + (if level = 0 then 0 else 2 + micLen level) + fcs

/-- The datagram_tag of a fragment (R236). -/
def Upper.fragTag : Upper → Option Nat
  | .fragment tag _ _ _ _ _ => some tag
  | .none | .octets _ | .packet _ => Option.none

/-- Two frames are of one message to one destination, and keep their order (R226, R236). -/
def TxFrame.sameMessage (q r : TxFrame) : Bool :=
  q.dst = r.dst && match q.owner, r.owner with
    | .txn a, .txn b => a = b
    | .datagram a, .datagram b => a = b
    | .mpl a _, .mpl b _ => a = b
    | _, _ => q.frame.upper.fragTag.isSome && q.frame.upper.fragTag = r.frame.upper.fragTag

/-- The MAC engine changed. -/
def modMac (g : MacS → MacS) (s : State) : State := { s with mac := g s.mac }

/-- A frame joins the MAC engine's queue (R181). -/
def offer (cls : TxClass) (dst : TxDest) (owner : TxOwner) (frame : Frame) (len : Nat) (mode : Option Nat) (power : Option Int)
    (rawAt : Option (SlotName × Nat)) (guard : Option SlotName) (s : State) : State :=
  let q : TxFrame := ⟨s.mac.nextId, cls, dst, owner, frame, len, mode, power, rawAt, 0, 0, guard⟩
  modMac (fun m => { m with queue := m.queue ++ [q], nextId := m.nextId + 1 }) s

/-- The next DSN of the device's own frames, and the state after taking it. -/
def takeDsn (s : State) : Byte × State := (s.mac.dsnNext, modMac (fun m => { m with dsnNext := m.dsnNext + 1 }) s)

/-- Frames that satisfy `p` leave the MAC engine's queue. -/
def unqueueAll (p : TxFrame → Bool) (s : State) : State := modMac (fun m => { m with queue := m.queue.filter fun q => !p q }) s

/-- Queued frames that satisfy `p` are withdrawn, planned ones that have not started among them. -/
def withdraw (p : TxFrame → Bool) (s : State) : State :=
  let keep (t : Tx) : Bool := t.done || !t.queued.any p
  unqueueAll p { s with berths := s.berths.map fun b => { b with requests := b.requests.filter keep } }

/-- The device's data frame (R169, R236): version 2, from IDENT_EUI. -/
def dataFrame (s : State) (dst : Addr) (dsn : Option Byte) (ar : Bool) (upper : Upper) : Frame where
  kind := .data
  version := 2
  pan := some (BitVec.ofNat 16 (fget s 0 Fl.MAC_PAN_PAN_ID))
  dst := dst
  src := .eui s.otp.eui
  dsn := dsn
  ar := ar
  sec := none
  ies := []
  upper := upper

end Sys2Proof.Machine
end

