-- ==== Sys2Proof/Machine/CkptImage.lean ====
section
/-!
DEFINITION. What a checkpoint writes into its area (R378, R379), as one stream of 64-octet pieces in the order of R379: the
header with WRITING 1, the marked entries, both change maps, the header with WRITING 0; and where each piece goes.
-/

namespace Sys2Proof.Machine

/-- Entries a checkpoint marks: of the directory and of the neighbour tables (R378). -/
def CkptWrite.dirCount (w : CkptWrite) : Nat := if w.header.full then 262143 else w.dirMarks.length
/-- Neighbour entries a checkpoint marks (R378). -/
def CkptWrite.nbrCount (w : CkptWrite) : Nat := if w.header.full then 12288 else w.nbrMarks.length

/-- The octets of a checkpoint's stream. -/
def CkptWrite.total (w : CkptWrite) : Nat := 64 * (w.dirCount + w.nbrCount + 538)

/-- Octet `k` of a change map over `n` entries (R378): bit (h mod 8) of byte h div 8. -/
def mapByte (full : Bool) (n : Nat) (marks : List Nat) (k : Nat) : Byte :=
  BitVec.ofNat 8 ((List.range 8).map fun b =>
    if (if full then 8 * k + b < n else marks.contains (8 * k + b)) then 2 ^ b else 0).sum

/-- Octets [64 k, 64 k + 64) of both change maps, the directory's first. -/
def CkptWrite.mapPiece (w : CkptWrite) (k : Nat) : List Byte :=
  (List.range 64).map fun i =>
    if k < 512 then mapByte w.header.full 262143 w.dirMarks (64 * k + i)
    else mapByte w.header.full 12288 w.nbrMarks (64 * (k - 512) + i)

/-- Both change maps (R378). -/
def CkptWrite.maps (w : CkptWrite) : List Byte := (List.range 536).flatMap w.mapPiece

/-- Bytes 0 to 59 of a checkpoint header (R378). -/
def CkptHeader.front (h : CkptHeader) (writing : Bool) : List Byte :=
  [0x01, BitVec.ofNat 8 ((if h.full then 1 else 0) + (if writing then 2 else 0)), 0, 0] ++ leBytes 4 h.seq.toNat ++
  leBytes 4 h.prevSeq.toNat ++ leBytes 8 h.srcEui.toNat ++ [h.incarnation.zeroExtend 8, h.rplVersion, h.rplDtsn, 0] ++
  leBytes 4 h.name.rsn.word.toNat ++ leBytes 2 h.name.epoch.toNat ++ leBytes 6 h.ns.toNat ++ leBytes 2 h.mid.toNat ++
  leBytes 2 h.frag.toNat ++ [h.mplSeq, 0, 0, 0] ++ leBytes 4 h.dirMarked ++ leBytes 4 h.nbrMarked ++ List.replicate 8 0

/-- The header of 64 octets, its CRC over bytes 0 to 59 and both change maps (R378). -/
def CkptWrite.headPiece (w : CkptWrite) (writing : Bool) : List Byte :=
  let front := w.header.front writing
  front ++ leBytes 4 (crc32 (front ++ w.maps)).toNat

/-- Directory entry `h` as it is written: zeros when it is removed (R379). -/
def dirPiece (s : State) (h : Nat) : List Byte := ((dirGet s h).map fun d => imageOf d.words).getD (List.replicate 64 0)

/-- Neighbour entry `i` as it is written: zeros when it is removed (R379). -/
def nbrPiece (s : State) (i : Nat) : List Byte := ((nbrGet s i).map fun x => imageOf x.words).getD (List.replicate 64 0)

/-- Piece `k` of the stream: its area offset and its octets, its entry read whole now (R378, R379). (DEDUCED, log 55) -/
def ckptPiece (s : State) (w : CkptWrite) (k : Nat) : Nat × List Byte :=
  let n := w.nbrCount
  let d := w.dirCount
  if k = 0 then (0, w.headPiece true)
  else if k - 1 < n then
    let i := if w.header.full then k - 1 else w.nbrMarks.getD (k - 1) 0
    (0x10000 + 64 * i, nbrPiece s i)
  else if k - 1 - n < d then
    let h := if w.header.full then k - 1 - n else w.dirMarks.getD (k - 1 - n) 0
    (0x100000 + 64 * h, dirPiece s h)
  else if k - 1 - n - d < 512 then (0x1000 + 64 * (k - 1 - n - d), w.mapPiece (k - 1 - n - d))
  else if k - 1 - n - d < 536 then (0x9000 + 64 * (k - 1 - n - d - 512), w.mapPiece (k - 1 - n - d))
  else (0, w.headPiece false)

end Sys2Proof.Machine
end

