-- ==== Sys2Proof/Machine/DescCheck.lean ====
section
/-!
DEFINITION. What a submission descriptor's 64 bytes say of themselves (R269 to R271): its fields, its reserved bits, the checks
of its fields that need no state, the rings and functions it is accepted from, and the buffer it reads.
-/

namespace Sys2Proof.Machine

/-- OPCODE codes (R270). -/
abbrev opMsgSend : Nat := 0x01
/-- R270. -/
abbrev opMsgGroup : Nat := 0x02
/-- R270. -/
abbrev opDgram : Nat := 0x03
/-- R270. -/
abbrev opRaw : Nat := 0x04
/-- R270. -/
abbrev opTable : Nat := 0x10
/-- R270. -/
abbrev opCampStart : Nat := 0x20
/-- R270. -/
abbrev opCampCtrl : Nat := 0x21
/-- R270. -/
abbrev opFwOpen : Nat := 0x30
/-- R270. -/
abbrev opFwChunk : Nat := 0x31
/-- R270. -/
abbrev opFwClose : Nat := 0x32
/-- R270. -/
abbrev opAttest : Nat := 0x38
/-- R270. -/
abbrev opCkptLoad : Nat := 0x40
/-- R270. -/
abbrev opCkptArea : Nat := 0x41
/-- R270. -/
abbrev opNop : Nat := 0x7F

/-- OPCODE of a descriptor. -/
def DescS.op (d : DescS) : Nat := d.byte 0

/-- BUF_ADDR (R269). -/
def DescS.bufAddr (d : DescS) : Nat := d.num 8 8

/-- BUF_LEN (R269). -/
def DescS.bufLen (d : DescS) : Nat := d.num 16 4

/-- A slot name field of a descriptor (R69, R271). -/
def DescS.slotName (d : DescS) (off : Nat) : SlotField := slotFieldOf ((d.bytes.drop off).take 6)

/-- The rings that accept an opcode (R270). -/
def ringAccepts (r op : Nat) : Bool :=
  if r = 3 then op = opNop
  else if r < 2 then [opMsgSend, opMsgGroup, opDgram, opRaw, opNop].contains op
  else [opTable, opCampStart, opCampCtrl, opFwOpen, opFwChunk, opFwClose, opAttest, opCkptLoad, opCkptArea, opNop].contains op

/-- Octets [lo, hi) of a descriptor are 0. -/
def DescS.zero (d : DescS) (lo hi : Nat) : Bool := ((d.bytes.drop lo).take (hi - lo)).all fun b => b = 0

/-- The bytes and bits that R271 does not list, and the reserved bits of the fields it lists, are 0. -/
def DescS.reservedZero (d : DescS) : Bool :=
  d.byte 1 < 4 && d.zero 2 4 &&
  (if d.op = opMsgSend then d.zero 60 64 && d.num 28 4 < 2 ^ 18 && d.byte 33 < 8 && d.byte 35 < 2
   else if d.op = opMsgGroup then d.zero 40 64 && d.byte 24 < 8 && d.byte 25 < 2 && d.byte 26 < 2
   else if d.op = opDgram then d.zero 37 38 && d.zero 44 64 && d.num 28 4 < 2 ^ 18 && d.byte 36 < 4
   else if d.op = opRaw then d.zero 32 64
   else if d.op = opTable then d.zero 23 24 && d.zero 36 64 && d.byte 20 < 16 && d.byte 21 < 2 && d.num 24 4 < 2 ^ 18
   else if d.op = opCampStart then d.zero 30 32 && d.zero 56 64 && d.byte 21 < 2
   else if d.op = opCampCtrl then d.zero 22 24 && d.zero 28 64
   else if d.op = opFwOpen ∨ d.op = opFwChunk then d.zero 24 64
   else if d.op = opFwClose then d.zero 21 64
   else if d.op = opAttest then d.zero 52 64
   else if d.op = opCkptLoad then d.zero 21 64 && d.byte 20 < 2
   else if d.op = opCkptArea then d.zero 23 64 && d.byte 22 < 2
   else d.zero 20 64)

/-- Slot names at these offsets are valid RSNs (R69). -/
def DescS.slotsOk (d : DescS) (offs : List Nat) : Bool := offs.all fun o => d.slotName o ≠ .invalid

/-- RETRY_MAX is at most 15, or the message is NON, which ignores it (R239). -/
def retryOk (priority retry : Nat) : Bool := priority.testBit 2 || retry ≤ 15

/-- The octets of a checkpoint area (R378, R380). -/
abbrev ckptAreaLen : Nat := 17825792

/-- The checks of a descriptor's fields by its owning chapter that need no state (R226, R227, R239, R247, R256, R257, R313,
R336, R378, R396). -/
def DescS.fieldsOk (d : DescS) : Bool :=
  if d.op = opMsgSend then
    1 ≤ d.byte 32 && d.byte 32 ≤ 31 && d.byte 33 % 4 ≠ 3 && retryOk (d.byte 33) (d.byte 34) && d.bufLen ≤ 1224 &&
      d.slotsOk [36, 42]
  else if d.op = opMsgGroup then
    1 ≤ d.byte 23 && d.byte 23 ≤ 31 && d.byte 24 % 4 ≠ 3 && retryOk (d.byte 24) (d.byte 27) && d.bufLen ≤ 1224 &&
      d.num 20 2 ≤ 4095 && d.byte 22 ≤ 2 && d.slotsOk [28, 34]
  else if d.op = opDgram then d.bufLen ≤ 1232 && d.byte 36 % 4 ≠ 3 && d.slotsOk [38]
  else if d.op = opRaw then
    d.byte 20 < 6 && (if d.byte 20 < 4 then d.byte 21 < 4 else d.byte 21 = 4) && d.slotsOk [24]
  else if d.op = opTable then
    let top := d.byte 20
    1 ≤ top && top ≤ 8 && !(top = 1 && d.byte 21 = 1) &&
      (if [2, 3, 4, 5].contains top then d.bufLen = 64 else true)
  else if d.op = opCampStart then d.slotsOk [32, 38]
  else if d.op = opCampCtrl then d.byte 21 ≤ 6 && (d.bufLen = 0 || 32 ≤ d.bufLen)
  else if d.op = opFwOpen then d.bufLen = 0
  else if d.op = opFwChunk then 1 ≤ d.bufLen && d.bufLen ≤ 65536
  else if d.op = opFwClose then d.byte 20 < 2 && d.bufLen = 0
  else if d.op = opAttest then 608 ≤ d.bufLen
  else if d.op = opCkptArea then
    ckptAreaLen ≤ d.bufLen && (d.num 20 2 = 0 || (10 ≤ d.num 20 2 && d.num 20 2 ≤ 3600))
  else true

/-- A RAW_FRAME names a berth of the part (R1, R257). (DEDUCED, log 69) -/
def DescS.berthOk (s : State) (d : DescS) : Bool := d.op ≠ opRaw || berthPresent s (d.byte 20)

/-- R269: the descriptor is one that its ring starts. -/
def DescS.wellFormed (s : State) (d : DescS) : Bool :=
  ringAccepts d.ring d.op && d.reservedZero && d.fieldsOk && d.berthOk s && (d.ring ≠ 3 || 2048 ≤ d.bufLen)

/-- The grant bit that an opcode asks for, beside the harbour master function (R270). -/
def opRight (op : Nat) : Option Nat :=
  if op = opCampStart ∨ op = opCampCtrl then some 12
  else if op = opFwOpen ∨ op = opFwChunk ∨ op = opFwClose then some 18
  else if op = opCkptLoad ∨ op = opCkptArea then some 17
  else none

/-- R270: function `f` may use this opcode. -/
def opAllowed (s : State) (f op : Nat) : Bool :=
  if f = hmFn s then true
  else if op = opRaw then false
  else
    match opRight op with
    | none => true
    | some k => bitAt k (grantWord s f)

/-- The octets that a descriptor's payload gather reads before its engine begins (R271, R286). -/
def DescS.gatherLen (d : DescS) : Nat :=
  if [opMsgSend, opMsgGroup, opDgram, opRaw, opFwChunk].contains d.op then d.bufLen
  else if d.op = opTable ∧ (d.byte 20 = 4 ∨ d.byte 20 = 5) then d.bufLen
  else 0

/-- The class of a descriptor's payload gather and of its writes (R277). -/
def DescS.jobClass (d : DescS) : Nat := if d.ring = 0 then 0 else if d.ring = 1 ∨ d.op = opTable then 1 else 2

/-- Opcodes whose descriptor completes with POISONED when its gather was poisoned (R286). -/
def poisonEnds (op : Nat) : Bool := [opMsgSend, opMsgGroup, opDgram, opRaw].contains op

end Sys2Proof.Machine
end

