-- ==== Sys2Proof/Machine/Time.lean ====
section
/-!
DEFINITION. The TIME island (R55 to R88): snapshots and loads, the reference servo, slot timing as far as the island itself
goes, the RSN converter, triggers, captures and the tide link.
-/

namespace Sys2Proof.Machine

/-! ### Shared operations -/

/-- TIME changed. -/
def modTime (g : TimeS → TimeS) (s : State) : State := { s with time := g s.time }

/-- TIME_CTRL.DISC (R61). -/
def disc (s : State) : Nat := fget s 0 Fl.TIME_CTRL_DISC

/-- The slot length in ns (R66). -/
def slotLenNs (s : State) : Nat := 1000 * fget s 0 Fl.TIME_SLOT_LEN_LEN

/-- The mesh is enabled: MESH_EN is applied as 1 (R157). -/
def meshOn (s : State) : Bool := fbit s 0 Fl.MAC_CTRL_MESH_EN

/-- A signed value as AUX[31:0] holds it (R88). -/
def auxOf (e : Int) : Nat := unsignedOf 32 e

/-- The quotient n / d where no rule states its rounding (R63). (DESIGN CHOICE, log 13) -/
def quotient (n : Int) (d : Nat) : Int :=
  if n % d = 0 then n / d else if Config.roundUp n d then n / d + 1 else n / d

/-- The interval of the reference: PPS_IN one second, the tide link its period (R63). -/
def refInterval (s : State) : Nat := if disc s = 2 then 1000000 * fget s 0 Fl.TIME_TIDE_CFG_PERIOD_MS else 1000000000

/-- R88: an event of a reference edge captured at `cap`, with its error in AUX. -/
def raiseEdge (code result : Nat) (cap : Instant) (e : Int) (s : State) : State :=
  raiseOcc ⟨code, false, BitVec.ofNat 32 result, noNode, cap, BitVec.ofNat 64 (auxOf e), false⟩ s

/-- R63: the servo runs on an accepted edge captured at `cap` with error `e`. -/
def servoUpdate (cap : Instant) (e : Int) (s : State) : State :=
  let iv := refInterval s
  let lim : Int := ((iv / 50000 : Nat) : Int)
  let integ := clampInt (-lim) lim (s.time.integ - e >>> fget s 0 Fl.TIME_PPS_CFG_KI_SHIFT)
  let rate := integ - e >>> fget s 0 Fl.TIME_PPS_CFG_KP_SHIFT
  let raw := quotient (rate * 4294967296 * 25) iv
  let corr := clampInt (-2147484) 2147484 raw
  let s1 := modTime (fun t => { t with integ := integ, servoCorr := corr }) s
  if corr = raw then s1 else raiseEdge 58 0 cap e (fset 0 Fl.TIME_STATUS_SERVO_CLAMP 1 s1)

/-- R65: the last rate is held, servo_corr at the integral term alone, for a reference of this interval; within R57's bound.
(DEDUCED, log 72) -/
def holdRate (iv : Nat) (s : State) : State :=
  modTime (fun t => { t with servoCorr := clampInt (-2147484) 2147484 (quotient (t.integ * 4294967296 * 25) iv) }) s

/-- R64: an edge anchors the PPS reference. -/
def ppsAnchor (cap : Instant) (s : State) : State :=
  modTime (fun t => { t with
    expected := some (cap + 1000000000)
    ref := .acquiring
    goodRun := 0
    badRun := 0
    rejRun := 0 }) s

/-- R64 glitch: an edge outside the window; the third in a row re-anchors. A rejected edge ends both runs of accepted edges.
(DESIGN CHOICE, log 71) -/
def ppsReject (cap : Instant) (e : Int) (s : State) : State :=
  let s1 := raiseEdge 50 0 cap e (bump 0 Ct.TIME_PPS_GLITCH s)
  let s2 := modTime (fun t => { t with rejRun := t.rejRun + 1, goodRun := 0, badRun := 0 }) s1
  if s2.time.rejRun = 3 then raiseEdge 51 0 cap e (ppsAnchor cap s2) else s2

/-- R64 lock: the runs of accepted edges within and beyond 50 ns. -/
def ppsRuns (cap : Instant) (e : Int) (s : State) : State :=
  if e.natAbs ≤ 50 then
    let s1 := modTime (fun t => { t with goodRun := t.goodRun + 1, badRun := 0, rejRun := 0 }) s
    if 8 ≤ s1.time.goodRun ∧ s1.time.ref ≠ .locked then
      raiseEdge 48 0 cap e (modTime (fun t => { t with ref := .locked }) s1)
    else s1
  else
    let s1 := modTime (fun t => { t with badRun := t.badRun + 1, goodRun := 0, rejRun := 0 }) s
    if 4 ≤ s1.time.badRun ∧ s1.time.ref = .locked then modTime (fun t => { t with ref := .acquiring }) s1 else s1

/-- The last PPS edge as TIME_PPS_LAST shows it (R87). -/
def ppsLast (cap : Instant) (s : State) : State :=
  wr Reg.TIME_PPS_LAST_HI (BitVec.ofNat 32 (cap.toNat >>> 32)) (wr Reg.TIME_PPS_LAST_LO (BitVec.ofNat 32 cap.toNat) s)

/-- R87: TIME_PPS_CFG.EDGE selects the edge of PPS_IN. -/
def ppsSelects (s : State) (rising : Bool) : Bool := fbit s 0 Fl.TIME_PPS_CFG_EDGE != rising

/-- R63, R64: a selected edge on PPS_IN, captured `sub` ns after the last tick. Outside mode PPS it is only shown in TIME_PPS_LAST.
-/
def takePpsEdge (sub : Nat) (s : State) : State :=
  let cap := nowNs s + BitVec.ofNat 48 sub
  let s1 := ppsLast cap s
  if disc s = 1 then
    let s2 := modTime (fun t => { t with lastRefMono := monoNs s + sub }) s1
    match s.time.expected with
    | none => ppsAnchor cap s2
    | some x =>
      let e := instantDiff x cap
      let s3 := modTime (fun t => { t with expected := some (x + 1000000000) }) (wr Reg.TIME_REF_ERR (BitVec.ofInt 32 e) s2)
      if fget s 0 Fl.TIME_PPS_CFG_WINDOW_NS < e.natAbs then ppsReject cap e s3 else ppsRuns cap e (servoUpdate cap e s3)
  else s1

/-- R63, R87: an edge on PPS_IN; one that EDGE does not select has no effect. -/
def doPpsEdge (rising : Bool) (sub : Nat) (s : State) : State := if ppsSelects s rising then takePpsEdge sub s else s

/-- Meaning of PPS_EDGE. -/
def execPpsEdge (rising : Bool) (sub : Fin 25) (s : State) : Host.Outcome State Fault Refusal := act (doPpsEdge rising sub.val) s

/-- The e of the last reference edge, as TIME_REF_ERR holds it: AUX of events 49 and 53 (R88). (DESIGN CHOICE, log 71) -/
def lastErr (s : State) : Nat := (rd s Reg.TIME_REF_ERR).toNat

/-- R64 loss: 1.5 s without an edge in mode PPS. -/
def doPpsLost (s : State) : State :=
  if disc s = 1 ∧ s.time.ref ≠ .holdover then
    let s1 := elapseToMono (s.time.lastRefMono + 1500000000) s
    raiseAux 49 0 (lastErr s) (holdRate 1000000000 (modTime (fun t => { t with ref := .holdover, expected := none }) s1))
  else s

/-- Meaning of PPS_LOST. -/
def execPpsLost (s : State) : Host.Outcome State Fault Refusal := act doPpsLost s

/-! ### TIME_CTRL -/

/-- The instant in TIME_START (R66). -/
def timeStart (s : State) : Instant :=
  BitVec.ofNat 48 ((rd s Reg.TIME_START_HI).toNat * 4294967296 + (rd s Reg.TIME_START_LO).toNat)

/-- The first adopted slot start after now, and its slot (R66, R85). -/
def adoptedStart (s : State) (a : TideAdopt) : Instant × SlotName :=
  let len := 1000 * a.lenUs
  let gone := instantDiff a.start (nowNs s)
  let k := if gone < 0 then 0 else gone.toNat / len + 1
  (a.start + BitVec.ofNat 48 (k * len), a.name.addSlots k)

/-- Stage 1 of TIME_CTRL (R61): DISC 3 is reserved, and DISC 2 excludes TIDE_SRC. -/
def timeCtrlWordOk (v : Word) : Bool := bitsOf 2 1 v ≠ 3 && !(bitsOf 2 1 v = 2 && bitAt 3 v)

/-- Slot timing is to be started by this word: SLOT_RUN rises while slots are stopped (R66). -/
def startsSlots (s : State) (v : Word) : Bool := bitAt 0 v && s.time.slots = .stopped

/-- Stage 2 of TIME_CTRL (R59, R66). -/
def timeCtrlOk (s : State) (v : Word) : Bool :=
  let load := !bitAt 5 v || (s.time.slots = .stopped && bitsOf 2 1 v ≠ 2)
  let start := !startsSlots s v || bitsOf 2 1 v = 2 || 100000 ≤ instantDiff (nowNs s) (timeStart s)
  let stop := bitAt 0 v || s.time.slots ≠ .running || !meshOn s
  load && start && stop

/-- R61, R64, R65: the reference mode becomes `d`; leaving PPS or TIDE holds the last rate. -/
def setDisc (d : Nat) (s : State) : State :=
  if disc s = d then s
  else
    let s1 := if disc s = 0 then s else holdRate (refInterval s) s
    modTime (fun t => { t with
      ref := .none
      expected := none
      goodRun := 0
      badRun := 0
      rejRun := 0
      lastRefMono := monoNs s
      adopted := none
      tideLostTold := false }) (fset 0 Fl.TIME_CTRL_DISC d s1)

/-- R66: SLOT_RUN becomes 1: a start is armed, or a pending stop cancelled. In mode TIDE the first slot carries the name that the
source's slot has (R85). -/
def runSlots (s : State) : State :=
  let s1 := fset 0 Fl.TIME_CTRL_SLOT_RUN 1 s
  match s.time.slots with
  | .running | .armed => s1
  | .stopping => modTime (fun t => { t with slots := .running }) s1
  | .stopped =>
    let first := match s.time.adopted with
      | some a => if disc s = 2 then adoptedStart s a else (timeStart s, s.time.name)
      | none => (timeStart s, s.time.name)
    modTime (fun t => { t with slots := .armed, slotStart := first.1, name := first.2 }) s1

/-- Keys of the TIME block's buffered values lie in [0x6000, 0x6400) (R87). -/
def timePending (s : State) : Bool := !(pendIn s 0x6000 0x6400).isEmpty

/-- The interval of R66 starts now, if none runs. -/
def startBuffer (s : State) : State :=
  match s.time.bufferEnd with
  | some _ => s
  | none => modTime (fun t => { t with bufferEnd := some (monoNs s + slotLenNs s) }) s

/-- R66: SLOT_RUN becomes 0: an armed start is cancelled, running slots stop at the end of the slot. Values that were pending for
the armed start begin their interval now. (DESIGN CHOICE, log 71) -/
def stopSlots (s : State) : State :=
  let s1 := fset 0 Fl.TIME_CTRL_SLOT_RUN 0 s
  match s.time.slots with
  | .stopped | .stopping => s1
  | .running => modTime (fun t => { t with slots := .stopping }) s1
  | .armed =>
    let s2 := modTime (fun t => { t with slots := .stopped }) s1
    if timePending s2 then startBuffer s2 else s2

/-- R83: TIDE_SRC. -/
def setTideSrc (on : Bool) (s : State) : State :=
  if on = fbit s 0 Fl.TIME_CTRL_TIDE_SRC then s
  else modTime (fun t => { t with tideLastPulse := none }) (fset 0 Fl.TIME_CTRL_TIDE_SRC (if on then 1 else 0) s)

/-- R65: the servo is cleared. -/
def clearServo (s : State) : State := modTime (fun t => { t with integ := 0, servoCorr := 0 }) s

/-- R59: NS takes TIME_LOAD and FRAC 0 at the next tick; MONO runs on; the PPS reference anchors again. -/
def loadClock (s : State) : State :=
  let v := (rd s Reg.TIME_LOAD_HI).toNat * 4294967296 + (rd s Reg.TIME_LOAD_LO).toNat
  modTime (fun t => { t with clock := BitVec.ofNat 80 (v * 4294967296), expected := none }) (elapse 1 s)

/-- R58: the snapshot of one tick. -/
def snapshot (s : State) : State :=
  let ns := nowNs s
  let off : Word := if slotsOn s then BitVec.ofNat 32 ((ns - s.time.slotStart).toNat % 2 ^ 27) else 0x7FFFFFF
  let w (k : Nat) (v : Nat) (t : State) : State := wr k (BitVec.ofNat 32 v) t
  w Reg.TIME_SNAP_MONO_HI (monoNs s >>> 32) <| w Reg.TIME_SNAP_MONO_LO (monoNs s) <|
  wr Reg.TIME_SNAP_SLOT_T off <| w Reg.TIME_SNAP_EPOCH s.time.name.epoch.toNat <|
  wr Reg.TIME_SNAP_RSN s.time.name.rsn.word <| w Reg.TIME_SNAP_FRAC s.time.clock.toNat <|
  w Reg.TIME_SNAP_NS_HI (ns.toNat >>> 32) <| w Reg.TIME_SNAP_NS_LO ns.toNat s

/-- The island takes a written TIME_CTRL (R58, R59, R61, R65, R66, R83): as a whole, or not at all (R460). Its actions run in this
order: SNAP, DISC, TIDE_SRC, SERVO_CLR, SLOT_RUN, LOAD; LOAD is checked against the written DISC and the slots before SLOT_RUN.
(DESIGN CHOICE, log 71) -/
def takeTimeCtrl (v : Word) (s : State) : State :=
  if timeCtrlWordOk v && timeCtrlOk s v then
    let s1 := if bitAt 6 v then snapshot s else s
    let s2 := setTideSrc (bitAt 3 v) (setDisc (bitsOf 2 1 v) s1)
    let s3 := if bitAt 4 v then clearServo s2 else s2
    let s4 := if bitAt 0 v then runSlots s3 else stopSlots s3
    if bitAt 5 v then loadClock s4 else s4
  else reject Reg.TIME_STATUS s

/-- TIME_CTRL as it stands, with the bits of `set` added and those of `clr` removed. -/
def timeCtrlWith (s : State) (set clr : Nat) : Word :=
  (rd s Reg.TIME_CTRL &&& ~~~(BitVec.ofNat 32 clr)) ||| BitVec.ofNat 32 set

/-- Meaning of DISC_CHANGE. -/
def execDiscChange (d : Fin 3) (s : State) : Host.Outcome State Fault Refusal :=
  act (fun t => takeTimeCtrl (timeCtrlWith t (d.val <<< 1) 6) t) s

/-- Meaning of TIDE_SRC_SELECT. -/
def execTideSrcSelect (on : Bool) (s : State) : Host.Outcome State Fault Refusal :=
  act (fun t => takeTimeCtrl (timeCtrlWith t (if on then 8 else 0) 8) t) s

/-- Meaning of SERVO_CLR. -/
def execServoClr (s : State) : Host.Outcome State Fault Refusal :=
  act (fun t => takeTimeCtrl (timeCtrlWith t 16 0) t) s

/-- Meaning of TIME_LOAD. -/
def execTimeLoad (s : State) : Host.Outcome State Fault Refusal :=
  act (fun t => takeTimeCtrl (timeCtrlWith t 32 0) t) s

/-- Meaning of TIME_SNAP. -/
def execTimeSnap (s : State) : Host.Outcome State Fault Refusal :=
  act (fun t => takeTimeCtrl (timeCtrlWith t 64 0) t) s

/-- Meaning of SLOT_RUN_START. -/
def execSlotRunStart (s : State) : Host.Outcome State Fault Refusal :=
  act (fun t => takeTimeCtrl (timeCtrlWith t 1 0) t) s

/-- Meaning of SLOT_RUN_STOP. -/
def execSlotRunStop (s : State) : Host.Outcome State Fault Refusal :=
  act (fun t => takeTimeCtrl (timeCtrlWith t 0 1) t) s

/-! ### Rate and phase -/

/-- R62: the island takes a written TIME_ADJ. -/
def takeTimeAdj (v : Word) (s : State) : State :=
  let rem := s.time.adjRem + v.toInt * 4294967296
  if disc s ≠ 2 ∧ rem.natAbs ≤ 1000000000 * 4294967296 then
    let s1 := wr Reg.TIME_ADJ v (modTime (fun t => { t with adjRem := rem }) s)
    if s.time.adjRem ≠ 0 ∧ rem = 0 then adjDone (nowNs s) s1 else s1
  else reject Reg.TIME_STATUS s

/-- Meaning of TIME_ADJ. -/
def execTimeAdj (v : Word) (s : State) : Host.Outcome State Fault Refusal := act (takeTimeAdj v) s

/-- R62: the slew runs to its end; with no remainder there is none. -/
def doAdjDone (s : State) : State := elapse (ticksToZero s) s

/-- Meaning of ADJ_DONE. -/
def execAdjDone (s : State) : Host.Outcome State Fault Refusal := act doAdjDone s

/-! ### Slot names -/

/-- Event 63 (R66, R88). -/
def slotsChanged (on : Bool) (s : State) : State :=
  raiseAux 63 (if on then 1 else 0) (s.time.name.rsn.word.toNat + s.time.name.epoch.toNat * 4294967296) s

/-- R70, R76, R77: the RSN and epoch advance by one slot. (DEDUCED, log 14) -/
def advanceSlot (s : State) : State :=
  let n := s.time.name
  if n.rsn = Rsn.last then
    if n.epoch = 0xFFFF then
      raise 56 0 (raise 55 0xFFFF (modTime (fun t => { t with name := ⟨n.epoch, Rsn.ofX 0⟩, epochSat := true }) s))
    else
      raise 55 (n.epoch.toNat + 1) (modTime (fun t => { t with name := ⟨n.epoch + 1, Rsn.ofX 0⟩ }) s)
  else modTime (fun t => { t with name := ⟨n.epoch, n.rsn.add 1⟩ }) s

/-- Whether a value of the TIME block applies at its boundary: loads not in mode TIDE (R68, R460). -/
def timeApplyOk (k : Nat) (_v : Word) (s : State) : Bool := k = Reg.TIME_INC || disc s ≠ 2

/-- A load of RSN and epoch is pending and not refused (R68). -/
def loadPending (s : State) : Bool :=
  disc s ≠ 2 && ((s.pend.has Reg.TIME_RSN_LOAD) || (s.pend.has Reg.TIME_EPOCH_LOAD))

/-- R68: RSN and epoch take the applied load. -/
def loadSlotName (s : State) : State :=
  match Rsn.ofWord (rd s Reg.TIME_RSN_LOAD) with
  | some r => modTime (fun t => { t with name := ⟨BitVec.ofNat 16 (rd s Reg.TIME_EPOCH_LOAD).toNat, r⟩, epochSat := false }) s
  | none => s

/-- R40, R66, R68: the TIME block's pending values apply; a load among them names the slot, else `other` does. -/
def applyTime (other : State → State) (s : State) : State :=
  let s1 := applyPending 0x6000 0x6400 Reg.TIME_STATUS timeApplyOk s
  let s2 := modTime (fun t => { t with bufferEnd := none }) s1
  if loadPending s then loadSlotName s2 else other s2

/-- The instant of the next slot start or of the stop instant (R66). -/
def nextSlotStart (s : State) : Instant :=
  match s.time.slots with
  | .armed => s.time.slotStart
  | _ => s.time.slotStart + BitVec.ofNat 48 (slotLenNs s)

/-- R66: the stop instant. -/
def doStopInstant (s : State) : State :=
  match s.time.slots with
  | .stopping =>
    let s1 := applyTime advanceSlot (elapseToNs (nextSlotStart s) s)
    slotsChanged false (modTime (fun t => { t with slots := .stopped, nextVirtual := monoNs s1 }) s1)
  | _ => s

/-- Meaning of STOP_INSTANT. -/
def execStopInstant (s : State) : Host.Outcome State Fault Refusal := act doStopInstant s

/-- R66: the interval ends while slots are stopped. -/
def doTimeBufferIntervalEnd (s : State) : State :=
  match s.time.bufferEnd with
  | some t => if slotsOn s then s else applyTime id (elapseToMono t s)
  | none => s

/-- Meaning of TIME_BUFFER_INTERVAL_END. -/
def execTimeBufferIntervalEnd (s : State) : Host.Outcome State Fault Refusal := act doTimeBufferIntervalEnd s

/-- R58: a read of a register that reaches it; `k` has the read's own effect. (DEDUCED, log 9) -/
def hostReadWith (f off : Nat) (k : State → State) (s : State) : State :=
  if hostReady s f then
    match reach s f off .word with
    | .err c => busError f off true .word c s
    | .reg _ _ _ => k s
  else s

/-- R58: a read of TIME_RSN latches the epoch for its function. (DEDUCED, log 15) -/
def doTimeRsnRead (f : Nat) (s : State) : State :=
  hostReadWith f Reg.TIME_RSN (fun t =>
    emit (.readData f Reg.TIME_RSN t.time.name.rsn.word)
      (modTime (fun x => { x with epochLatch := x.epochLatch.put f x.name.epoch }) t)) s

/-- Meaning of TIME_RSN_READ. -/
def execTimeRsnRead (f : Fn) (s : State) : Host.Outcome State Fault Refusal := act (doTimeRsnRead f.val) s

/-- The outputs of the converter (R71). -/
def convOutputs (n : SlotName) (asn : Nat) (epoch x : Nat) (s : State) : State :=
  let w (k : Nat) (v : Nat) (t : State) : State := wr k (BitVec.ofNat 32 v) t
  fset 0 Fl.TIME_STATUS_CONV_VALID 1 <|
  w Reg.TIME_CONV_OUT_ASN_HI (asn >>> 32) <| w Reg.TIME_CONV_OUT_ASN_LO asn <| w Reg.TIME_CONV_OUT_X x <|
  w Reg.TIME_CONV_OUT_EPOCH (epoch % 65536) <| wr Reg.TIME_CONV_OUT_RSN n.rsn.word s

/-- R71: the island takes a written TIME_CONV_CTRL. -/
def takeTimeConv (v : Word) (s : State) : State :=
  let lo := rd s Reg.TIME_CONV_IN_LO
  let hi := (rd s Reg.TIME_CONV_IN_HI).toNat
  let s1 := fset 0 Fl.TIME_CONV_CTRL_DIR (bitsOf 0 0 v) s
  if !bitAt 31 v then s1
  else if bitAt 0 v then
    let asn := hi % 256 * 4294967296 + lo.toNat
    let x := asn % slotsPerEpoch
    convOutputs ⟨BitVec.ofNat 16 (asn / slotsPerEpoch), Rsn.ofX x⟩ asn (asn / slotsPerEpoch) x s1
  else
    match Rsn.ofWord lo with
    | none => reject Reg.TIME_STATUS s
    | some r =>
      let n : SlotName := ⟨BitVec.ofNat 16 hi, r⟩
      convOutputs n n.asn hi r.toX s1

/-- Meaning of TIME_CONV. -/
def execTimeConv (v : Word) (s : State) : Host.Outcome State Fault Refusal := act (takeTimeConv v) s

/-! ### Triggers -/

/-- Trigger `k`. -/
def getTrig (s : State) (k : Nat) : TrigS := s.time.trigs.getD k ⟨none, none⟩

/-- Trigger `k` changed. -/
def modTrig (k : Nat) (g : TrigS → TrigS) (s : State) : State := modTime (fun t => { t with trigs := t.trigs.modify k g }) s

/-- The modulus that a SLOT trigger follows, and its residue in a slot (R81). -/
def trigModulus (s : State) (k : Nat) (r : Rsn) : Nat × Nat :=
  match fget s (0x20 * k) Fl.TIME_TRIG_SEL_MOD with
  | 0 => (256, r.r256.val)
  | 1 => (255, r.r255.val)
  | 2 => (253, r.r253.val)
  | _ => (251, r.r251.val)

/-- The slot-relative time of a SLOT trigger in ns (R81). -/
def trigOffset (s : State) (k : Nat) : Nat := (rd s (0x20 * k + Reg.TIME_TRIG_AT_LO)).toNat % 2 ^ 27

/-- The width of trigger `k`'s pulse in ns (R81). -/
def trigWidth (s : State) (k : Nat) : Nat := bitsOf 19 0 (rd s (0x20 * k + Reg.TIME_TRIG_WIDTH))

/-- R81: a trigger's configuration is one that the island takes. -/
def trigOk (s : State) (k : Nat) : Bool :=
  let base := 0x20 * k
  let width := trigWidth s k
  let period := (rd s (base + Reg.TIME_TRIG_PERIOD)).toNat
  let l := fget s base Fl.TIME_TRIG_SEL_L
  (25 ≤ width && width ≤ 1000000) &&
  match fget s base Fl.TIME_TRIG_CFG_MODE with
  | 2 => 1000 ≤ period && width < period
  | 3 =>
    l ≠ 0 && (trigModulus s k ⟨0, 0, 0, 0⟩).1 % l = 0 && fget s base Fl.TIME_TRIG_SEL_O < l && trigOffset s k < slotLenNs s
  | _ => true

/-- The instant in TIME_TRIGk_AT (R81). -/
def trigAt (s : State) (k : Nat) : Instant :=
  BitVec.ofNat 48 ((rd s (0x20 * k + Reg.TIME_TRIG_AT_HI)).toNat * 4294967296 + (rd s (0x20 * k + Reg.TIME_TRIG_AT_LO)).toNat)

/-- R81: a leading edge is missed: counted, event 61. (DEDUCED, log 16) -/
def trigMissed (k : Nat) (s : State) : State := raise 61 k (bump 0 Ct.TIME_TRIG_MISS s)

/-- Edges of a period of `p` ns whose first lies `ahead` ns on that lie before `t` ns from now. -/
def edgesBefore (ahead t : Int) (p : Nat) : Nat := if t ≤ ahead then 0 else ((t - ahead).toNat + p - 1) / p

/-- R81: the edges that a PERIODIC configuration misses: those of the next 10 µs, and its first where that lies behind.
(DEDUCED, log 16) (DEDUCED, log 72) -/
def edgesMissed (ahead : Int) (p : Nat) : Nat :=
  edgesBefore ahead 10000 p - edgesBefore ahead 0 p + (if ahead < 0 then 1 else 0)

/-- R81: the leading edges of an applied configuration are placed; each less than 10 µs ahead is missed, and a PERIODIC trigger
resumes at its first later edge at least 10 µs ahead. -/
def placeTrig (k : Nat) (s : State) : State :=
  let first := trigAt s k
  let ahead := instantDiff (nowNs s) first
  match fget s (0x20 * k) Fl.TIME_TRIG_CFG_MODE with
  | 0 => modTrig k (fun _ => ⟨none, none⟩) s
  | 1 =>
    if ahead < 10000 then trigMissed k (modTrig k (fun t => { t with next := none }) s)
    else modTrig k (fun t => { t with next := some first }) s
  | 2 =>
    let p := (rd s (0x20 * k + Reg.TIME_TRIG_PERIOD)).toNat
    let s1 := modTrig k (fun t => { t with next := some (first + BitVec.ofNat 48 (edgesBefore ahead 10000 p * p)) }) s
    forBelow (edgesMissed ahead p) (fun _ => trigMissed k) s1
  | _ => modTrig k (fun t => { t with next := none }) s

/-- R81: the island takes a word for one of trigger `k`'s registers: the configuration it makes is applied, or rejected. -/
def takeTrig (k key : Nat) (v : Word) (s : State) : State :=
  let s1 := storeKey key v s
  if trigOk s1 k then placeTrig k s1 else reject Reg.TIME_STATUS s

/-- Meaning of TRIG_CONFIG. -/
def execTrigConfig (k : Fin 8) (v : Word) (s : State) : Host.Outcome State Fault Refusal :=
  act (takeTrig k.val (0x20 * k.val + Reg.TIME_TRIG_CFG) v) s

/-- R81: a leading edge at instant `at0`: the pulse is active, event 62 when CFG.EVENT is 1. -/
def trigEdge (k : Nat) (at0 : Instant) (next : Option Instant) (s : State) : State :=
  let s1 := modTrig k (fun _ => ⟨some at0, next⟩) (elapseToNs at0 s)
  if fbit s (0x20 * k) Fl.TIME_TRIG_CFG_EVENT then raiseOcc ⟨62, false, BitVec.ofNat 32 k, noNode, at0, 0, false⟩ s1 else s1

/-- The leading edge of a SLOT trigger in the current slot, where its residue asks for one (R81). (DEDUCED, log 16) -/
def trigSlotEdge (s : State) (k : Nat) : Option Instant :=
  let r := (trigModulus s k s.time.name.rsn).2
  let l := fget s (0x20 * k) Fl.TIME_TRIG_SEL_L
  if slotsOn s ∧ r % l = fget s (0x20 * k) Fl.TIME_TRIG_SEL_O then
    some (s.time.slotStart + BitVec.ofNat 48 (trigOffset s k))
  else none

/-- R81: trigger `k`'s next leading edge, where one is due. -/
def doTrigFired (k : Nat) (s : State) : State :=
  match fget s (0x20 * k) Fl.TIME_TRIG_CFG_MODE, (getTrig s k).next with
  | 1, some t => trigEdge k t none s
  | 2, some t => trigEdge k t (some (t + BitVec.ofNat 48 (rd s (0x20 * k + Reg.TIME_TRIG_PERIOD)).toNat)) s
  | 3, last =>
    match trigSlotEdge s k with
    | some t => if last = some t then s else trigEdge k t (some t) s
    | none => s
  | _, _ => s

/-- Meaning of TRIG_FIRED. -/
def execTrigFired (k : Fin 8) (s : State) : Host.Outcome State Fault Refusal := act (doTrigFired k.val) s

/-- R81: WIDTH ns after its leading edge the pulse ends. -/
def doTrigPulseEnd (k : Nat) (s : State) : State :=
  match (getTrig s k).active with
  | some t =>
    modTrig k (fun x => { x with active := none })
      (elapseToNs (t + BitVec.ofNat 48 (trigWidth s k)) s)
  | none => s

/-- Meaning of TRIG_PULSE_END. -/
def execTrigPulseEnd (k : Fin 8) (s : State) : Host.Outcome State Fault Refusal := act (doTrigPulseEnd k.val) s

/-! ### Captures -/

/-- Capture input `c`. -/
def getCapt (s : State) (c : Nat) : CaptS := s.time.capts.getD c ⟨[], none⟩

/-- Capture input `c` changed. -/
def modCapt (c : Nat) (g : CaptS → CaptS) (s : State) : State := modTime (fun t => { t with capts := t.capts.modify c g }) s

/-- R82: EDGE selects this edge. -/
def captSelects (s : State) (c : Nat) (rising : Bool) : Bool :=
  (fget s (0x10 * c) Fl.TIME_CAPT_CFG_EDGE).testBit (if rising then 0 else 1)

/-- R82: a trigger's pulse holds input `c`'s window open. -/
def captWindow (s : State) (c : Nat) : Bool :=
  (List.range 8).any fun k =>
    fbit s (0x20 * k) Fl.TIME_TRIG_CFG_WIN_EN && fget s (0x20 * k) Fl.TIME_TRIG_CFG_WIN_CAPT = c && (getTrig s k).active.isSome

/-- R82, R88: an event of capture input `c`, with the edge's instant. -/
def raiseCapt (code c : Nat) (cap : Instant) (s : State) : State :=
  raiseOcc ⟨code, false, BitVec.ofNat 32 c, noNode, cap, 0, false⟩ s

/-- R82: an edge on CAPT_c, `sub` ns after the last tick. -/
def doCapture (c : Nat) (rising : Bool) (sub : Nat) (s : State) : State :=
  let cap := nowNs s + BitVec.ofNat 48 sub
  if captSelects s c rising && (!fbit s (0x10 * c) Fl.TIME_CAPT_CFG_WINDOWED || captWindow s c) then
    if 16 ≤ (getCapt s c).fifo.length then raiseCapt 60 c cap (bump 0 Ct.TIME_CAPT_OVF s)
    else
      let s1 := modCapt c (fun x => { x with fifo := x.fifo ++ [⟨cap, rising⟩] }) s
      if fbit s (0x10 * c) Fl.TIME_CAPT_CFG_EVENT then raiseCapt 59 c cap s1 else s1
  else s

/-- Meaning of CAPTURE. -/
def execCapture (c : Fin 4) (rising : Bool) (sub : Fin 25) (s : State) : Host.Outcome State Fault Refusal :=
  act (doCapture c.val rising sub.val) s

/-- R82: a read of TIME_CAPTn_LO latches the oldest entry. -/
def doCaptLoRead (f c : Nat) (s : State) : State :=
  hostReadWith f (0x10 * c + Reg.TIME_CAPT_LO) (fun t =>
    let e := (getCapt t c).fifo.head?
    let w : Word := match e with
      | some x => BitVec.ofNat 32 x.ns.toNat
      | none => 0
    emit (.readData f (0x10 * c + Reg.TIME_CAPT_LO) w) (modCapt c (fun x => { x with latched := e }) t)) s

/-- Meaning of CAPT_LO_READ. -/
def execCaptLoRead (f : Fn) (c : Fin 4) (s : State) : Host.Outcome State Fault Refusal := act (doCaptLoRead f.val c.val) s

/-- The word of TIME_CAPTn_HI for a latched entry and the entries left (R87). -/
def captHiWord (e : Option CaptEntry) (left : Nat) : Word :=
  match e with
  | some x => BitVec.ofNat 32 ((x.ns.toNat >>> 32) + (if x.rising then 65536 else 0) + 131072 + left * 262144)
  | none => BitVec.ofNat 32 (left * 262144)

/-- R82: a read of TIME_CAPTn_HI returns the rest of the latched entry and removes it. -/
def doCaptHiRead (f c : Nat) (s : State) : State :=
  hostReadWith f (0x10 * c + Reg.TIME_CAPT_HI) (fun t =>
    let x := getCapt t c
    let rest := if x.latched.isSome then x.fifo.tail else x.fifo
    emit (.readData f (0x10 * c + Reg.TIME_CAPT_HI) (captHiWord x.latched rest.length))
      (modCapt c (fun _ => ⟨rest, none⟩) t)) s

/-- Meaning of CAPT_HI_READ. -/
def execCaptHiRead (f : Fn) (c : Fin 4) (s : State) : Host.Outcome State Fault Refusal := act (doCaptHiRead f.val c.val) s

/-! ### Tide link -/

/-- REF_STATE's code (R87). -/
def RefState.code : RefState → Nat
  | .none => 0
  | .acquiring => 1
  | .locked => 2
  | .holdover => 3

/-- R84: one bit of the CRC-8 x^8 + x^2 + x + 1, most significant bit first. -/
def crc8Step (c : Byte) : Byte := if c.getLsbD 7 then (c <<< 1) ^^^ 0x07 else c <<< 1

/-- R84: the CRC-8 of octets, from 0. -/
def crc8 (octets : List Byte) : Byte :=
  octets.foldl (fun c x => (List.range 8).foldl (fun d _ => crc8Step d) (c ^^^ x)) 0

/-- R84: octets 1 to 22 of the message of a pulse at this tick. -/
def tideFields (s : State) : List Byte :=
  let t := s.time
  let offs := if slotsOn s then (nowNs s - t.slotStart).toNat else 0
  leBytes 1 ((if slotsOn s then 1 else 0) + 2 * t.ref.code) ++ [t.tideSeq] ++ leBytes 6 (nowNs s).toNat ++ leBytes 4 offs ++
    leBytes 4 t.name.rsn.word.toNat ++ leBytes 2 t.name.epoch.toNat ++ leBytes 3 (fget s 0 Fl.TIME_SLOT_LEN_LEN) ++ [0]

/-- R84: the 24 octets of a message with these fields. -/
def tideFrame (fields : List Byte) : List Byte := 0xA5 :: fields ++ [crc8 fields]

/-- R83, R84: the pulse, and its message from 2 µs after the edge. -/
def tideSend (s : State) : State :=
  let octets := tideFrame (tideFields s)
  emit (.tide (monoNs s + 2000) octets)
    (modTime (fun x => { x with tideSeq := x.tideSeq + 1, tideLastPulse := some (monoNs s), tideOctets := octets }) s)

/-- R83: a tide source's next pulse, PERIOD_MS after the last; the first after TIDE_SRC was set comes without a wait.
(DESIGN CHOICE, log 71) -/
def doTidePulse (s : State) : State :=
  if fbit s 0 Fl.TIME_CTRL_TIDE_SRC ∧ s.claim.st ≠ .diag then
    tideSend (match s.time.tideLastPulse with
      | some t => elapseToMono (t + 1000000 * fget s 0 Fl.TIME_TIDE_CFG_PERIOD_MS) s
      | none => s)
  else s

/-- Meaning of TIDE_PULSE. -/
def execTidePulse (s : State) : Host.Outcome State Fault Refusal := act doTidePulse s

/-- R84, R85: a received message as a follower reads it; none where its SYNC or CRC is wrong. (DEDUCED, log 72) -/
def tideParse (octets : List Byte) : Option TideMsg :=
  let fields := (octets.drop 1).take 22
  let num (off n : Nat) : Nat := ofLeBytes ((octets.drop off).take n)
  if octets.length = 24 ∧ octets.head? = some 0xA5 ∧ octets.getLast? = some (crc8 fields) then
    some {
      slots := bitAt 0 (BitVec.ofNat 32 (num 1 1))
      time := BitVec.ofNat 48 (num 3 6)
      slotT := num 9 4
      name := (Rsn.ofWord (BitVec.ofNat 32 (num 13 4))).map fun r => ⟨BitVec.ofNat 16 (num 17 2), r⟩
      slotLen := num 19 3 }
  else none

/-- The slot that contains an instant at most one slot before or in the current slot (R85). -/
def slotAt (s : State) (t : Instant) : SlotName :=
  if instantDiff s.time.slotStart t < 0 then s.time.name.subSlots 1 else s.time.name

/-- R85: the message names another slot than the follower's own at the pulse. -/
def tideMismatch (s : State) (cap : Instant) (m : TideMsg) : Bool :=
  slotsOn s && (m.name ≠ some (slotAt s cap) || m.slotLen ≠ fget s 0 Fl.TIME_SLOT_LEN_LEN)

/-- R85: a bad message; the third in a row puts the follower into holdover. (DEDUCED, log 16) -/
def tideBad (reason : Nat) (cap : Instant) (e : Int) (s : State) : State :=
  let s1 := raiseEdge 54 reason cap e (bump 0 Ct.TIME_TIDE_BAD s)
  let s2 := modTime (fun t => { t with rejRun := t.rejRun + 1, goodRun := 0 }) s1
  if s2.time.rejRun = 3 then holdRate (refInterval s) (modTime (fun t => { t with ref := .holdover }) s2) else s2

/-- R85: NS steps by −e. -/
def stepClock (e : Int) (s : State) : State :=
  modTime (fun t => { t with clock := t.clock + BitVec.ofInt 80 (-e * 4294967296) }) s

/-- R85: the follower adopts the source's slot timing; an armed start takes the next adopted slot start. -/
def tideAdopt (m : TideMsg) (name : SlotName) (s : State) : State :=
  let a : TideAdopt := ⟨m.slotLen, m.time - BitVec.ofNat 48 m.slotT, name⟩
  let s1 := modTime (fun t => { t with adopted := some a, name := name }) (fset 0 Fl.TIME_SLOT_LEN_LEN m.slotLen s)
  match s.time.slots with
  | .armed => modTime (fun t => { t with slotStart := (adoptedStart s1 a).1, name := (adoptedStart s1 a).2 }) s1
  | _ => s1

/-- R85 lock: eight consecutive pulses within 50 ns; a valid pair of a follower that is not locked sets REF_STATE to acquiring,
out of holdover too. (DEDUCED, log 16) (DEDUCED, log 72) -/
def tideRuns (cap : Instant) (e : Int) (s : State) : State :=
  let t := s.time
  let good := if e.natAbs ≤ 50 then t.goodRun + 1 else 0
  let ref := match t.ref with
    | .locked => RefState.locked
    | _ => if 8 ≤ good then .locked else .acquiring
  let s1 := modTime (fun x => { x with goodRun := good, rejRun := 0, ref := ref }) s
  if t.ref ≠ .locked ∧ ref = .locked then raiseEdge 52 0 cap e s1 else s1

/-- R85: a valid pair with error `e`. While slots run, an error outside the window is what is left to slew, whatever an earlier pulse
left. (DEDUCED, log 16) (DEDUCED, log 72) -/
def tideValid (first : Bool) (cap : Instant) (e : Int) (m : TideMsg) (s : State) : State :=
  let big := fget s 0 Fl.TIME_PPS_CFG_WINDOW_NS < e.natAbs
  let s1 :=
    if slotsOn s then
      if big then modTime (fun t => { t with adjRem := -e * 4294967296 }) s else servoUpdate cap e s
    else
      let s0 := if first || big then stepClock e s else servoUpdate cap e s
      match m.name with
      | some n => if m.slots then tideAdopt m n s0 else s0
      | none => s0
  tideRuns cap e s1

/-- R85: expected_ns of a message. -/
def tideExpected (s : State) (m : TideMsg) : Instant := m.time + BitVec.ofInt 48 (fint s 0 Fl.TIME_TIDE_CFG_DELAY_NS)

/-- R85: a follower pairs a capture with its message; of a message that cannot be read event 54 carries e = 0.
(DESIGN CHOICE, log 71) -/
def doTidePair (cap : Instant) (octets : List Byte) (s : State) : State :=
  if disc s = 2 then
    match tideParse octets with
    | none => tideBad 0 cap 0 s
    | some m =>
      let x := tideExpected s m
      let e := instantDiff x cap
      let s1 := wr Reg.TIME_REF_ERR (BitVec.ofInt 32 e) s
      if tideMismatch s cap m then tideBad 1 cap e s1
      else
        tideValid s.time.expected.isNone cap e m
          (modTime (fun t => { t with expected := some x, lastRefMono := monoNs s, tideLostTold := false }) s1)
  else s

/-- Meaning of TIDE_PAIR. -/
def execTidePair (cap : Instant) (octets : List Byte) (s : State) : Host.Outcome State Fault Refusal := act (doTidePair cap octets) s

/-- R85 loss: no valid pair for three periods. (DEDUCED, log 72) -/
def doTideLost (s : State) : State :=
  if disc s = 2 ∧ s.time.tideLostTold = false then
    let s1 := elapseToMono (s.time.lastRefMono + 3 * refInterval s) s
    raiseAux 53 0 (lastErr s) (holdRate (refInterval s) (modTime (fun t => { t with ref := .holdover, tideLostTold := true }) s1))
  else s

/-- Meaning of TIDE_LOST. -/
def execTideLost (s : State) : Host.Outcome State Fault Refusal := act doTideLost s

/-! ### Posted writes of the block -/

/-- Whether the island takes a plain value of this register now (R66). -/
def timePlainOk (s : State) (key : Nat) : Bool :=
  if key = Reg.TIME_SLOT_LEN then s.time.slots = .stopped
  else if key = Reg.TIME_START_LO ∨ key = Reg.TIME_START_HI then s.time.slots ≠ .armed
  else true

/-- The TIME island takes a posted value (R37 to R40, R460 stage 2). -/
def takeTime (key : Nat) (v : Word) (s : State) : State :=
  if key = Reg.TIME_CTRL then takeTimeCtrl v s
  else if key = Reg.TIME_ADJ then takeTimeAdj v s
  else if key = Reg.TIME_CONV_CTRL then takeTimeConv v s
  else if key = Reg.TIME_INC ∨ key = Reg.TIME_RSN_LOAD ∨ key = Reg.TIME_EPOCH_LOAD then
    let s1 := pendPut key v s
    if s.time.slots = .stopped then startBuffer s1 else s1
  else if Reg.TIME_TRIG_CFG ≤ key ∧ key < Reg.TIME_PATH_RX then takeTrig ((key - Reg.TIME_TRIG_CFG) / 0x20) key v s
  else if timePlainOk s key then storeKey key v s
  else reject Reg.TIME_STATUS s

end Sys2Proof.Machine
end

