-- ==== Sys2Proof/Machine/Rings.lean ====
section
/-!
DEFINITION. The host side (R261 to R296, R46 to R50): descriptors from fetch to completion, DMA jobs and their faults, the
doorbell and status blocks, return entries and the holding queue, event entries, and the control of rings and functions.
-/

namespace Sys2Proof.Machine

/-! ### States of functions -/

/-- The function's fetches are stopped: by the holding queue, or because all 16 records are valid (R282, R288). -/
def fnPaused (s : State) (f : Nat) : Bool := (getFn s f).backPaused || recordsFull s f

/-- RING_FN_STATE of a function (R294); an FLR is one step, so that state 4 is never seen. (DEDUCED, log 45) -/
def fnState (s : State) (f : Nat) : Nat :=
  if (getFn s f).quiesced then 3
  else if fnPaused s f then 2
  else if (List.range 8).any fun r => ringEn s f r then 1
  else 0

/-! ### Address translation -/

/-- A cached range covers a page of a function (R279). -/
def AtcEnt.covers (e : AtcEnt) (f page : Nat) : Bool := e.fn = f && e.page ≤ page && page < e.page + 2 ^ e.span

/-- A function's page is no longer cached. -/
def forget (f page : Nat) (s : State) : State :=
  modPort (portOf f) (fun q => { q with atc := q.atc.filter fun e => !e.covers f page }) s

/-- R279: a translation of a page on the function's port: a hit moves its range to the front of the cache, a miss asks the host and
brings in the range that it answers. (DESIGN CHOICE, log 77) -/
def translate (f page : Nat) (s : State) : State :=
  if !(getFn s f).ats then s
  else
    match (getPort s (portOf f)).atc.find? fun e => e.covers f page with
    | some e => bump (fb f) Ct.XLATE_ATC_HIT (modPort (portOf f) (fun q => { q with atc := e :: q.atc.erase e }) s)
    | none =>
      let span := (Config.freeValue s.draws).toNat % 53
      let e : AtcEnt := ⟨f, page / 2 ^ span * 2 ^ span, span⟩
      emit (.translationRequest f page) (bump (fb f) Ct.XLATE_ATC_MISS
        (modPort (portOf f) (fun q => { q with atc := (e :: q.atc).take 1024 }) (advanceDraws s)))

/-! ### Octets to host memory -/

/-- Octets cut at the multiples of `b` of their address: the address and the octets of each piece, `n` pieces at most. -/
def piecesOf (b : Nat) : Nat → Nat → List Byte → List (Nat × List Byte)
  | 0, _, _ => []
  | _ + 1, _, [] => []
  | n + 1, at0, o :: os => (at0, (o :: os).take (b - at0 % b)) :: piecesOf b n (at0 + (b - at0 % b)) ((o :: os).drop (b - at0 % b))

/-- The TLPs of a write by function `f` (R261): pieces of Max_Payload_Size. -/
def tlpsOf (s : State) (f at0 : Nat) (octets : List Byte) : List (Nat × List Byte) :=
  piecesOf (getFn s f).maxPayload octets.length at0 octets

/-- A sling of a write is issued (R277), with its poison (R286). (DESIGN CHOICE, log 11) -/
def sendWrite (f at0 : Nat) (octets : List Byte) (poisoned : Bool) (s : State) : State :=
  (tlpsOf s f at0 octets).foldl (fun t p => emit (.hostWrite f p.1 p.2 poisoned) t) s

/-! ### The status block -/

/-- R268: a status block write becomes due, unless the function is quiesced or has no block. -/
def writeStatus (f : Nat) (s : State) : State :=
  if (getFn s f).quiesced || !bitAt 0 (rd s (fb f + Reg.RING_SB_LO)) then s
  else modFn f (fun x => { x with statusDue := true }) s

/-- The function enters or leaves PAUSED: counted, and the status block written (R268, R294). -/
def pauseChange (f : Nat) (before : Bool) (s : State) : State :=
  if fnPaused s f = before then s
  else if before then writeStatus f s
  else writeStatus f (bump (fb f) Ct.RING_PAUSE s)

/-! ### The holding queue -/

/-- R288: an entry goes to the holding queue, or is lost when it is full. -/
def holdEntry (f c : Nat) (e : Entry) (s : State) : State :=
  let n := (getFn s f).held.length
  if 1024 ≤ n then loseEntries f 1 s
  else
    let was := fnPaused s f
    let s1 := modFn f (fun x => { x with held := x.held ++ [(c, e)] }) s
    let s2 := if n = 0 then raiseAux (218 + 4 * f) 0 0 s1 else s1
    if n + 1 = 512 then pauseChange f was (raise (218 + 4 * f) 1 (modFn f (fun x => { x with backPaused := true }) s2)) else s2

/-- R291: the last held entry of a re-enabled ring has been written: event 219 + 4f with RESULT 2. -/
def caughtUp (f c : Nat) (s : State) : State :=
  match (getRing s f c).catching with
  | some n =>
    let s1 := modRing f c (fun x => { x with catching := some (n + 1) }) s
    if (getFn s f).held.any fun p => p.1 = c then s1
    else raiseAux (219 + 4 * f) 2 (c + (n + 1) * 4294967296) (modRing f c (fun x => { x with catching := none }) s1)
  | none => s

/-! ### Fetching and starting descriptors -/

/-- A fetched descriptor by its ring and number, removed. -/
def dropDesc (f r i : Nat) (s : State) : State :=
  modRing f r (fun g => { g with descs := g.descs.filter fun y => y.index ≠ i }) s

/-- What tells a payload gather from the others of its function (R354). -/
def gatherKey (r i : Nat) : Nat := i * 8 + r

/-- The number of the descriptor at a ring index (R275). -/
def RingS.number (g : RingS) (i : Word) : Nat := g.lap * 2 ^ 32 + i.toNat

/-- The ring index of a descriptor's number. -/
def indexOf (n : Nat) : Word := BitVec.ofNat 32 n

/-- The staging descriptors (R396). -/
def DescS.staging (x : DescS) : Bool := x.op = opFwOpen || x.op = opFwChunk || x.op = opFwClose

/-- R396: a staging descriptor of the lease's holder completes, and the lease runs 120 s from now. -/
def leaseTouch (f : Nat) (x : DescS) (s : State) : State :=
  if x.staging then
    { s with fw := { s.fw with lease := s.fw.lease.map fun l =>
      if l.holder = f then { l with untilMono := monoNs s + 120000000000 } else l } }
  else s

/-- A completion's entry is produced (R269, R275): counted, and none for QUIET_OK with OK. -/
def postDone (f : Nat) (x : DescS) (d : Done) (s : State) : State :=
  let s1 := leaseTouch f x (bump (fb f) Ct.RING_DESC s)
  if x.quietOk && d.status = stOk then s1 else produce f (returnRing x.ring) (d.entry x.tag x.op false s) s1

/-- AUX of ABORTED: the bytes moved (R273). -/
def abortDone (moved : Nat) : Done := { status := stAborted, aux := moved }

/-- AUX of FAULT: OFFSET, SITE and KIND (R273). -/
def faultAux (offset site kind : Nat) : Nat := offset % 4294967296 + site * 4294967296 + kind * 34359738368

/-- A job for a descriptor's buffer. -/
def bufJob (f : Nat) (x : DescS) (what : JobWhat) (addr total : Nat) (write : Bool) (octets : List Byte) (poisoned : Bool) : Job :=
  ⟨f, what, x.jobClass, addr, total, 0, write, octets, poisoned, false, none, false, 0⟩

/-- The class of a descriptor's answer (R277): a response buffer write is class 1. -/
def DescS.answerClass (x : DescS) : Nat := if x.ring < 2 then 1 else x.jobClass

/-- The opcodes that the maquette alone serves (R391); receive buffers are posted to no engine. -/
def recoveryOp (x : DescS) : Bool := x.ring = 3 || x.op = opNop || x.staging || x.op = opAttest

/-- Services run (R225). -/
def svcOn (s : State) : Bool := fbit s 0 Fl.SVC_CTRL_EN

/-- A descriptor of the service engine (R225). -/
def DescS.service (x : DescS) : Bool := x.op = opMsgSend || x.op = opMsgGroup || x.op = opDgram || x.op = opRaw

/-- The service engine takes descriptors: services run (R225) and the output gate is open (R372). -/
def sendOn (s : State) : Bool := svcOn s && gateOpen s

/-- The device completes the descriptor with REJECTED_POLICY: a service's while services do not run (R225), and a service's or a
CAMPAIGN_START while the output gate is closed (R372). (DEDUCED, log 56) -/
def sendShut (s : State) (x : DescS) : Bool := (x.service && !sendOn s) || (x.op = opCampStart && !gateOpen s)

/-- The status of a descriptor that ends before its engine takes it (R225, R372). -/
def earlyStatus (s : State) (x : DescS) (status : Nat) : Nat := if sendShut s x then stRejected else status

/-- A descriptor that is ready reaches its engine: a TABLE_OP the table engine (R217), an ATTEST_REQ the plinth (R336). -/
def reachEngine (f : Nat) (x : DescS) (s : State) : State :=
  if x.op = opTable then { s with tables := { s.tables with cmdq := s.tables.cmdq ++ [.desc f x.index] } }
  else if x.op = opAttest then { s with fw := { s.fw with attests := s.fw.attests ++ [(f, x.index)] } }
  else s

/-- A descriptor starts (R269, R270, R286, R391): it is checked, and its gather begins, or it is ready for its engine. -/
def startOne (f : Nat) (x : DescS) (s : State) : State :=
  if !x.wellFormed s then postDone f x { status := earlyStatus s x stBadDesc } (dropDesc f x.ring x.index s)
  else if !opAllowed s f x.op || (s.fw.mode = 2 && !recoveryOp x) then postDone f x { status := stRejected } (dropDesc f x.ring x.index s)
  else if x.gatherLen = 0 then reachEngine f x (modDesc f x.ring x.index (fun y => { y with phase := .ready }) s)
  else
    addJob (bufJob f x (.gather x.ring x.index) x.bufAddr x.gatherLen false [] false)
      (modDesc f x.ring x.index (fun y => { y with phase := .gather }) s)

/-- A waiting descriptor may start: in ring order, and with ORDERED only as the ring's first (R269). -/
def mayStart (s : State) (f : Nat) (x : DescS) : Bool :=
  ((getRing s f x.ring).descs.takeWhile fun y => y.index ≠ x.index).all fun y => !x.ordered && y.phase ≠ .waiting

/-- Every waiting descriptor of a ring that may start does (R269); none while all 16 fault records are valid (R282). -/
def startRing (f r : Nat) (s : State) : State :=
  ((getRing s f r).descs.filter fun x => x.phase = .waiting).foldl
    (fun t x => if mayStart t f x && !recordsFull t f then startOne f x t else t) s

/-- A fetch of ring `r`'s next descriptor becomes ready, where the ring may fetch (R265, R282, R283, R288, R290, R406). -/
def fetchMore (f r : Nat) (s : State) : State :=
  let g := getRing s f r
  let flush := match g.flushTo with
    | some t => g.head ≠ t
    | none => false
  if ringOn s f r && serving s && !g.fetching && g.head ≠ g.tail && (fetchFault s f r).isNone && (!fnPaused s f || flush) then
    addJob ⟨f, .fetch r (g.number g.head), if r = 0 then 0 else 1, ringBase s f r + g.head.toNat % ringSize s f r * 64, 64, 0, false, [],
      false, false, none, false, 0⟩ (modRing f r (fun x => { x with fetching := true }) s)
  else s

/-- All submission rings of a function fetch and start what they may. -/
def fetchAll (f : Nat) (s : State) : State := forBelow 4 (fun r t => fetchMore f r (startRing f r t)) s

/-- A descriptor completes (R269, R275), and descriptors behind it may start; a diagnosed unit completes none (R376). -/
def finishDesc (f r i : Nat) (d : Done) (s : State) : State :=
  match findDesc s f r i with
  | none => s
  | some x => if s.claim.st = .diag then s else startRing f r (postDone f x d (dropDesc f r i s))

/-- A descriptor's answer is written to host memory first, then it completes (R283 SITE 3). -/
def respond (f r i : Nat) (addr : Nat) (octets : List Byte) (poisoned : Bool) (d : Done) (s : State) : State :=
  match findDesc s f r i with
  | none => s
  | some x =>
    if octets.isEmpty then finishDesc f r i d s
    else
      addJob { bufJob f x (.respond r i (d.entry x.tag x.op false s) d.ts.isSome) addr octets.length true octets poisoned with
        cls := x.answerClass }
        (modDesc f r i (fun y => { y with phase := .respond }) s)

/-- The oldest descriptor of a ring that is ready for its engine with one of these opcodes. -/
def readyDesc (s : State) (f r : Nat) (ok : DescS → Bool) : Option DescS :=
  (getRing s f r).descs.find? fun x => x.phase = .ready && ok x

/-- A descriptor is with its engine. -/
def toEngine (f : Nat) (x : DescS) (s : State) : State := modDesc f x.ring x.index (fun y => { y with phase := .engine }) s

/-- A record is freed, and what waited for a free record goes on (R282). -/
def freeRecord (f i : Nat) (s : State) : State :=
  let was := fnPaused s f
  fetchAll f (pauseChange f was (setFault f i none s))

/-- The record of a doorbell read or status block write clears itself once one has succeeded (R283 SITE 0, SITE 6). -/
def clearSite (f : Nat) (what : JobWhat) (s : State) : State :=
  match faultAt s f (fun w => w = what) with
  | some i => freeRecord f i s
  | none => s

/-! ### Status block, entries and messages -/

/-- The octets of a status block (R268). -/
def statusOctets (heads tails : List Word) (seq : BitVec 16) (state held : Nat) (ts : Instant) : List Byte :=
  heads.flatMap (fun w => leBytes 4 w.toNat) ++ tails.flatMap (fun w => leBytes 4 w.toNat) ++ leBytes 2 seq.toNat ++
    leBytes 2 state ++ leBytes 4 held ++ leBytes 8 ts.toNat ++ leBytes 16 0

/-- R276: the ring's message, after COUNT entries or at once with TIME_US 0; C3 has none. -/
def modMessage (f c : Nat) (s : State) : State :=
  let k := ringKey f c Reg.RING_MOD
  let w := rd s k
  let r := getRing s f c
  let count := if bitsOf 15 8 w = 0 then 1 else bitsOf 15 8 w
  if c = 7 ∨ !bitAt 4 w ∨ r.unsignalled = 0 then s
  else if count ≤ r.unsignalled ∨ bitsOf 31 16 w = 0 then
    msix f (bitsOf 3 0 w) (modRing f c (fun x => { x with unsignalled := 0, oldest := none }) s)
  else s

/-- The messages that a status block write precedes (R268): those of the rings, and those of event entries (R48). -/
def announce (f : Nat) (s : State) : State :=
  let s1 := modFn f (fun x => { x with evtDue := [] }) s
  (getFn s f).evtDue.foldl (fun t v => msix f v t) (modMessage f 6 (modMessage f 5 (modMessage f 4 s1)))

/-- R268: the status block is written with what it shows now, and then the messages go. -/
def statusWritten (f : Nat) (s : State) : State :=
  let s1 := modFn f (fun x => { x with statusDue := false }) (clearSite f .status s)
  let x := getFn s1 f
  let heads := (x.rings.take 4).map RingS.head
  let tails := (x.rings.drop 4).map RingS.tail
  announce f (emit (.statusBlock f heads tails x.seqSeen (fnState s1 f) x.held.length (nowNs s1) (sbAddr s f)
    (statusOctets heads tails x.seqSeen (fnState s1 f) x.held.length (nowNs s1))) s1)

/-- The status block write that is due follows at once, where it can. -/
def statusNow (f : Nat) (s : State) : State :=
  if statusReady s f then statusWritten f (translate f (sbAddr s f / 4096) s) else s

/-- PHASE of an entry at an index (R272). -/
def phaseAt (s : State) (f c : Nat) (i : Word) : Bool := i.toNat / ringSize s f c % 2 = 0

/-- An entry is written at its ring's TAIL (R265, R272); a status block write follows (R268). -/
def putEntry (f c : Nat) (e : Entry) (s : State) : State :=
  let i := (getRing s f c).tail
  let p := phaseAt s f c i
  let at0 := entryAddr s f c
  let s1 := modRing f c (fun x => { x with tail := x.tail + 1 })
    (emit (.entry f c i p e at0 (e.octetsAt p)) (translate f (at0 / 4096) s))
  let s2 :=
    if c = 7 then modFn f (fun x => { x with evtDue := x.evtDue ++ [evtVector s f (e.tag.toNat % 256)] }) s1
    else bump (fb f) Ct.RING_ENTRY (modRing f c (fun x => { x with
      unsignalled := x.unsignalled + 1
      oldest := some (x.oldest.getD (monoNs s)) }) s1)
  writeStatus f s2

/-- R288: fetches resume when the holding queue has come down to 256 entries. -/
def resumeFetch (f : Nat) (s : State) : State :=
  if (getFn s f).backPaused && (getFn s f).held.length ≤ 256 then
    fetchAll f (writeStatus f (raise (218 + 4 * f) 2 (modFn f (fun x => { x with backPaused := false }) s)))
  else s

/-- A return entry that has left its queue is written (R272, R288). -/
def entryOver (f c : Nat) (e : Entry) (s : State) : State := resumeFetch f (caughtUp f c (putEntry f c e s))

/-- An entry whose write had faulted is written; where its ring has been disabled since, it is held (R288), and an event entry is
dropped (R49). (DESIGN CHOICE, log 77) -/
def retriedEntry (f c : Nat) (e : Entry) (s : State) : State :=
  if ringOn s f c then entryOver f c e s
  else if c = 7 then s
  else modFn f (fun x => { x with held := (c, e) :: x.held }) s

/-! ### Event entries -/

/-- EVT_CTRL.HOLDOFF_US in ns (R47). -/
def holdoffNs (s : State) (f : Nat) : Nat := 1000 * fget s (fb f) Fl.EVT_CTRL_HOLDOFF_US

/-- R47: the holdoff of a source starts. -/
def startHoldoff (f code : Nat) (s : State) : State :=
  if holdoffNs s f = 0 then s
  else modFn f (fun x => { x with holdoffs := x.holdoffs.put code ⟨monoNs s + holdoffNs s f, 0, none⟩ }) s

/-- The 32-byte event entry (R46): event code, COALESCED, INJECTED and SEQ in HOST_TAG. -/
def eventEntry (o : EvOcc) (n seq : Nat) : Entry :=
  ⟨BitVec.ofNat 32 (o.code % 256 + min n 127 * 256 + (if o.injected then 32768 else 0) + seq * 65536), stOk, 0, false, o.result,
    o.node, o.ts, o.aux⟩

/-- The event sequence of a function advances (R46). -/
def nextEvent (f : Nat) (s : State) : State :=
  fset (fb f) Fl.EVT_STATUS_SEQ ((fget s (fb f) Fl.EVT_STATUS_SEQ + 1) % 65536) s

/-- The entry of `n` occurrences, and what its writing begins (R46, R47). -/
def takeEvent (f : Nat) (o : EvOcc) (n : Nat) (s : State) : Entry × State :=
  (eventEntry o n (fget s (fb f) Fl.EVT_STATUS_SEQ), startHoldoff f o.code (nextEvent f s))

/-! ### Jobs -/

/-- The octets of a job's next sling (R277), which ends at the boundary of the sling that a fence cut (R28); a checkpoint's slings are
its pieces (R379). -/
def slingLen (j : Job) : Nat :=
  if j.what = .ckptWrite then min (j.total - j.moved) (64 - j.moved % 64)
  else min (j.total - j.moved) (256 - (j.addr + j.moved) % 256)

/-- The checkpoint piece that a job writes next: area offset and octets. -/
def jobPiece (s : State) (j : Job) : Option (Nat × List Byte) :=
  if j.what = .ckptWrite then
    s.claim.writing.map fun w => ((ckptPiece s w (j.moved / 64)).1 + j.moved % 64, (ckptPiece s w (j.moved / 64)).2.drop (j.moved % 64))
  else none

/-- The host address of a job's next sling. -/
def jobAt (s : State) (j : Job) : Nat :=
  match jobPiece s j with
  | some p => j.addr + p.1
  | none => j.addr + j.moved

/-- The octets of a writing job's next sling. -/
def jobData (s : State) (j : Job) : List Byte :=
  match jobPiece s j with
  | some p => p.2
  | none => (j.octets.drop j.moved).take (slingLen j)

/-- The read of the last octets of what a job wrote, by which a record is confirmed (R310, R379). -/
def readBackJob (j : Job) (what : JobWhat) : Job :=
  ⟨j.fn, what, j.cls, (if j.what = .ckptWrite then j.addr + 60 else j.addr + j.total - 4), 4, 0, false, [], false, false, none, false, 0⟩

/-- The C1 entry of a delivery is produced (R251, R287); none for OK where its post has QUIET_OK (R269, R275). -/
def deliverDone (f : Nat) (p : RxPost) (i : UpItem) (d : Done) (s : State) : State :=
  let s1 := bump (fb f) Ct.RING_DESC s
  if p.quietOk && d.status = stOk then s1 else produce f 5 (d.entry p.tag (kindOpcode i.kind) false s) s1
where
  /-- OPCODE echo of a C1 entry (R251). -/
  kindOpcode (k : Nat) : Nat := if k = 1 ∨ k = 2 then opMsgSend else if k = 4 then opRaw else opDgram

/-- AUX of a C1 entry (R251). -/
def UpItem.aux (i : UpItem) : Nat := i.name.rsn.word.toNat + i.name.epoch.toNat * 2 ^ 32 + i.berth * 2 ^ 48

/-- What the C1 entry of a whole delivery reports (R251): octets written and KIND. -/
def UpItem.done (i : UpItem) : Done :=
  { status := i.status, result := i.octets.length + i.kind * 65536, node := i.node, aux := i.aux, ts := some i.ts }

/-- The claim engine's state changed by `g`. -/
def modClaim (g : ClaimS → ClaimS) (s : State) : State := { s with claim := g s.claim }

/-- The writes of a checkpoint into an area are gone. -/
def dropCkptJobs (a : CkptArea) (s : State) : State :=
  let mine (j : Job) : Bool := j.what = .ckptWrite ∨ j.what = .ckptBack
  modFn a.fn (fun x => { x with faults := x.faults.map fun o => o.filter fun r => !mine r.job })
    { s with
      jobs := s.jobs.filter fun j => !mine j
      landed := s.landed.filter fun j => !mine j
      stevs := s.stevs.map fun o => o.filter fun j => !mine j }

/-- An area closes: its writes end, and its descriptor completes (R289, R293, R378). -/
def closeArea (d : Done) (s : State) : State :=
  match s.claim.area with
  | some a =>
    finishDesc a.fn a.ring a.index d (modClaim (fun c => { c with area := none, writing := none }) (dropCkptJobs a s))
  | none => s

/-- The load that a descriptor started is given up (R380). -/
def dropLoad (f r i : Nat) (s : State) : State :=
  modClaim (fun c => { c with loading := c.loading.filter fun l => !(l.fn = f && l.ring = r && l.index = i) }) s

/-- CKPT_LOAD is refused (R380): event 202 with its RESULT. -/
def refuseLoad (f r i : Nat) (reason : Nat) (d : Done) (s : State) : State :=
  finishDesc f r i d (raise 202 reason (bump 0 Ct.CLAIM_CKPT_REJECT (dropLoad f r i s)))

/-- A completed job leaves its result with the one who asked for it. -/
def landJob (j : Job) (s : State) : State :=
  match j.what with
  | .doorbell => clearSite j.fn .doorbell (modFn j.fn (fun x => { x with doorbell := some j.octets }) s)
  | .fetch r i =>
    let x : DescS := ⟨r, i, j.octets, .waiting, [], false⟩
    let flushed : Bool := match (getRing s j.fn r).flushTo with
      | some t => 0 < (t - indexOf i).toInt
      | none => false
    let s1 := modRing j.fn r (fun g => { g with head := g.head + 1, fetching := false }) s
    if flushed then fetchAll j.fn (postDone j.fn x { status := stFlushed } s1)
    else if j.poisoned then fetchAll j.fn (postDone j.fn x { status := stPoisoned } s1)
    else fetchAll j.fn (modRing j.fn r (fun g => { g with descs := g.descs ++ [x] }) s1)
  | .gather r i =>
    let s1 := modDesc j.fn r i (fun y => { y with phase := .ready, payload := j.octets, poisoned := j.poisoned }) s
    match findDesc s1 j.fn r i with
    | some x =>
      if flushTakes s (33 + 4 * j.fn) (gatherKey r i) then
        fetchAll j.fn (loseItems j.fn 1 (dropDesc j.fn r i (flushItem (gatherKey r i) s1)))
      else if j.poisoned && poisonEnds x.op then finishDesc j.fn r i { status := earlyStatus s x stPoisoned } s1
      else reachEngine j.fn x s1
    | none => s1
  | .respond r i e timed =>
    match findDesc s j.fn r i with
    | some x =>
      if s.claim.st = .diag then s
      else
        let s1 := bump (fb j.fn) Ct.RING_DESC (dropDesc j.fn r i s)
        startRing j.fn r
          (if x.quietOk && e.status = stOk then s1
           else produce j.fn (returnRing r) (if timed then e else { e with ts := nowNs s }) s1)
    | none => s
  | .deliver (some (p, i)) => deliverDone j.fn p i i.done s
  | .entry _ _ | .status | .deliver none => s
  | .campRecord c q false => addJob (readBackJob j (.campRecord c q true)) s
  | .ckptWrite => addJob (readBackJob j .ckptBack) s
  | .ckptLoad r i =>
    if j.poisoned then refuseLoad j.fn r i 5 { status := stPoisoned } s
    else if s.claim.loading.any fun l => l.fn = j.fn && l.ring = r && l.index = i then s
    else modDesc j.fn r i (fun y => { y with phase := .ready }) s
  | .campGather _ _ | .campRecord _ _ true | .campResume _ _ | .ckptBack => { s with landed := s.landed ++ [j] }

/-- A fetched or unfetchable descriptor that never started completes with HOST_TAG 0xFFFF_FFFF (R283 SITE 1, R289); its OPCODE echo is
open. (DESIGN CHOICE, log 42) -/
def unfetched (f r : Nat) (d : Done) (s : State) : State :=
  let e : Entry := ⟨0xFFFFFFFF, d.status, (Config.freeValue s.draws).toNat % 256, false, BitVec.ofNat 32 d.result, noNode, nowNs s,
    BitVec.ofNat 64 d.aux⟩
  advanceDraws (produce f (returnRing r) e (bump (fb f) Ct.RING_DESC
    (modRing f r (fun g => { g with head := g.head + 1, fetching := false }) s)))

/-- A job is abandoned by a drop, a flush or an abort; its descriptor completes with `d`, or its owner finds it landed aborted
(R285, R289). -/
def abandonJob (j : Job) (d : Done) (s : State) : State :=
  match j.what with
  | .gather r i | .respond r i _ _ => finishDesc j.fn r i d s
  | .fetch r _ => fetchAll j.fn (unfetched j.fn r d s)
  | .doorbell | .entry _ _ | .status | .deliver none => s
  | .deliver (some (p, i)) =>
    deliverDone j.fn p i { d with
      result := if d.status = stFault then i.kind * 65536 else 0
      node := i.node
      ts := some i.ts } s
  | .ckptLoad r i =>
    if d.status = stFault then refuseLoad j.fn r i 5 d s else finishDesc j.fn r i d (dropLoad j.fn r i s)
  | .ckptWrite | .ckptBack =>
    if d.status = stFault then { s with landed := s.landed ++ [{ j with abort := true, aux := d.aux }] } else closeArea d s
  | .campGather _ _ | .campRecord _ _ _ | .campResume _ _ => { s with landed := s.landed ++ [{ j with abort := true, aux := d.aux }] }

/-- The status with which an abandoned job's owner ends (R273): AUX of FAULT names a site other than 0. -/
def Job.ending (j : Job) : Nat := if j.aux < 4294967296 then stAborted else stFault

/-- A class-0 job waits and no stevedore is free (R278). -/
def wantsPreempt (s : State) : Bool :=
  fbit s (fb (hmFn s)) Fl.RING_STEV_CFG_PREEMPT_EN && (freeStev s).isNone && (pickOf s 0).isSome

/-- The running job of class `c` with the most bytes remaining (R278). -/
def mostLeft (s : State) (c : Nat) : Option Nat :=
  let left (k : Nat) : Nat := match s.stevs.getD k none with
    | some j => if j.cls = c then j.total - j.moved else 0
    | none => 0
  (List.range 8).foldl (fun best k =>
    match best with
    | none => if 0 < left k then some k else none
    | some b => if left b < left k then some k else some b) none

/-- Stevedore `k`'s job is the one to be pre-empted (R278): class 2 before class 1. -/
def isVictim (s : State) (k : Nat) : Bool :=
  wantsPreempt s && ((mostLeft s 2).orElse fun _ => mostLeft s 1) = some k

/-- Stevedore `k` has no job. -/
def freeStevAt (k : Nat) (s : State) : State := { s with stevs := s.stevs.set k none }

/-- A delivery whose content is found truncated in the hold (R287). -/
def Job.truncated (j : Job) : Bool :=
  match j.what with
  | .deliver (some (_, i)) => i.abandoned
  | _ => false

/-- R277, R278, R285: at the sling boundary a job completes, is abandoned, is pre-empted, parks with its function, or goes on. -/
def slingBoundary (k : Nat) (j : Job) (s : State) : State :=
  let victim := isVictim s k
  if j.abort || j.truncated then abandonJob j (abortDone j.moved) (freeStevAt k s)
  else if j.total ≤ j.moved then landJob j (freeStevAt k s)
  else if !dmaOn s j.fn then addJob j (freeStevAt k s)
  else if victim then addJob j (bump (fb j.fn) Ct.RING_PREEMPT (freeStevAt k s))
  else { s with stevs := s.stevs.set k (some j) }

/-- A class-0 write takes up what it writes, at the head of its queue; none when nothing is there any more. -/
def takeUp (j : Job) (s : State) : Option (Job × State) :=
  match j.what with
  | .entry 7 none =>
    (eventDue s j.fn).map fun o =>
      let r := takeEvent j.fn o 1 (modFn j.fn (fun x => { x with evq := x.evq.tail }) s)
      ({ j with what := .entry 7 (some r.1), addr := entryAddr s j.fn 7 }, r.2)
  | .entry _ none => (nextEntry s j.fn).map fun n =>
      ({ j with what := .entry n.1 (some n.2.1), addr := entryAddr s j.fn n.1 }, n.2.2)
  | .deliver none => (deliverDue s j.fn).map fun d =>
      ({ j with
        what := .deliver (some (d.1, d.2.1))
        addr := d.1.addr
        total := d.2.1.octets.length
        octets := d.2.1.octets
        poisoned := d.2.1.status = stPoisoned }, d.2.2)
  | _ => some (j, s)

/-! ### Invalidations -/

/-- R281: an ATS Invalidate Request is answered. -/
def answerInval (r : InvalReq) (s : State) : State :=
  emit (.invalidated r.fn r.page r.count) (bump (fb r.fn) Ct.XLATE_INV s)

/-- Stevedore `k` still moves the sling at this address for function `f`. -/
def stillMoving (s : State) (f : Nat) (p : Nat × Nat) : Bool :=
  (s.stevs.getD p.1 none).any fun j => j.fn = f && jobAt s j = p.2

/-- R281: the Invalidate Requests of a port whose slings have been issued are answered. -/
def answerInvals (p : Nat) (s : State) : State :=
  let waits (r : InvalReq) : Bool := r.slings.any (stillMoving s r.fn)
  ((getPort s p).invals.filter fun r => !waits r).foldl (fun t r => answerInval r t)
    (modPort p (fun x => { x with invals := x.invals.filter waits }) s)

/-- A sling has left its stevedore. -/
def slingOver (f : Nat) (s : State) : State :=
  if (getPort s (portOf f)).invals.isEmpty then s else answerInvals (portOf f) s

/-- What a job holds after a sling: a read gains the octets that came, unless they go past the hold (R380). -/
def Job.gains (j : Job) (octets : List Byte) : List Byte :=
  match j.what with
  | .ckptLoad _ _ => []
  | _ => if j.write then j.octets else j.octets ++ octets

/-- R277: a sling of job `j` on stevedore `k` is done, on a read with these octets. -/
def slingOf (k : Nat) (j : Job) (octets : List Byte) (poisoned : Bool) (s : State) : State :=
  let n := slingLen j
  let s1 := translate j.fn (jobAt s j / 4096) s
  match j.what with
  | .entry c (some e) => retriedEntry j.fn c e (freeStevAt k s)
  | .entry _ none | .deliver none => freeStevAt k s
  | .status => statusWritten j.fn (freeStevAt k s1)
  | _ =>
    slingBoundary k { j with
      moved := j.moved + n
      octets := j.gains (fitOctets n octets)
      poisoned := j.poisoned || (poisoned && !j.write)
      paged := false } (if j.write then sendWrite j.fn (jobAt s j) (jobData s j) j.poisoned s1 else s1)

/-- The queue into which a gather finds no cell for its next octets (R353, R356). (DEDUCED, log 52) -/
def gatherStall (s : State) (j : Job) : Option Nat :=
  match j.what with
  | .gather _ _ => if cellFree s || j.abort then none else some (33 + 4 * j.fn)
  | _ => none

/-- R277: stevedore `k` finishes a sling; a gather that finds no cell for it stalls (R356). -/
def doSlingDone (k : Nat) (octets : List Byte) (poisoned : Bool) (s : State) : State :=
  match s.stevs.getD k none with
  | none => s
  | some j =>
    match gatherStall s j with
    | some q => poolStall q s
    | none =>
      match takeUp j s with
      | some (x, t) => slingOver j.fn (slingOf k x octets poisoned t)
      | none => freeStevAt k s

/-! ### Faults -/

/-- R282: a fault is raised to the host: counted, event 217 + 4f. -/
def raiseFault (f i : Nat) (j : Job) (kind : Nat) (s : State) : State :=
  raiseAux (217 + 4 * f) i (faultAux j.moved j.what.site kind) (bump (fb f) Ct.XLATE_FAULT s)

/-- The record that a fault fills: for a doorbell read or status block write the one that still stands, else the one that the job filled
before when that is free, else the first free one (R282 to R284). (DEDUCED, log 43) -/
def recordFor (s : State) (f : Nat) (j : Job) : Option Nat :=
  let first := (getFn s f).faults.findIdx? fun r => r.isNone
  match faultAt s f (fun w => w = j.what && (w = .doorbell || w = .status)) with
  | some i => some i
  | none =>
    match j.slot with
    | some i => if (getFault s f i).isNone then some i else first
    | none => first

/-- Page requests outstanding of a function (R280). -/
def pagesOut (s : State) (f : Nat) : Nat := ((validFaults s f).filter fun r => r.auto && r.pageUntil.isSome).length

/-- R280 step 1: the page request of a parked job goes out. -/
def sendPageRequest (f i : Nat) (page : Nat) (s : State) : State :=
  let until' := monoNs s + 1000000 * fget s (fb f) Fl.XLATE_CTRL_PRI_TIMEOUT_MS
  emit (.pageRequest f page) (bump (fb f) Ct.XLATE_PRI
    (modFn f (fun x => { x with faults := x.faults.modify i fun r => r.map fun y => { y with pageUntil := some until' } }) s))

/-- A flush of its ring acts on the descriptor that a job fetches (R289). -/
def flushesFetch (s : State) (j : Job) : Bool :=
  match j.what with
  | .fetch r i => (getRing s j.fn r).flushTo.any fun t => 0 < (t - indexOf i).toInt
  | _ => false

/-- A fault parks (R280, R282): resolved by PRI where `auto`, else raised; with every record valid a job stays ready. A descriptor
that a flush cannot fetch completes (R289). -/
def park (f : Nat) (j : Job) (kind : Nat) (auto : Bool) (s : State) : State :=
  if !auto && flushesFetch s j then abandonJob j { status := stFlushed } s
  else
    match recordFor s f j with
    | none => addJob j s
    | some i =>
      let was := fnPaused s f
      let s1 := setFault f i (some ⟨{ j with slot := some i }, auto, kind, none⟩) s
      let s2 :=
        if auto then (if pagesOut s f < 64 then sendPageRequest f i (jobAt s j / 4096) s1 else s1)
        else raiseFault f i j kind s1
      pauseChange f was s2

/-- PRI resolves a translation fault itself (R280). -/
def priAuto (s : State) (f : Nat) : Bool := (getFn s f).pri && fbit s (fb f) Fl.XLATE_CTRL_PRI_AUTO

/-- A sling has faulted (R282, R285): a job that a drop or flush waits for is abandoned, another parks. -/
def faulted (j : Job) (kind : Nat) (auto : Bool) (s : State) : State :=
  if j.abort then abandonJob j (abortDone j.moved) s else park j.fn j kind auto s

/-- R279, R280, R282: the translation that a stevedore asked for returns no permission. -/
def doTranslationFault (k : Nat) (s : State) : State :=
  match s.stevs.getD k none with
  | some j0 =>
    if (getFn s j0.fn).ats then
      match takeUp j0 s with
      | some (j, t) =>
        let page := jobAt t j / 4096
        slingOver j.fn (faulted j 0 (priAuto s j.fn && !j.paged)
          (emit (.translationRequest j.fn page) (bump (fb j.fn) Ct.XLATE_ATC_MISS (forget j.fn page (freeStevAt k t)))))
      | none => freeStevAt k s
    else s
  | none => s

/-- Meaning of TRANSLATION_FAULT. -/
def execTranslationFault (k : Fin 8) (s : State) : Host.Outcome State Fault Refusal := engine (doTranslationFault k.val) s

/-- What was parked in record `i` goes on from OFFSET (R280, R284). -/
def resume (i : Nat) (paged : Bool) (j : Job) (s : State) : State :=
  let s1 := addJob { j with paged := paged, slot := some i } s
  if j.what = .status then modFn j.fn (fun x => { x with statusDue := true }) s1 else s1

/-- A waiting page request goes out when one completes (R280). -/
def nextPage (f : Nat) (s : State) : State :=
  match (getFn s f).faults.findIdx? fun r => match r with
    | some x => x.auto && x.pageUntil.isNone
    | none => false with
  | some i =>
    match getFault s f i with
    | some r => sendPageRequest f i (jobAt s r.job / 4096) s
    | none => s
  | none => s

/-- R280: PRI did not resolve a fault; it is raised to the host. A descriptor that a flush cannot fetch completes (R289). -/
def pageFailed (f i kind : Nat) (r : FaultRec) (s : State) : State :=
  nextPage f
    (if flushesFetch s r.job then freeRecord f i (abandonJob r.job { status := stFlushed } s)
     else raiseFault f i r.job kind (setFault f i (some { r with auto := false, kind := kind, pageUntil := none }) s))

/-- R280: a Page Request Group Response. -/
def doPageResponse (f i : Nat) (success : Bool) (s : State) : State :=
  match getFault s f i with
  | some r =>
    if r.auto && r.pageUntil.isSome then
      if success then nextPage f (freeRecord f i (resume i true r.job s)) else pageFailed f i 1 r s
    else s
  | none => s

/-- Meaning of PAGE_RESPONSE. -/
def execPageResponse (f : Fn) (i : Fin 16) (success : Bool) (s : State) : Host.Outcome State Fault Refusal :=
  engine (doPageResponse f.val i.val success) s

/-- R280: PRI_TIMEOUT_MS without a response. -/
def doPriTimeout (f i : Nat) (s : State) : State :=
  match getFault s f i with
  | some r =>
    match r.pageUntil with
    | some t => if r.auto then pageFailed f i 2 r (fireTimer t s) else s
    | none => s
  | none => s

/-- Meaning of PRI_TIMEOUT. -/
def execPriTimeout (f : Fn) (i : Fin 16) (s : State) : Host.Outcome State Fault Refusal := engine (doPriTimeout f.val i.val) s

/-- R282: a read completion with UR or CA, or a completion timeout. -/
def doDmaFault (k : Nat) (timeout : Bool) (s : State) : State :=
  match s.stevs.getD k none with
  | some j => if j.write then s else slingOver j.fn (faulted j (if timeout then 4 else 3) false (freeStevAt k s))
  | none => s

/-- Meaning of DMA_FAULT. -/
def execDmaFault (k : Fin 8) (timeout : Bool) (s : State) : Host.Outcome State Fault Refusal := engine (doDmaFault k.val timeout) s

/-- The key of XLATE_FAULTi_ACTION. -/
def actionOff (i : Nat) : Nat := Reg.XLATE_FAULT_ACTION + 0x20 * i

/-- R284: a write to XLATE_FAULTi_ACTION that the record refuses. (DEDUCED, log 43) -/
def rejectAction (f : Nat) (s : State) : State := reject (fb f + Reg.XLATE_STATUS) s

/-- R284 RETRY: the job goes on with a fresh translation. (DEDUCED, log 43) -/
def retryFault (f i : Nat) (s : State) : State :=
  match getFault s f i with
  | some r =>
    if r.auto then rejectAction f s else freeRecord f i (resume i false r.job (forget f (jobAt s r.job / 4096) s))
  | none => rejectAction f s

/-- Meaning of XLATE_FAULT_RETRY. -/
def execXlateFaultRetry (f : Fn) (i : Fin 16) (s : State) : Host.Outcome State Fault Refusal :=
  act (rowWrite f.val (actionOff i.val) 1 true (retryFault f.val i.val)) s

/-- R284 ABORT: the descriptor or delivery completes with FAULT; rejected at sites 0, 5 and 6 (R283). (DEDUCED, log 43) -/
def abortFault (f i : Nat) (s : State) : State :=
  match getFault s f i with
  | some r =>
    if r.auto || [0, 5, 6].contains r.job.what.site then rejectAction f s
    else freeRecord f i (abandonJob r.job { status := stFault, aux := faultAux r.job.moved r.job.what.site r.kind } s)
  | none => rejectAction f s

/-- R281: every cache entry of the function is invalid. -/
def invalidateFn (f : Nat) (s : State) : State := modPort (portOf f) (fun q => { q with atc := q.atc.filter fun e => e.fn ≠ f }) s

/-- Meaning of XLATE_INV. -/
def execXlateInv (f : Fn) (s : State) : Host.Outcome State Fault Refusal :=
  act (rowWrite f.val Reg.XLATE_INV 1 true (invalidateFn f.val)) s

/-- A cached range has a page among `count` pages from `page`. -/
def AtcEnt.meets (e : AtcEnt) (page count : Nat) : Bool := e.page < page + count && page < e.page + 2 ^ e.span

/-- The slings of function `f` under way that use a translation of these pages (R281). -/
def slingsIn (s : State) (f page count : Nat) : List (Nat × Nat) :=
  (List.range 8).filterMap fun k =>
    match s.stevs.getD k none with
    | some j => if j.fn = f && page ≤ jobAt s j / 4096 && jobAt s j / 4096 < page + count then some (k, jobAt s j) else none
    | none => none

/-- R281: an ATS Invalidate Request for `count` pages from `page`: the entries go, and the answer follows the slings that use them. A
port whose queue of 32 is full takes none. (DESIGN CHOICE, log 77) -/
def doAtsInvalidate (f page count : Nat) (s : State) : State :=
  let r : InvalReq := ⟨f, page, count, slingsIn s f page count⟩
  if !(getFn s f).ats || 32 ≤ (getPort s (portOf f)).invals.length then s
  else
    let s1 := modPort (portOf f) (fun q => { q with atc := q.atc.filter fun e => !(e.fn = f && e.meets page count) }) s
    if r.slings.isEmpty then answerInval r s1 else modPort (portOf f) (fun q => { q with invals := q.invals ++ [r] }) s1

/-- Meaning of ATS_INVALIDATE. -/
def execAtsInvalidate (f : Fn) (page count : Nat) (s : State) : Host.Outcome State Fault Refusal :=
  act (doAtsInvalidate f.val page count) s

/-! ### Doorbells -/

/-- R267: a doorbell read becomes ready, where none waits; one whose fault stands is tried again (R283 SITE 0). -/
def requestDoorbell (f : Nat) (s : State) : State :=
  let site := faultAt s f fun w => w = .doorbell
  let auto : Bool := site.any fun i => (getFault s f i).any FaultRec.auto
  if atWork s f (fun j => j.what = .doorbell) || auto || (getFn s f).quiesced || !serving s || !bitAt 0 (rd s (fb f + Reg.RING_DB_LO)) then s
  else addJob ⟨f, .doorbell, 0, dbAddr s f, 64, 0, false, [], false, false, site, false, 0⟩ s

/-- Meaning of RING_NUDGE. -/
def execRingNudge (f : Fn) (s : State) : Host.Outcome State Fault Refusal :=
  act (rowWrite f.val Reg.RING_NUDGE 0 true (requestDoorbell f.val)) s

/-- R267: a poll, while RING_POLL.US is not 0. -/
def doDoorbellPoll (f : Nat) (s : State) : State :=
  if bitsOf 9 0 (rd s (fb f + Reg.RING_POLL)) = 0 then s else requestDoorbell f s

/-- Meaning of DOORBELL_POLL. -/
def execDoorbellPoll (f : Fn) (s : State) : Host.Outcome State Fault Refusal := engine (doDoorbellPoll f.val) s

/-- R266: a ring error stops a ring. -/
def ringError (f r cause : Nat) (s : State) : State :=
  let k := ringKey f r Reg.RING_CTRL
  let e := fb f + Reg.RING_ERR
  let s1 := wr k (setBitAt 0 (rd s k) false) s
  writeStatus f (raise (216 + 4 * f) (r + cause * 256) (wr e (putBits 11 8 (setBitAt r (rd s e) true) cause) s1))

/-- R266 causes 1 and 2: the indices of a ring are inconsistent. -/
def indexError (s : State) (f r : Nat) : Option Nat :=
  let g := getRing s f r
  if r < 4 then (if ringSize s f r < (g.tail - g.head).toNat then some 1 else none)
  else if 0 < (g.head - g.tail).toInt then some 2 else none

/-- An enabled ring with inconsistent indices is stopped (R266). -/
def checkRing (f r : Nat) (s : State) : State :=
  if ringEn s f r then
    match indexError s f r with
    | some c => ringError f r c s
    | none => s
  else s

/-- Word `i` of a doorbell block (R267). -/
def dbWord (bs : List Byte) (i : Nat) : Word := BitVec.ofNat 32 (ofLeBytes ((bs.drop (4 * i)).take 4))

/-- R267: one index of a doorbell copy: TAIL of S0 to S3, HEAD of C0 to C3. -/
def takeIndex (f r : Nat) (v : Word) (s : State) : State :=
  let old := if r < 4 then (getRing s f r).tail else (getRing s f r).head
  if old = v then s
  else checkRing f r (modRing f r (fun x => { x with tail := if r < 4 then v else x.tail, head := if r < 4 then x.head else v }) s)

/-- R267, R268, R291: a completed doorbell read is acted on. -/
def doDoorbellCopy (f : Nat) (s : State) : State :=
  match (getFn s f).doorbell with
  | none => s
  | some bs =>
    let seq := BitVec.ofNat 16 (ofLeBytes ((bs.drop 32).take 2))
    let s0 := modFn f (fun x => { x with doorbell := none }) s
    let s1 := if seq = (getFn s f).seqSeen then s0 else active f s0
    let s2 := modFn f (fun x => { x with seqSeen := seq }) s1
    let changed := (List.range 8).any fun r =>
      (if r < 4 then (getRing s f r).tail else (getRing s f r).head) ≠ dbWord bs r
    let s3 := forBelow 8 (fun r t => takeIndex f r (dbWord bs r) t) s2
    if changed then fetchAll f (writeStatus f s3) else s3

/-- Meaning of DOORBELL_COPY. -/
def execDoorbellCopy (f : Fn) (s : State) : Host.Outcome State Fault Refusal := engine (doDoorbellCopy f.val) s

/-! ### Commands of the rings themselves -/

/-- R270: a NOP on S0 to S2 completes with OK. -/
def doNop (f r : Nat) (s : State) : State :=
  match readyDesc s f r (fun x => x.op = opNop) with
  | some x => finishDesc f r x.index { status := stOk } s
  | none => s

/-- Meaning of NOP. -/
def execNop (f : Fn) (r : Fin 3) (s : State) : Host.Outcome State Fault Refusal := engine (doNop f.val r.val) s

/-- R270, R287: a NOP on S3 posts a receive buffer. -/
def doRxBufferPost (f : Nat) (s : State) : State :=
  match readyDesc s f 3 (fun x => x.op = opNop) with
  | some x => startRing f 3 (dropDesc f 3 x.index (modFn f (fun y => { y with posts := y.posts ++ [⟨x.tag, x.bufAddr, x.index, x.quietOk⟩] }) s))
  | none => s

/-- Meaning of RX_BUFFER_POST. -/
def execRxBufferPost (f : Fn) (s : State) : Host.Outcome State Fault Refusal := engine (doRxBufferPost f.val) s

/-- R272, R274, R288: the next entry is written by the stevedore that has it, and the status block write follows; the entry at the head
that its ring cannot take is held. -/
def doReturnEntryWrite (f : Nat) (s : State) : State :=
  match (List.range 8).findSome? fun k => (s.stevs.getD k none).bind fun j => retried k j with
  | some (k, c, e) => statusNow f (slingOver f (retriedEntry f c e (freeStevAt k s)))
  | none =>
    match nextEntry s f, writer s f isReturn with
    | some (c, e, t), some k => statusNow f (slingOver f (entryOver f c e (freeStevAt k t)))
    | some _, none => s
    | none, _ =>
      match (getFn s f).out with
      | (c, e) :: rest =>
        if ringOpen s f c && !((getFn s f).held.any fun p => p.1 = c) then s
        else holdEntry f c e (modFn f (fun x => { x with out := rest }) s)
      | [] => s
where
  /-- An entry whose write had faulted, with the stevedore that writes it again. -/
  retried (k : Nat) (j : Job) : Option (Nat × Nat × Entry) :=
    match j.what with
    | .entry c (some e) => if j.fn = f && c ≠ 7 then some (k, c, e) else none
    | _ => none
  /-- The job writes to a ring other than C3. -/
  isReturn : JobWhat → Bool
    | .entry c none => c ≠ 7
    | _ => false

/-- Meaning of RETURN_ENTRY_WRITE. -/
def execReturnEntryWrite (f : Fn) (s : State) : Host.Outcome State Fault Refusal := engine (doReturnEntryWrite f.val) s

/-- R276: TIME_US after the oldest entry not yet signalled the ring's message is sent; a status block write that is due goes first, with
the messages that it announces (R268). -/
def doRingModTimer (f c : Nat) (s : State) : State :=
  let w := rd s (ringKey f c Reg.RING_MOD)
  let r := getRing s f c
  match r.oldest with
  | some t =>
    if c < 4 ∨ c = 7 ∨ !bitAt 4 w ∨ r.unsignalled = 0 ∨ (getFn s f).quiesced then s
    else if (getFn s f).statusDue then statusNow f s
    else
      msix f (bitsOf 3 0 w)
        (modRing f c (fun x => { x with unsignalled := 0, oldest := none }) (fireTimer (t + 1000 * bitsOf 31 16 w) s))
  | none => s

/-- Meaning of RING_MOD_TIMER. -/
def execRingModTimer (f : Fn) (c : Fin 8) (s : State) : Host.Outcome State Fault Refusal :=
  engine (doRingModTimer f.val c.val) s

/-! ### Delivery of events -/

/-- R49: an event entry is lost. -/
def loseEvent (f : Nat) (o : EvOcc) (s : State) : State :=
  startHoldoff f o.code (nextEvent f (bump (fb f) Ct.EVT_LOST (fset (fb f) Fl.EVT_STATUS_C3_OVF 1 s)))

/-- R46, R48, R49: an event entry for `n` occurrences is written by stevedore `k`, the status block and its message following, or it is
lost to a full C3. -/
def writeEvent (f : Nat) (o : EvOcc) (n k : Nat) (s : State) : State :=
  if c3Full s f then loseEvent f o s
  else
    let r := takeEvent f o n (freeStevAt k s)
    statusNow f (slingOver f (putEntry f 7 r.1 r.2))

/-- An event entry can be written or lost now (R49, R278), and the stevedore that writes it. -/
def eventWriter (s : State) (f : Nat) : Option Nat :=
  if c3Full s f then some 0 else if c3Waits s f then none else writer s f (fun w => w = .entry 7 none)

/-- R48 second case: no C3 delivery; a pending bit that was 0 sends the message. -/
def messageOnly (f : Nat) (o : EvOcc) (s : State) : State := if o.newly then msix f (evtVector s f o.code) s else s

/-- R46, R47: the oldest delivered occurrence of a function. -/
def doC3EventEntryWrite (f : Nat) (s : State) : State :=
  match (getFn s f).evq with
  | [] => s
  | o :: rest =>
    let s1 := modFn f (fun x => { x with evq := rest }) s
    if (getFn s f).quiesced then s1
    else if !c3On s f then messageOnly f o s1
    else
      match (getFn s f).holdoffs.find o.code with
      | some h =>
        let was := match h.latest with
          | some p => p.newly
          | none => false
        let last : EvOcc := { o with newly := o.newly || was }
        let h2 : Holdoff := ⟨h.untilMono, h.merged + 1, some last⟩
        modFn f (fun x => { x with holdoffs := x.holdoffs.put o.code h2 }) s1
      | none =>
        match eventWriter s f with
        | some k => writeEvent f o 1 k s1
        | none => s

/-- Meaning of C3_EVENT_ENTRY_WRITE. -/
def execC3EventEntryWrite (f : Fn) (s : State) : Host.Outcome State Fault Refusal := engine (doC3EventEntryWrite f.val) s

/-- R47: a holdoff ends. -/
def doEvtHoldoffEnd (f code : Nat) (s : State) : State :=
  match (getFn s f).holdoffs.find code with
  | none => s
  | some h =>
    let s1 := fireTimer h.untilMono s
    let s2 := modFn f (fun x => { x with holdoffs := x.holdoffs.del code }) s1
    match h.latest with
    | none => s2
    | some o =>
      if (getFn s2 f).quiesced then s2
      else if c3On s2 f then
        match eventWriter s2 f with
        | some k => writeEvent f o h.merged k s2
        | none => s
      else messageOnly f o s2

/-- Meaning of EVT_HOLDOFF_END. -/
def execEvtHoldoffEnd (f : Fn) (code : Byte) (s : State) : Host.Outcome State Fault Refusal :=
  engine (doEvtHoldoffEnd f.val code.toNat) s

/-- R48: the pending message of a vector whose messages are no longer held back is sent. -/
def releaseVector (f vec : Nat) (s : State) : State :=
  let x := getFn s f
  if x.msixPend.getD vec false && !x.masked vec && !x.quiesced then
    msix f vec (modFn f (fun y => { y with msixPend := y.msixPend.set vec false }) s)
  else s

/-- R48: a write to the MSI-X table or to the capability's control; the messages that it releases are sent, lowest vector first.
(PRESUMED, log 68) -/
def doMsixWrite (f : Nat) (w : MsixWrite) (s : State) : State :=
  if !hostReady s f then s
  else
    match w with
    | .vector v m => releaseVector f v.val (modFn f (fun x => { x with msixMask := x.msixMask.set v.val m }) s)
    | .control e m => forBelow 16 (releaseVector f) (modFn f (fun x => { x with msixEn := e, msixFnMask := m }) s)

/-- Meaning of MSIX_VECTOR_UNMASK: a host write to the MSI-X table or control. -/
def execMsixVectorUnmask (f : Fn) (w : MsixWrite) (s : State) : Host.Outcome State Fault Refusal := act (doMsixWrite f.val w) s

/-! ### Control of rings -/

/-- The key of RING_x_CTRL in a function's view. -/
def ctrlOff (r : Nat) : Nat := Reg.RING_CTRL + 0x20 * r

/-- The ring and the number of the descriptor that a job serves: none for the function's own class-0 jobs (R285, R295). -/
def jobHome (s : State) (j : Job) : Option (Nat × Nat) :=
  match j.what with
  | .doorbell | .entry _ _ | .status | .deliver _ => none
  | .fetch r i | .gather r i | .respond r i _ _ | .campResume r i | .ckptLoad r i => some (r, i)
  | .campGather c _ | .campRecord c _ _ => (s.camp.camps.find? fun x => x.id = c).map fun x => (x.ring, x.index)
  | .ckptWrite | .ckptBack => s.claim.area.map fun a => (a.ring, a.index)

/-- A job of a descriptor of ring `r` that has started and not completed (R285, R289). -/
def ofRing (s : State) (f r : Nat) (j : Job) : Bool :=
  j.fn = f && match jobHome s j with
    | some (q, i) => q = r && (findDesc s f q i).isSome
    | none => false

/-- A job that fetches for ring `r` of function `f`. -/
def fetchOf (f r : Nat) (j : Job) : Bool := j.fn = f && j.what.fetches r

/-- The jobs of function `f` that are parked. -/
def parkedJobs (s : State) (f : Nat) : List Job := (validFaults s f).map FaultRec.job

/-- The fault records of function `f` whose job satisfies `hit` are freed. -/
def freeRecords (f : Nat) (hit : Job → Bool) (s : State) : State :=
  let was := fnPaused s f
  pauseChange f was (modFn f (fun x => { x with faults := x.faults.map fun o => o.filter fun r => !hit r.job }) s)

/-- Abandon ready and parked jobs of function `f` that satisfy `hit`; those moving a sling stop at its boundary (R285). -/
def abandonWhere (f : Nat) (hit : Job → Bool) (s : State) : State :=
  let gone := s.jobs.filter hit ++ (parkedJobs s f).filter hit
  let s1 := freeRecords f hit { s with
    jobs := s.jobs.filter fun j => !hit j
    stevs := s.stevs.map fun o => o.map fun j => if hit j then { j with abort := true } else j }
  gone.foldl (fun t j => abandonJob j (abortDone j.moved) t) s1

/-- Bytes moved by the job in progress of a checkpoint area (R273). -/
def areaMoved (s : State) : Nat :=
  (((s.jobs ++ s.stevs.filterMap id).find? fun j => j.what = .ckptWrite).map Job.moved).getD 0

/-- R289, R378: a flush of S2 ends the function's checkpoint area. -/
def flushArea (f r : Nat) (s : State) : State :=
  if s.claim.area.any fun a => a.fn = f && a.ring = r then closeArea (abortDone (areaMoved s)) s else s

/-- A fetch that is parked cannot be made: its descriptor completes with FLUSHED (R289). -/
def flushFetch (f r : Nat) (s : State) : State :=
  match fetchFault s f r with
  | some i => freeRecord f i (unfetched f r { status := stFlushed } s)
  | none => s

/-- R289: waiting descriptors complete with FLUSHED, on S3 posts not yet taken too; those in a DMA phase with ABORTED, and unfetched
ones as they are fetched. (DEDUCED, log 44) -/
def flushRing (f r : Nat) (s : State) : State :=
  let g := getRing s f r
  let s0 := modRing f r (fun x => { x with flushTo := some g.tail, flushUntil := some (monoNs s + 1000000) }) s
  let s1 := (g.descs.filter fun x => x.phase = .waiting || (r = 3 && x.phase = .ready)).foldl
    (fun t x => postDone f x { status := stFlushed } (dropDesc f r x.index t)) s0
  let s2 := flushArea f r s1
  fetchAll f (flushFetch f r (abandonWhere f (fun j => ofRing s2 f r j && !fetchOf f r j) s2))

/-- R289 on S3: posts that no delivery has begun to fill complete on C1 with FLUSHED. -/
def flushPosts (f : Nat) (s : State) : State :=
  let s1 := (getFn s f).posts.foldl (fun t p =>
    produce f 5 (Done.entry { status := stFlushed } p.tag opNop false t) (bump (fb f) Ct.RING_DESC t)) s
  flushRing f 3 (modFn f (fun x => { x with posts := [] }) s1)

/-- RING_Sx_CTRL.FLUSH (R289). (DEDUCED, log 44) -/
def flushCtrl (f r : Nat) (s : State) : State := if r < 3 then flushRing f r s else if r = 3 then flushPosts f s else s

/-- The flush of a ring is over: nothing that it acts on remains (R289). -/
def flushOver (s : State) (f r : Nat) : Bool :=
  let g := getRing s f r
  (match g.flushTo with
   | some t => (t - g.head).toInt ≤ 0
   | none => true) &&
  !(atWork s f fun j => ofRing s f r j && j.abort)

/-- R289: a flush unfinished after 1 ms forces the ring's remaining jobs to ABORTED; descriptors not fetched by then complete with
FLUSHED. (DESIGN CHOICE, log 42) -/
def doFlushTimeout (f r : Nat) (s : State) : State :=
  match (getRing s f r).flushUntil with
  | none => s
  | some t =>
    let s1 := modRing f r (fun x => { x with flushUntil := none, flushTo := none }) (fireTimer t s)
    if flushOver (fireTimer t s) f r then s1
    else
      let mine (j : Job) : Bool := ofRing s1 f r j && !fetchOf f r j
      let running := (s1.stevs.filterMap id).filter mine
      let s2 := freeRecords f (fetchOf f r) { s1 with
        jobs := s1.jobs.filter fun j => !fetchOf f r j
        stevs := s1.stevs.map fun o => o.filter fun j => !(mine j || fetchOf f r j) }
      let s3 := abandonWhere f mine (running.foldl (fun u j => abandonJob j (abortDone j.moved) u) s2)
      let left := match (getRing s f r).flushTo with
        | some u => (u - (getRing s3 f r).head).toInt.toNat
        | none => 0
      let s4 := modRing f r (fun x => { x with fetching := false }) s3
      slingOver f (fetchAll f ((List.range left).foldl (fun t _ => unfetched f r { status := stFlushed } t) s4))

/-- A descriptor whose job is in a DMA phase (R289). -/
def inDma (s : State) (f r : Nat) (x : DescS) : Bool :=
  x.phase = .gather || x.phase = .respond ||
    (s.jobs ++ s.stevs.filterMap id ++ parkedJobs s f).any fun j => j.fn = f && jobHome s j = some (r, x.index)

/-- R289 DROP: the ring's oldest descriptor in a DMA phase completes with ABORTED. -/
def dropCtrl (f r : Nat) (s : State) : State :=
  match (getRing s f r).descs.find? (inDma s f r) with
  | some x => abandonWhere f (fun j => j.fn = f && jobHome s j = some (r, x.index)) s
  | none => s

/-- R290: the ring is quiesced. -/
def ringQuiet (s : State) (f r : Nat) : Bool :=
  let g := getRing s f r
  !ringEn s f r && !g.fetching && (g.descs.all fun x => x.phase ≠ .waiting) &&
    !((s.stevs.filterMap id).any fun j => j.fn = f && j.what.writes r)

/-- The pending BASE and SIZE of a ring apply; its indices restart when they change (R265, R290). -/
def applyRing (f r : Nat) (s : State) : State :=
  let lo := ringKey f r Reg.RING_BASE_LO
  let hi := lo + 12
  let before := (rd s lo, rd s (lo + 4), rd s (lo + 8))
  let s1 := applyPending lo hi (fb f + Reg.RING_STATUS) (fun _ _ _ => true) s
  if (rd s1 lo, rd s1 (lo + 4), rd s1 (lo + 8)) = before then s1
  else modRing f r (fun x => { x with head := 0, tail := 0, lap := x.lap + 1 }) s1

/-- The pending block addresses of a function apply when all its rings are quiesced (R290). -/
def applyBlocks (f : Nat) (s : State) : State :=
  if (List.range 8).all fun r => ringQuiet s f r then
    applyPending (fb f + Reg.RING_DB_LO) (fb f + Reg.RING_LIVE) (fb f + Reg.RING_STATUS) (fun _ _ _ => true) s
  else s

/-- R290: a quiesced ring takes its pending values. -/
def doRingQuiesced (f r : Nat) (s : State) : State :=
  if ringQuiet s f r then applyBlocks f (applyRing f r s) else s

/-- Meaning of RING_QUIESCED. -/
def execRingQuiesced (f : Fn) (r : Fin 8) (s : State) : Host.Outcome State Fault Refusal :=
  act (doRingQuiesced f.val r.val) s

/-- A write to a buffered RING register: pending, and applied at once when its rings are quiesced (R40, R290). -/
def takeRingBuffered (f off : Nat) (v : Word) (s : State) : State :=
  let s1 := pendPut (fb f + off) v s
  if off < Reg.RING_BASE_LO then applyBlocks f s1 else doRingQuiesced f ((off - Reg.RING_BASE_LO) / 0x20) s1

/-- R50: one message on each vector that has an enabled pending bit set. -/
def pendingMessages (f : Nat) (s : State) : State :=
  let vecs := (List.range 256).filterMap fun c =>
    let bit (base : Nat) : Bool := bitAt (c % 32) (rd s (fb f + base + c / 32 * 4))
    if bit Reg.EVT_PEND && bit Reg.EVT_ENABLE then some (evtVector s f c) else none
  forBelow 16 (fun v t => if vecs.contains v then msix f v t else t) s

/-- R50, R276: a quiesced function whose rings are re-enabled takes part again, and its pending messages are sent.
(DEDUCED, log 44) -/
def unquiesce (f : Nat) (s : State) : State :=
  if (getFn s f).quiesced then
    let s1 := modFn f (fun x => { x with quiesced := false }) s
    let s2 := if fbit s (fb f) Fl.EVT_CTRL_ENABLE then pendingMessages f s1 else s1
    forBelow 8 (fun c t =>
      let w := rd t (ringKey f c Reg.RING_MOD)
      if c < 4 ∨ c = 7 ∨ !bitAt 4 w ∨ (getRing t f c).unsignalled = 0 then t
      else msix f (bitsOf 3 0 w) (modRing f c (fun x => { x with unsignalled := 0, oldest := none }) t)) s2
  else s

/-- R266, R291: EN becomes 1. -/
def enableRing (f r : Nat) (s : State) : State :=
  let k := ringKey f r Reg.RING_CTRL
  if ringEn s f r then s
  else if !blocksValid s f then ringError f r 3 s
  else
    let s1 := unquiesce f (wr k (setBitAt 0 (rd s k) true) s)
    let s2 := checkRing f r s1
    let s3 := if r ≥ 4 ∧ r ≠ 7 ∧ ((getFn s2 f).held.any fun p => p.1 = r) then
      modRing f r (fun x => { x with catching := some 0 }) s2 else s2
    fetchAll f (writeStatus f s3)

/-- Meaning of RING_ENABLE. -/
def execRingEnable (f : Fn) (r : Fin 8) (s : State) : Host.Outcome State Fault Refusal :=
  act (rowWrite f.val (ctrlOff r.val) 1 true (enableRing f.val r.val)) s

/-- R288, R290: EN becomes 0; a SITE 5 fault on the ring discards its held entries and the faulting one. -/
def disableRing (f r : Nat) (s : State) : State :=
  let k := ringKey f r Reg.RING_CTRL
  if !ringEn s f r then s
  else
    let s1 := modRing f r (fun x => { x with catching := none }) (wr k (setBitAt 0 (rd s k) false) s)
    let s2 := match entryFault s1 f r with
      | some i =>
        let n := ((getFn s1 f).held.filter fun p => p.1 = r).length
        loseEntries f (n + 1) (freeRecord f i (modFn f (fun x => { x with held := x.held.filter fun p => p.1 ≠ r }) s1))
      | none => s1
    writeStatus f (doRingQuiesced f r s2)

/-- Meaning of RING_DISABLE. -/
def execRingDisable (f : Fn) (r : Fin 8) (s : State) : Host.Outcome State Fault Refusal :=
  act (rowWrite f.val (ctrlOff r.val) 0 true (disableRing f.val r.val)) s

/-- R263: the harbour master function's view takes a grant word for function `g`. -/
def takeGrant (f g : Nat) (v : Word) (s : State) : State :=
  let k := fb f + Reg.RING_GRANT + 4 * g
  let w := v &&& (if s.otp.is2614 then 0x7FF9F else 0x7FFFF)
  if bitAt 19 v ∨ bitAt 20 v then reject (fb f + Reg.RING_STATUS) s
  else if g = hmFn s then s
  else wr k w s

/-- Meaning of RING_GRANT_WRITE. -/
def execRingGrantWrite (f g : Fn) (v : Word) (s : State) : Host.Outcome State Fault Refusal :=
  act (rowWrite f.val (Reg.RING_GRANT + 4 * g.val) v true (takeGrant f.val g.val v)) s

/-! ### Functions and ports -/

/-- R291: the function is quiesced. -/
def quiesce (f result : Nat) (s : State) : State :=
  let s1 := forBelow 8 (fun r t =>
    let k := ringKey f r Reg.RING_CTRL
    modRing f r (fun x => { x with catching := none }) (wr k (setBitAt 0 (rd t k) false) t)) s
  raise (219 + 4 * f) result (modFn f (fun x => { x with quiesced := true, doorbell := none, statusDue := false, evtDue := [] }) s1)

/-- R291: LIVE_MS without activity. -/
def doLivenessExpiry (f : Nat) (s : State) : State :=
  let ms := fget s (fb f) Fl.RING_FN_CTRL_LIVE_MS
  if ms = 0 ∨ (getFn s f).quiesced then s else quiesce f 0 (fireTimer ((getFn s f).liveMono + 1000000 * ms) s)

/-- Meaning of LIVENESS_EXPIRY. -/
def execLivenessExpiry (f : Fn) (s : State) : Host.Outcome State Fault Refusal := act (doLivenessExpiry f.val) s

/-- The jobs of a port in progress are abandoned at their sling and ready again (R292). -/
def portJobsBack (p : Nat) (s : State) : State :=
  let mine (o : Option Job) : Bool := match o with
    | some j => portOf j.fn = p
    | none => false
  let back := (s.stevs.filter mine).filterMap id
  { s with stevs := s.stevs.map fun o => if mine o then none else o, jobs := s.jobs ++ back }

/-- R292: a port's link goes down. (DEDUCED, log 41) -/
def linkDown (p : Nat) (s : State) : State :=
  let s1 := portJobsBack p (modPort p (fun q => { q with linkUp := false, invals := [] }) s)
  forBelow 4 (fun i t => quiesce (4 * p + i) 1 t) s1

/-- R292: the link of port `p` goes down, where it was up. -/
def doPortLinkDown (p : Nat) (s : State) : State :=
  if (getPort s p).linkUp then linkDown p s else s

/-- Meaning of PORT_LINK_DOWN. -/
def execPortLinkDown (p : Fin 2) (s : State) : Host.Outcome State Fault Refusal := act (doPortLinkDown p.val) s

/-- R292, R402: the link comes up while PERST_N is high. -/
def doPortLinkUp (p : Nat) (s : State) : State :=
  modPort p (fun q => { q with linkUp := q.linkUp || q.perstHigh }) s

/-- Meaning of PORT_LINK_UP. -/
def execPortLinkUp (p : Fin 2) (s : State) : Host.Outcome State Fault Refusal := act (doPortLinkUp p.val) s

/-- R262: Bus Master Enable, as the host's configuration write leaves it. (DEDUCED, log 41) -/
def setBusMaster (f : Nat) (on : Bool) (s : State) : State :=
  if hostReady s f then modFn f (fun x => { x with busMaster := on }) s else s

/-- R261, R262: Bus Master Enable is set, with the ATS and PRI capabilities and Max_Payload_Size (256 or 128 bytes) as the host has
configured them by then. (DEDUCED, log 41) -/
def doBusMasterEnable (f : Nat) (ats pri payload256 : Bool) (s : State) : State :=
  if hostReady s f then
    setBusMaster f true (modFn f (fun x => { x with ats := ats, pri := pri, maxPayload := if payload256 then 256 else 128 }) s)
  else s

/-- What a function shows in its PCI Express configuration header (R262): Device ID, class code, and the sizes of its two BARs.
The Vendor ID is Cleoskam's, whose number the spec does not give. -/
structure PcieHeader where
  device : BitVec 16
  classCode : BitVec 24
  bar0 : Nat
  bar2 : Nat
  deriving DecidableEq, Repr

/-- The configuration header of every function (R34, R262). -/
def pcieHeader (s : State) : PcieHeader := ⟨if s.otp.is2614 then 0x2614 else 0x2618, 0x0D8000, 65536, 4096⟩

/-- A word of BAR2 (R262): the MSI-X table at 0x000, of whose 16-byte entries the mask bit is held, and the pending-bit array at 0x800.
(PRESUMED, log 68) -/
def bar2Word (s : State) (f off : Nat) : Option Word :=
  if off < 0x100 then
    if off % 16 = 12 then some (if (getFn s f).msixMask.getD (off / 16) false then 1 else 0) else none
  else if off = 0x800 then
    some (BitVec.ofNat 32 (((List.range 16).map fun v => if (getFn s f).msixPend.getD v false then 2 ^ v else 0).sum))
  else none

/-- Meaning of BUS_MASTER_DISABLE. -/
def execBusMasterDisable (f : Fn) (s : State) : Host.Outcome State Fault Refusal := act (setBusMaster f.val false) s

/-- Meaning of BUS_MASTER_ENABLE. -/
def execBusMasterEnable (f : Fn) (ats pri payload256 : Bool) (s : State) : Host.Outcome State Fault Refusal :=
  act (doBusMasterEnable f.val ats pri payload256) s

end Sys2Proof.Machine
end

