-- ==== Sys2Proof/Machine/Svc.lean ====
section
/-!
DEFINITION. The service engine downward (R225 to R250, R256, R257): options, sizes, fragments, routes, transactions, fan-outs,
MPL messages, datagrams and raw frames.
-/

namespace Sys2Proof.Machine

/-- The service engine changed. -/
def modSvc (g : SvcS → SvcS) (s : State) : State := { s with svc := g s.svc }

/-! ### Sizes -/

/-- Octets of the CoAP message (R227, R230, R234): header and token, then the envelope, or options, Timed IE and payload. -/
def coapLen (body : List Byte) (sealed timed : Bool) : Nat :=
  if sealed then 8 + 1 + 2 + 18 + (if timed then 5 else 0) + body.length
  else if timed then
    8 + body.length + 11 + (match optInfo body with
      | some i => if i.payload then 0 else 1
      | none => 1)
  else 8 + body.length

/-- Uncompressed octets of the headers before the UDP payload: IPv6, routing header of m hops, UDP (R216, R229). -/
def headLen (hops : Nat) : Nat := 40 + (if hops ≤ 1 then 0 else 8 * hops) + 8

/-- UDP ports as NHC carries them (R235). -/
def portsLen (a b : Nat) : Nat :=
  if 0xF0B0 ≤ a ∧ a ≤ 0xF0BF ∧ 0xF0B0 ≤ b ∧ b ≤ 0xF0BF then 1
  else if (0xF000 ≤ a ∧ a ≤ 0xF0FF) ∨ (0xF000 ≤ b ∧ b ≤ 0xF0FF) then 3
  else 4

/-- Compressed octets of the headers (R235): IPHC with its context octet, 8 more where the link destination is not the
EUI-64, the routing header, and UDP. -/
def headCompressed (hops : Nat) (euiDst : Bool) (ports : Nat) : Nat :=
  3 + (if euiDst then 0 else 8) + (if hops ≤ 1 then 0 else 8 + 8 * (hops - 1)) + 1 + ports + 2

/-- Compressed octets of the headers of a group message: 6 inline octets and the Hop-by-Hop header (R235, R250). -/
def mplCompressed (ports : Nat) : Nat := 3 + 6 + 8 + 1 + ports + 2

/-! ### Fragments -/

/-- The fragments of a packet as (offset, uncompressed length, octets of the frame payload) (R236): `budget` is B, `hc` and `hu`
the compressed and uncompressed headers, `n` the octets after them. -/
def fragRest (budget size : Nat) : Nat → Nat → List (Nat × Nat × Nat)
  | 0, _ => []
  | fuel + 1, off =>
    let room := (budget - 5) / 8 * 8
    if size ≤ off ∨ room = 0 then []
    else
      let n := min room (size - off)
      (off, n, 5 + n) :: fragRest budget size fuel (off + n)

/-- FRAG1, then the FRAGN fragments (R236). -/
def fragments (budget hc hu n : Nat) : List (Nat × Nat × Nat) :=
  let room := budget - (4 + hc)
  let cover := (hu + min room n) / 8 * 8
  let first := cover - hu
  (0, cover, 4 + hc + first) :: fragRest budget (hu + n) (hu + n) cover

/-- The packet travels in one frame of this payload, or in fragments. -/
def needsFragments (budget hc n : Nat) : Bool := budget < hc + n

/-! ### Routes -/

/-- A route for a downward packet (R208, R216): the hops from the first on, and the first hop's home neighbour handle, none for a
flood. -/
structure Route where
  hops : List Eui
  first : Option (Nat × Nbr)
  deriving DecidableEq, Repr

/-- A target: a directory entry or a stray (R239). -/
inductive Target where
  | node (h : Handle)
  | stray (x : Stray)
  deriving DecidableEq, Repr

/-- The target that an EUI-64 names: a directory entry, else a stray (R207, R239). -/
def targetOf (s : State) (e : Eui) : Option Target :=
  match lookup s e with
  | some h => some (.node h)
  | none => (s.tables.strays.find? fun x => x.eui = e).map .stray

/-- The EUI-64s of handles. -/
def euisOf (s : State) (hs : List Handle) : List Eui := hs.filterMap fun h => (dirGet s h).map DirEnt.eui

/-- The walk to a node with its effects, and the status where it fails (R214, R215): POISONED for a SUSPECT one. -/
def walkTo (h : Handle) (m : HoldRead) (s0 : State) : Except Nat Walk × State :=
  let s := dirSee h m s0
  let w := walkOf s h
  (if w.good then .ok w else .error (if dirSuspect s h then stPoisoned else stNoRoute), walkEffects h w m s)

/-- The route to a target, with the effects of its walk, or the status where that fails (R208, R214, R215). -/
def routeTo (t : Target) (m : HoldRead) (s : State) : Except Nat Route × State :=
  match t with
  | .node h =>
    match walkTo h m s with
    | (.error st, s1) => (.error st, s1)
    | (.ok w, s1) =>
      let first := if w.status = .ok then
        (w.hops.head?.bind fun x => dirGet s x).bind fun d => (nbrGet s d.nbr).map fun n => (d.nbr, n) else none
      (.ok ⟨euisOf s w.hops, first⟩, s1)
  | .stray x =>
    match x.parent with
    | none => (.ok ⟨[x.eui], none⟩, s)
    | some p =>
      match walkTo p m s with
      | (.error st, s1) => (.error st, s1)
      | (.ok w, s1) => (.ok ⟨euisOf s w.hops ++ [x.eui], none⟩, s1)

/-- The link destination of a route's frames (R190, R208). -/
def Route.linkDst (r : Route) : Addr :=
  match r.first with
  | some (_, n) => if n.shortSeen ∧ n.short ≠ 0xFFFE then .short n.short else .eui n.eui
  | none => Addr.broadcast

/-- The link destination is the first hop's EUI-64 (R235). -/
def Route.euiDst (r : Route) : Bool :=
  match r.linkDst with
  | .eui _ => true
  | .short _ | .none => false

/-- The largest PSDU of a route's frames (R236): that of the home berth's mode, and for a flood the least of the berths that send
it. -/
def Route.pMax (s : State) (r : Route) : Nat :=
  match r.first with
  | some (h, _) =>
    let n := h / 2048
    Sys2Proof.Machine.pMax (tsMaxTx s) (berthMode s n) (txCoded s n (berthMode s n))
  | none => (txBerths s).foldl (fun m n => min m (bcastMax s n)) 2047

/-- FCS octets of the frames of a route. -/
def Route.fcs (s : State) (r : Route) : Nat :=
  match r.first with
  | some (h, _) => fcsLen s (h / 2048) (berthMode s (h / 2048))
  | none => (txBerths s).foldl (fun m n => max m (bcastFcs s n)) 2

/-- The link security level of a route's frames (R322). -/
def Route.level (s : State) (r : Route) : Nat :=
  if r.first.isSome then fget s 0 Fl.KEY_LINK_CFG_LEVEL else fget s 0 Fl.KEY_LINK_CFG_BCAST_LEVEL

/-- The first hop's link key is available where the frames are to be secured (R323). -/
def Route.keyOk (s : State) (r : Route) : Bool :=
  match r.first with
  | some (_, n) => fget s 0 Fl.KEY_LINK_CFG_LEVEL = 0 || (linkKey s n.eui).isSome
  | none => true

/-- One frame of a route goes to the MAC engine: to the home neighbour, or once by each berth that transmits (R208). Answers how
many copies went. -/
def sendOne (r : Route) (cls : TxClass) (owner : TxOwner) (guard : Option SlotName) (len : Nat) (u : Upper) (s : State) :
    Nat × State :=
  let d := takeDsn s
  match r.first with
  | some (_, n) =>
    let node := n.node
    (1, offer cls (.unicast node n.eui) owner (dataFrame d.2 r.linkDst (some d.1) true u) len none none none guard d.2)
  | none =>
    let bs := txBerths s
    let f := dataFrame d.2 r.linkDst (some d.1) false u
    let s1 := bs.foldl (fun t b => offer cls (.broadcast b) owner f len none none none guard t) d.2
    (bs.length, raise 107 bs.length (bump 0 Ct.ROUTE_FLOOD s1))

/-- R216, R235, R236: a packet on a route is compressed, fragmented where it must be, and its frames are queued in order.
Answers how many frames the MAC engine holds of it. -/
def sendPacket (r : Route) (cls : TxClass) (owner : TxOwner) (guard : Option SlotName) (p : Packet) (hc hu n : Nat) (s : State) :
    Nat × State :=
  let extra := frameOverhead r.linkDst (r.level s) (r.fcs s)
  let budget := r.pMax s - extra
  if needsFragments budget hc n then
    let tag := fget s 0 Fl.SVC_FRAG_TAG
    let s1 := fset 0 Fl.SVC_FRAG_TAG (tag + 1) s
    (fragments budget hc hu n).foldl (fun acc x =>
      let one := sendOne r cls owner guard (extra + x.2.2) (.fragment tag p.size x.1 x.2.1 0 p) acc.2
      (acc.1 + one.1, one.2)) (0, s1)
  else sendOne r cls owner guard (extra + hc + n) (.packet p) s

/-- A packet of the device along a route (R216, R228, R235): its IPv6 destination is the first hop's address, and the others stand in
the routing header. -/
def routedPacket (s : State) (r : Route) (size : Nat) (body : Body) : Packet where
  dispatch := .iphc (some (0, 0)) false true 3 true (if r.euiDst then 3 else 1)
  src := deviceAddr s
  dst := Ip6.of (routePrefix s) (r.hops.headD 0)
  exts := if r.hops.length ≤ 1 then [] else [.routing 3 (r.hops.length - 1) 8 8 (r.hops.drop 1)]
  udpC := false
  size := size
  body := body

/-- A packet of the device to a multicast address, whose inline part `dam` selects (R235, R250). -/
def castPkt (s : State) (dst : Ip6) (dam : Nat) (exts : List ExtHdr) (size : Nat) (body : Body) : Packet :=
  ⟨.iphc (some (0, 0)) true true 3 false dam, deviceAddr s, dst, exts, false, size, body⟩

/-- The ports of R228. -/
def portLocal (s : State) : Nat := fget s 0 Fl.SVC_PORT_LOCAL
/-- R228. -/
def portNode (s : State) : Nat := fget s 0 Fl.SVC_PORT_NODE

/-- A CoAP message of `len` octets goes down a route to a port of the node (R229): none where it does not fit, else the frames
queued. -/
def sendCoap (r : Route) (cls : TxClass) (owner : TxOwner) (guard : Option SlotName) (port : Nat) (m : Coap) (len : Nat)
    (s : State) : Option Nat × State :=
  let k := r.hops.length
  let hu := headLen k
  if 1280 < hu + len then (none, s)
  else
    let p := routedPacket s r (hu + len) (.coap (portLocal s) port m)
    let x := sendPacket r cls owner guard p (headCompressed k r.euiDst (portsLen (portLocal s) port)) hu len s
    (some x.1, x.2)

/-! ### Transactions -/

/-- The transaction of a token. -/
def getTxn (s : State) (tok : Word) : Option Txn := s.svc.txns.find? fun t => t.token = tok

/-- A transaction changed. -/
def modTxn (tok : Word) (g : Txn → Txn) (s : State) : State :=
  modSvc (fun x => { x with txns := x.txns.map fun t => if t.token = tok then g t else t }) s

/-- The incarnation (R13). -/
def incarnation (s : State) : Nat := s.flash.boot.incarnation.toNat

/-- The next token of a function, and the state after taking it (R237). -/
def takeToken (f : Nat) (s : State) : Word × State :=
  let q := (getFn s f).tokenSeq
  (BitVec.ofNat 32 (incarnation s * 2 ^ 28 + f * 2 ^ 25 + q.toNat), modFn f (fun x => { x with tokenSeq := x.tokenSeq + 1 }) s)

/-- The next message ID, and the state after taking it (R238). -/
def takeMid (s : State) : BitVec 16 × State :=
  let v := fget s 0 Fl.SVC_MID_NEXT_MID
  (BitVec.ofNat 16 v, fset 0 Fl.SVC_MID_NEXT_MID (v + 1) s)

/-- The guard slot of a message (R243). -/
def guardOf (s : State) (actAt : Option SlotName) : Option SlotName :=
  actAt.map fun a => a.subSlots (fget s 0 Fl.SVC_TIMED_CFG_GUARD_SLOTS)

/-- The current slot is at or after `n` (R73). -/
def slotReached (s : State) (n : SlotName) : Bool := slotDist n s.time.name ≥ 0

/-- The lead check of R243. -/
def leadOk (s : State) (actAt : Option SlotName) : Bool :=
  match actAt with
  | none => true
  | some a => (fget s 0 Fl.SVC_TIMED_CFG_LEAD_SLOTS : Int) ≤ slotDist s.time.name a

/-- The target's handle for a record, none for a stray (R242). -/
def Target.handle : Target → Handle
  | .node h => h
  | .stray _ => noNode

/-- The frames of a transaction that the MAC engine holds are withdrawn. -/
def withdrawTxn (tok : Word) (s : State) : State := withdraw (fun q => q.owner = .txn tok.toNat) s

/-- A frame of the owner is on air. -/
def ownerOnAir (s : State) (o : TxOwner) : Bool := s.berths.any fun b => b.onAir.any fun t => t.queued.any fun q => q.owner = o

/-- A frame of the owner has been tried on air, or is on air. -/
def anyTried (s : State) (o : TxOwner) : Bool := (s.mac.queue.any fun q => q.owner = o && 0 < q.attempts) || ownerOnAir s o

/-- A frame of the present transmission has started (R242). -/
def Txn.started (s : State) (t : Txn) : Bool := t.begun || anyTried s (.txn t.token.toNat)

/-- CoAP transmissions made, the present one among them where a frame of it has started (R242). -/
def Txn.madeNow (s : State) (t : Txn) : Nat := t.made + (if t.phase = .sending && t.started s then 1 else 0)

/-- What ends a transaction (R240, R242). -/
structure TxnEnd where
  status : Nat
  code : Nat
  content : List Byte
  opened : Bool
  rst : Bool
  poisoned : Bool
  ts : Option Instant
  /-- A timed message fails its lead check or its guard (R243, R260). -/
  timed : Bool
  deriving DecidableEq, Repr

/-- An end with nothing but a status. -/
def TxnEnd.of (status : Nat) : TxnEnd := ⟨status, 0, [], false, false, false, none, false⟩

/-- A timed message fails its lead check or its guard (R243). -/
def TxnEnd.late : TxnEnd := { TxnEnd.of stTooLate with timed := true }

/-- SVC counters that follow a completion's status (R259), and event 123 where a timed message fails its lead check or its guard
(R243, R260). -/
def countEnd (status : Nat) (timed : Bool) (node : Handle) (s : State) : State :=
  if status = stOk then bump 0 Ct.SVC_TXN_OK s
  else if status = stTimeout then bump 0 Ct.SVC_TXN_TIMEOUT s
  else if status = stTooLate then
    let s1 := bump 0 Ct.SVC_TOO_LATE s
    if timed then raiseNode 123 0 node s1 else s1
  else s

/-- R242: the C0 entry of a MSG_SEND. -/
def txnDone (t : Txn) (e : TxnEnd) : Done :=
  let n := min e.content.length t.respLen
  let b (c : Bool) (k : Nat) : Nat := if c then 2 ^ k else 0
  { status := e.status
    result := n + b (t.respLen < e.content.length) 11 + b e.opened 12 + b e.rst 13 + b t.acked 14 + e.code * 2 ^ 16
    node := t.handle.getD noNode
    aux := t.token.toNat + min 16 t.made * 2 ^ 32
    ts := e.ts }

/-- The entry of a transaction leaves the table. -/
def dropTxn (tok : Word) (s : State) : State := modSvc (fun x => { x with txns := x.txns.filter fun t => t.token ≠ tok }) s

/-- R240: a transaction of a MSG_SEND completes; its response is written first. -/
def finishSend (t : Txn) (e : TxnEnd) (s : State) : State :=
  let s1 := countEnd e.status e.timed (t.handle.getD noNode) (dropTxn t.token s)
  respond t.fn t.ring t.index t.respAddr (e.content.take t.respLen) e.poisoned (txnDone { t with made := t.madeNow s } e) s1

/-- A group job by its id. -/
def getGroup (s : State) (id : Nat) : Option GroupJob := s.svc.groups.find? fun g => g.id = id

/-- A group job changed. -/
def modGroup (id : Nat) (g : GroupJob → GroupJob) (s : State) : State :=
  modSvc (fun x => { x with groups := x.groups.map fun j => if j.id = id then g j else j }) s

/-- R248: what becomes of a fan-out member. -/
def memberEnd (id : Nat) (handle : Handle) (sent : Bool) (e : TxnEnd) (s : State) : State :=
  match getGroup s id with
  | none => s
  | some g =>
    let ok : Bool := e.status = stOk
    let s1 := modGroup id (fun x => { x with
      anySent := x.anySent || sent
      succeeded := if ok then x.succeeded + 1 else x.succeeded
      failed := if ok then x.failed else x.failed + 1
      cause := if ok ∨ x.cause ≠ 0 then x.cause else e.status }) s
    if ok then s1
    else
      let s2 := raiseNode 125 e.status handle (bump 0 Ct.SVC_FANOUT_FAIL s1)
      if g.report then
        produce g.fn (returnRing g.ring) (Done.entry { status := e.status, node := handle } g.tag opMsgGroup true s2) s2
      else s2

/-- The keys of R233 for new outbound use: none where the mould is missing, the sequence exhausted, or the target a stray.
(DEDUCED, log 36) -/
def sealReady (s : State) (t : Target) : Option (CastKey × DirEnt) :=
  match t with
  | .stray _ => none
  | .node h =>
    match dirGet s h with
    | none => none
    | some d => (sealKey s d.eui).map fun k => (k, d)

/-- R243, R248: the coding of RETRY_MAX (R239). -/
def retries (s : State) (max : Nat) : Nat := if max = 0 then fget s 0 Fl.SVC_COAP_CFG_MAX_RETX else max

/-- R230 to R232: the envelope of a message with this code and token is built once, with the node's next sequence. -/
def buildSeal (h : Handle) (k : CastKey) (d : DirEnt) (actAt : Option SlotName) (code : Nat) (token plain : List Byte)
    (s : State) : Seal × State :=
  (⟨1, 4, d.castGen.toNat % 64, d.sealTxSeq, actAt.map SlotName.asn, k, s.otp.eui, false, code, token, true, plain⟩,
   useCast (fget s 0 Fl.SVC_SEAL_CFG_MOULD) false d.eui d.castGen (dirMod h (fun x => { x with sealTxSeq := x.sealTxSeq + 1 }) s))

/-- The CoAP message of a transaction (R227, R230, R234). -/
def Txn.message (t : Txn) : Coap where
  typ := if t.con then .con else .non
  code := t.code
  mid := t.mid
  token := beBytes 4 t.token.toNat
  body := if t.envelope.isSome then [] else t.body
  wellFormed := true
  envelope := t.envelope
  timedAt := if t.envelope.isSome then none else t.actAt.map SlotName.asn
  report := none

/-- Where a transaction's target stands now (R207, R240: a walk is repeated for every retransmission): its entry while that is its own,
else what its EUI-64 names. (DEDUCED, log 36) -/
def Txn.goal (s : State) (t : Txn) : Option Target :=
  match t.handle with
  | some h => if (dirGet s h).any fun d => d.eui = t.target then some (.node h) else targetOf s t.target
  | none => targetOf s t.target

/-- A target's handle, none for a stray. -/
def Target.node? : Target → Option Handle
  | .node h => some h
  | .stray _ => none

/-- R240 step 4: the phase that a transmission enters whose frames have all ended, or that made none. (DESIGN CHOICE, log 76) -/
def Txn.afterSending (s : State) (t : Txn) : Txn :=
  if t.con then { t with made := t.made + 1, phase := .waitAck, ackMono := some (monoNs s + t.timeoutMs * 1000000) }
  else
    { t with
      made := t.made + 1
      phase := .waitResp
      respMono := some (monoNs s + fget s 0 Fl.SVC_COAP_WAIT_RESP_WAIT_S * 1000000000) }

/-- R240 steps 2 and 3: a transmission of a transaction; the status of its refusal, if it is refused. A flood that no berth sends makes
no frame (R208): a CON then waits for its timeout all the same, and a NON that awaits nothing ends with TIMEOUT.
(DESIGN CHOICE, log 76) -/
def transmit (t : Txn) (m : HoldRead) (s : State) : Option Nat × State :=
  match t.goal s with
  | none => (some stNodeUnknown, s)
  | some tg =>
    match routeTo tg m s with
    | (.error st, s1) => (some st, s1)
    | (.ok r, s1) =>
      let len := coapLen t.body t.sealed t.actAt.isSome
      if 1280 < headLen r.hops.length + len then (some stRejected, s1)
      else if !r.keyOk s1 then (some stKeyStale, keyStale (t.handle.getD noNode) s1)
      else
        let env : Option Seal × State :=
          match t.sealed, t.envelope, sealReady s1 tg with
          | true, none, some (k, d) =>
            let b := buildSeal tg.handle k d t.actAt t.code (beBytes 4 t.token.toNat) t.body s1
            (some b.1, b.2)
          | _, e, _ => (e, s1)
        let t1 := { t with envelope := env.1 }
        let x := sendCoap r t.cls (.txn t.token.toNat) (guardOf s t.actAt) (portNode s) t1.message len env.2
        let t2 : Txn := { t1 with
          handle := tg.node?.orElse fun _ => t.handle
          phase := .sending
          framesLeft := x.1.getD 0
          ackMono := none
          begun := false }
        if 0 < t2.framesLeft then (none, modTxn t.token (fun _ => t2) x.2)
        else if t.con ∨ 0 < t.respLen then (none, modTxn t.token (fun _ => t2.afterSending x.2) x.2)
        else (some stTimeout, x.2)

/-- The first ACK timeout in ms (R240): its lower bound while the DRBG is blocked (R328). (DEDUCED, log 37) -/
def firstTimeout (s : State) : Nat :=
  let ms := fget s 0 Fl.SVC_COAP_CFG_ACK_TIMEOUT_MS
  if drbgOn s then ms + (drawn s).toNat % (ms / 2 + 1) else ms

/-- The parts of a message that its descriptor gives (R239, R247). -/
structure MsgSpec where
  fn : Nat
  ring : Nat
  index : Nat
  tag : Word
  group : Option Nat
  con : Bool
  code : Nat
  cls : TxClass
  sealed : Bool
  retx : Nat
  actAt : Option SlotName
  deadline : Option SlotName
  respAddr : Nat
  respLen : Nat
  body : List Byte
  deriving DecidableEq, Repr

/-- R237, R240: the transaction is entered in the table and transmitted. Answers its token and the status of a refusal. -/
def openTxn (m : MsgSpec) (e : Eui) (h : Option Handle) (read : HoldRead) (s : State) : Txn × Option Nat × State :=
  let tok := takeToken m.fn s
  let mid := takeMid tok.2
  let t : Txn := ⟨tok.1, m.fn, m.ring, m.index, m.tag, m.group, e, h, mid.1, m.con, m.code, m.cls, m.body, none, m.sealed, .sending,
    retries s m.retx, firstTimeout s, none, none, m.deadline, m.actAt, m.respAddr, m.respLen, 0, false, false, 0, false⟩
  let s1 := modSvc (fun x => { x with txns := x.txns ++ [t] }) (if m.con ∧ drbgOn s then advanceDraws mid.2 else mid.2)
  let r := transmit t read s1
  match r.1 with
  | none => (t, none, r.2)
  | some st => (t, some st, r.2)

/-- The table or the pool cannot hold the message (R237). -/
def txnRoom (s : State) (m : MsgSpec) : Bool :=
  s.svc.txns.length < 65536 && cellsOpen s (cellsFor (m.body.length + 256))

/-- R237: TABLE_FULL. -/
def tableFull (node : Handle) (s : State) : State := raiseNode 112 0 node (bump 0 Ct.SVC_TXN_FULL s)

/-- The checks of R240 step 1 on a target that exists (R218, R232, R233, R237, R243): the status of the first that fails. -/
def checkTarget (m : MsgSpec) (t : Target) (s : State) : Option Nat × State :=
  let owns : Bool := match t with
    | .stray _ => m.fn = hmFn s
    | .node h => m.fn = hmFn s || ((dirGet s h).map DirEnt.tenant) = some m.fn
  let late : Bool := match m.deadline with
    | some d => slotReached s d
    | none => false
  if !owns then (some stRejected, s)
  else if !leadOk s m.actAt ∨ late then (some stTooLate, s)
  else if m.sealed then
    match sealReady s t with
    | none => (some stKeyStale, keyStale t.handle s)
    | some (_, d) =>
      if d.sealTxSeq = 0xFFFFFF then (some stKeyStale, raiseNode 113 0 t.handle s)
      else if txnRoom s m then (none, s)
      else (some stTableFull, tableFull t.handle s)
  else if txnRoom s m then (none, s)
  else (some stTableFull, tableFull t.handle s)

/-- Start the fan-out's next members, at most as many as may be outstanding (R248), where its reads meet `read`. -/
def fanout (id : Nat) (read : HoldRead) : Nat → State → State
  | 0, s => s
  | fuel + 1, s =>
    match getGroup s id with
    | none => s
    | some g =>
      if fget s 0 Fl.SVC_GROUP_CFG_FANOUT_OUTSTANDING ≤ g.outstanding then s
      else
        let member (p : Handle × DirEnt) : Bool :=
          g.next ≤ p.1 && (g.group = 4095 || p.2.groups.contains g.group) && (g.fn = hmFn s || p.2.tenant = g.fn)
        match s.tables.dir.find? member with
        | none => s
        | some (h, d) =>
          let m : MsgSpec := ⟨g.fn, g.ring, g.index, g.tag, some id, g.con, g.code, g.cls, g.sealed, g.retxMax, g.actAt, g.deadline, 0, 0,
            g.body⟩
          let s1 := dirSee h read (modGroup id (fun x => { x with next := h + 1 }) s)
          if dirSuspect s1 h then fanout id read fuel (memberEnd id h false (TxnEnd.of stPoisoned) s1)
          else
            match checkTarget m (.node h) s1 with
            | (some st, s2) =>
              fanout id read fuel (memberEnd id h false (TxnEnd.of st) (countEnd st (!leadOk s1 g.actAt) h s2))
            | (none, s2) =>
              match openTxn m d.eui (some h) read s2 with
              | (t, some st, s3) =>
                fanout id read fuel (memberEnd id h false (TxnEnd.of st) (countEnd st false h (dropTxn t.token s3)))
              | (_, none, s3) => fanout id read fuel (modGroup id (fun x => { x with outstanding := x.outstanding + 1 }) s3)

/-- R249: a fan-out whose members are all done completes with its summary. -/
def groupOver (id : Nat) (s : State) : State :=
  match getGroup s id with
  | none => s
  | some g =>
    if 0 < g.outstanding then s
    else
      let status := if g.anySent then stOk else if g.cause = 0 then stOk else g.cause
      let s1 := raise 124 g.group (modSvc (fun x => { x with groups := x.groups.filter fun j => j.id ≠ id }) s)
      finishDesc g.fn g.ring g.index
        { status := status, result := g.members, aux := g.succeeded + g.failed * 4294967296 } s1

/-- The fan-out goes on, and completes when its last member is done (R248, R249). -/
def fanoutOn (id : Nat) (read : HoldRead) (s : State) : State := groupOver id (fanout id read (s.tables.dir.length + 1) s)

/-- R240, R248: a transaction completes, as a message of its own or as a member of its fan-out. -/
def finishTxn (t : Txn) (e : TxnEnd) (s : State) : State :=
  match t.group with
  | none => finishSend t e s
  | some id =>
    let s1 := countEnd e.status e.timed (t.handle.getD noNode) (dropTxn t.token s)
    let s2 := memberEnd id (t.handle.getD noNode) (t.sent || 0 < t.madeNow s) e s1
    fanoutOn id .clean (modGroup id (fun x => { x with outstanding := x.outstanding - 1 }) s2)

/-! ### MSG_SEND -/

/-- TARGET_HANDLE and TARGET_EUI resolved (R239). -/
def resolve (handle : Nat) (e : Eui) (s : State) : Option Target :=
  if handle = noNode then targetOf s e
  else
    match dirGet s handle with
    | some d => if d.eui = e then some (.node handle) else none
    | none => none

/-- The class of a downward frame (R226). -/
def classOf (priority ring : Nat) : TxClass :=
  if priority % 4 = 2 ∨ (priority % 4 = 0 ∧ ring = 0) then .urgent else .bulk

/-- R227: the status of a host's options, if they are refused. -/
def bodyStatus (body : List Byte) : Option Nat :=
  match optInfo body with
  | none => some stBadDesc
  | some i => if i.refused then some stRejected else none

/-- A descriptor is refused before it becomes a transaction (R242, R258). (DEDUCED, log 36) -/
def refuse (f : Nat) (x : DescS) (st : Nat) (node : Handle) (timed : Bool) (s : State) : State :=
  finishDesc f x.ring x.index { status := st, node := node } (countEnd st timed node s)

/-- The target's entry is read (R200): uncorrectable words make it SUSPECT. -/
def targetRead (t : Target) (m : HoldRead) (s : State) : State :=
  match t with
  | .node h => dirSee h m s
  | .stray _ => s

/-- The target is SUSPECT (R200). -/
def targetSuspect (s : State) (t : Target) : Bool :=
  match t with
  | .node h => dirSuspect s h
  | .stray _ => false

/-- The lookup of a target by its EUI-64 meets an uncorrectable bucket, and its command completes with POISONED (R205). -/
def lookupPoisoned (handle : Nat) (m : HoldRead) : Bool := handle = noNode && bucketHit m

/-- The message of a MSG_SEND descriptor (R239). -/
def sendSpec (f : Nat) (x : DescS) : MsgSpec where
  fn := f
  ring := x.ring
  index := x.index
  tag := x.tag
  group := none
  con := !(x.byte 33).testBit 2
  code := x.byte 32
  cls := classOf (x.byte 33) x.ring
  sealed := (x.byte 35).testBit 0
  retx := x.byte 34
  actAt := (x.slotName 36).name
  deadline := (x.slotName 42).name
  respAddr := x.num 48 8
  respLen := x.num 56 4
  body := x.payload

/-- R240: a MSG_SEND whose payload is in the hold. -/
def msgSend (f : Nat) (x : DescS) (m : HoldRead) (s : State) : State :=
  let spec := sendSpec f x
  if !sendOn s then refuse f x stRejected noNode false s
  else
    match bodyStatus x.payload with
    | some st => refuse f x st noNode false s
    | none =>
      let s0 := dirHit m s
      if lookupPoisoned (x.num 28 4) m then refuse f x stPoisoned noNode false s0
      else
        match resolve (x.num 28 4) (BitVec.ofNat 64 (x.num 20 8)) s0 with
        | none => refuse f x stNodeUnknown noNode false s0
        | some t =>
          let s1 := targetRead t m s0
          if targetSuspect s1 t then refuse f x stPoisoned t.handle false s1
          else
            match checkTarget spec t s1 with
            | (some st, s2) => refuse f x st t.handle (!leadOk s1 spec.actAt) s2
            | (none, s2) =>
              match openTxn spec (BitVec.ofNat 64 (x.num 20 8)) t.node? m (toEngine f x s2) with
              | (tx, some st, s3) => finishSend tx (TxnEnd.of st) s3
              | (_, none, s3) => s3

/-- The oldest MSG_SEND of a ring that is ready. -/
def doMsgSend (f r : Nat) (m : HoldRead) (s : State) : State :=
  match readyDesc s f r (fun x => x.op = opMsgSend) with
  | some x => msgSend f x m s
  | none => s

/-- Meaning of MSG_SEND. -/
def execMsgSend (f : Fn) (r : Fin 2) (m : HoldRead) (s : State) : Host.Outcome State Fault Refusal :=
  engine (doMsgSend f.val r.val m) s

/-! ### MSG_GROUP -/

/-- MEMBERS of a group (R246). -/
def groupMembers (s : State) (g : Nat) : Nat :=
  if g = 4095 then s.tables.dir.length else (s.tables.dir.filter fun p => p.2.groups.contains g).length

/-- OWNER of a group (R246). -/
def groupOwner (s : State) (g : Nat) : Nat := (s.svc.owners.find g).getD (hmFn s)

/-- An MPL message by its id. -/
def getMpl (s : State) (id : Nat) : Option MplJob := s.svc.mpls.find? fun j => j.id = id

/-- MPL messages being disseminated (R250). -/
def mplActive (s : State) : Nat := (s.svc.mpls.filter fun j => !j.waiting).length

/-- A random instant in the second half of an interval, in ns from its start (RFC 6206). (PRESUMED, log 34; DEDUCED, log 37) -/
def trickleDraw (s : State) (ms : Nat) : Nat := ms * 500000 + (drawn s).toNat % (ms * 500000)

/-- R250: an interval of a message's Trickle timer begins. -/
def mplBegin (id ms at0 : Nat) (s : State) : State :=
  advanceDraws (modSvc (fun x => { x with mpls := x.mpls.map fun j => if j.id = id then
    { j with waiting := false, intervalMs := ms, heard := 0, fireMono := some (at0 + trickleDraw s ms), endMono := at0 + ms * 1000000 }
    else j }) s)

/-- R250: waiting messages take the places that are free. -/
def mplAdmit (s : State) : State :=
  if mplActive s < 16 then
    match s.svc.mpls.find? fun j => j.waiting with
    | some j => mplBegin j.id (2 ^ fget s 0 Fl.SVC_MPL_CFG_IMIN) (monoNs s) s
    | none => s
  else s

/-- R250: a group message by MPL. -/
def openMpl (m : MsgSpec) (g : Nat) (s : State) : State :=
  let tok := takeToken m.fn s
  let mid := takeMid tok.2
  let seq := fget s 0 Fl.SVC_FRAG_MPL_SEQ
  let s1 := fset 0 Fl.SVC_FRAG_MPL_SEQ (seq + 1) mid.2
  let msg : Coap := ⟨.non, m.code, mid.1, beBytes 4 tok.1.toNat, m.body, true, none, m.actAt.map SlotName.asn, none⟩
  let p := castPkt s (Ip6.group g) 1 [.hopByHop none (some (BitVec.ofNat 8 seq))]
    (40 + 8 + 8 + coapLen m.body false m.actAt.isSome) (.coap (portLocal s) (portNode s) msg)
  let j : MplJob := ⟨s.svc.nextId, m.fn, m.ring, m.index, m.tag, g, m.cls, m.actAt, m.deadline, groupMembers s g, p, true, 0, 0, 0, 0,
    none, 0, 0, [], false, 0⟩
  mplAdmit (modSvc (fun x => { x with mpls := x.mpls ++ [j], nextId := x.nextId + 1 }) s1)

/-- R248: a fan-out begins. -/
def openFanout (m : MsgSpec) (g : Nat) (report : Bool) (read : HoldRead) (s : State) : State :=
  let id := s.svc.nextId
  let j : GroupJob := ⟨id, m.fn, m.ring, m.index, m.tag, g, m.code, m.cls, m.con, m.sealed, report, m.retx, m.actAt, m.deadline, m.body,
    groupMembers s g, 0, 0, false, 0, 0, 0⟩
  fanoutOn id read (modSvc (fun x => { x with groups := x.groups ++ [j], nextId := x.nextId + 1 }) s)

/-- The message of a MSG_GROUP descriptor (R247). -/
def groupSpec (f : Nat) (x : DescS) : MsgSpec where
  fn := f
  ring := x.ring
  index := x.index
  tag := x.tag
  group := none
  con := !(x.byte 24).testBit 2
  code := x.byte 23
  cls := classOf (x.byte 24) x.ring
  sealed := (x.byte 25).testBit 0
  retx := x.byte 27
  actAt := (x.slotName 28).name
  deadline := (x.slotName 34).name
  respAddr := 0
  respLen := 0
  body := x.payload

/-- MPL is the delivery of a MSG_GROUP (R247). -/
def viaMpl (s : State) (f g delivery : Nat) (sealed : Bool) : Bool :=
  if delivery = 0 then
    !(sealed || groupMembers s g ≤ fget s 0 Fl.SVC_GROUP_CFG_FANOUT_MAX || f ≠ groupOwner s g)
  else delivery = 1

/-- R247: a MSG_GROUP whose payload is in the hold. -/
def msgGroup (f : Nat) (x : DescS) (read : HoldRead) (s : State) : State :=
  let m := groupSpec f x
  let g := x.num 20 2
  let mpl := viaMpl s f g (x.byte 22) m.sealed
  let late : Bool := match m.deadline with
    | some d => slotReached s d
    | none => false
  let refuseG (st : Nat) (t : State) : State :=
    raise 124 g (finishDesc f x.ring x.index { status := st, result := groupMembers s g } (countEnd st (!leadOk s m.actAt) noNode t))
  if !sendOn s then refuseG stRejected s
  else
    match bodyStatus x.payload with
    | some st => refuseG st s
    | none =>
      if (mpl ∧ (m.sealed ∨ f ≠ groupOwner s g)) ∨ (g = 4095 ∧ f ≠ hmFn s) then refuseG stRejected s
      else if mpl ∧ (!leadOk s m.actAt ∨ late) then refuseG stTooLate s
      else if mpl ∧ 1280 < 56 + coapLen m.body false m.actAt.isSome then refuseG stRejected s
      else if mpl then openMpl m g (toEngine f x s)
      else openFanout m g ((x.byte 26).testBit 0) read (toEngine f x (dirHit read s))

/-- The oldest MSG_GROUP of a ring that is ready. -/
def doMsgGroup (f r : Nat) (read : HoldRead) (s : State) : State :=
  match readyDesc s f r (fun x => x.op = opMsgGroup) with
  | some x => msgGroup f x read s
  | none => s

/-- Meaning of MSG_GROUP. -/
def execMsgGroup (f : Fn) (r : Fin 2) (read : HoldRead) (s : State) : Host.Outcome State Fault Refusal :=
  engine (doMsgGroup f.val r.val read) s

/-- How a queued frame ends for its producer (R133, R183, R323). -/
inductive FrameEnd where
  | sent
  | linkFail
  | refused
  | poisoned
  | stale
  deriving DecidableEq, Repr

/-- R249: an MPL message completes, with the status of the cause where no copy was sent; a message that waits takes its place. Where
every copy failed by deferrals, or no berth transmits, the cause is REJECTED_POLICY. (DEDUCED, log 36; DESIGN CHOICE, log 76) -/
def mplOver (j : MplJob) (timed : Bool) (s : State) : State :=
  let status := if 0 < j.copies then stOk else if j.cause = 0 then stRejected else j.cause
  let s1 := modSvc (fun x => { x with mpls := x.mpls.filter fun k => k.id ≠ j.id }) s
  let s2 := raise 124 j.group (countEnd (if status = stTooLate then status else 0xFF) timed noNode s1)
  mplAdmit (finishDesc j.fn j.ring j.index { status := status, result := j.members, aux := j.copies } s2)

/-- An MPL message changed. -/
def modMpl (id : Nat) (g : MplJob → MplJob) (s : State) : State :=
  modSvc (fun x => { x with mpls := x.mpls.map fun j => if j.id = id then g j else j }) s

/-- R249: an MPL message whose last copy has ended completes. -/
def mplSettle (id : Nat) (s : State) : State :=
  match getMpl s id with
  | some j => if j.stopped && j.parts.isEmpty then mplOver j false s else s
  | none => s

/-- A frame is one of an MPL message. -/
def TxOwner.ofMpl (id : Nat) : TxOwner → Bool
  | .mpl i _ => i = id
  | _ => false

/-- R243, R250: the copies of an MPL message stop at its guard (`timed`) or its deadline; one that has sent none by then, a copy on air
included, completes with TOO_LATE. (DESIGN CHOICE, log 76) -/
def mplStop (id : Nat) (timed : Bool) (s : State) : State :=
  match getMpl s id with
  | none => s
  | some j =>
    let n := (j.parts.filter fun p => !p.sent && ownerOnAir s (.mpl id p.copy)).length
    mplOver { j with copies := j.copies + n, cause := stTooLate } timed
      (bumpBy 0 Ct.SVC_MPL_TX n (withdraw (fun q => q.owner.ofMpl id) s))

/-- A packet that goes as a link-layer broadcast, once by each of the berths `bs` (R210, R235, R236, R250); answers how many frames
the MAC engine holds of it. -/
def castPacket (bs : List Nat) (cls : TxClass) (owner : TxOwner) (guard : Option SlotName) (p : Packet) (hc hu n : Nat) (s : State) :
    Nat × State :=
  let extra := frameOverhead Addr.broadcast (fget s 0 Fl.KEY_LINK_CFG_BCAST_LEVEL) (bs.foldl (fun m b => max m (bcastFcs s b)) 2)
  let budget := bs.foldl (fun m b => min m (bcastMax s b)) 2047 - extra
  let one (len : Nat) (u : Upper) (t : State) : State :=
    let d := takeDsn t
    bs.foldl (fun v b =>
      offer cls (.broadcast b) owner (dataFrame v Addr.broadcast (some d.1) false u) len none none none guard v) d.2
  if needsFragments budget hc n then
    let tag := fget s 0 Fl.SVC_FRAG_TAG
    let l := fragments budget hc hu n
    (l.length * bs.length, l.foldl (fun t x => one (extra + x.2.2) (.fragment tag p.size x.1 x.2.1 0 p) t)
      (fset 0 Fl.SVC_FRAG_TAG (tag + 1) s))
  else (bs.length, one (extra + hc + n) (.packet p) s)

/-- The ports of a packet's UDP header, as NHC carries them (R235). -/
def Packet.portsLen (p : Packet) : Nat :=
  match p.body with
  | .coap a b _ | .udp a b _ => Sys2Proof.Machine.portsLen a b
  | .echoRequest _ | .echoReply _ | .icmp _ _ | .rpl _ => 0

/-- R250: one copy goes by every berth that transmits. -/
def mplCopy (j : MplJob) (s : State) : State :=
  let n := j.fired + 1
  let x := castPacket (txBerths s) j.cls (.mpl j.id n) (guardOf s j.actAt) j.packet (mplCompressed j.packet.portsLen) 56
    (j.packet.size - 56) s
  modMpl j.id (fun y => { y with
    fired := n
    parts := if x.1 = 0 then y.parts else y.parts ++ [⟨n, x.1, false⟩]
    stopped := fget s 0 Fl.SVC_MPL_CFG_EXPIRATIONS ≤ n }) x.2

/-- R249, R250: `n` frames of a copy end; a copy is sent with its first frame. -/
def mplFrameEnded (id copy n : Nat) (e : FrameEnd) (s : State) : State :=
  let ok : Bool := e = .sent
  let cause := match e with
    | .sent | .linkFail => 0
    | .refused => stRejected
    | .poisoned => stPoisoned
    | .stale => stKeyStale
  match (getMpl s id).bind fun j => j.parts.find? fun p => p.copy = copy with
  | none => s
  | some p =>
    let p1 : MplPart := { p with framesLeft := p.framesLeft - n, sent := p.sent || ok }
    let first : Bool := ok && !p.sent
    mplSettle id (modMpl id (fun j => { j with
      copies := if first then j.copies + 1 else j.copies
      cause := if j.cause = 0 then cause else j.cause
      parts := (j.parts.map fun x => if x.copy = copy then p1 else x).filter fun x => x.framesLeft ≠ 0 })
      (if first then bump 0 Ct.SVC_MPL_TX s else s))

/-- R250: the Trickle timer of an MPL message fires: a copy unless it is suppressed, then the next interval.
(DESIGN CHOICE, log 76) -/
def doMplFire (id : Nat) (s : State) : State :=
  match getMpl s id with
  | none => s
  | some j =>
    match j.fireMono with
    | none => s
    | some t =>
      let s1 := fireTimer t s
      let k := fget s1 0 Fl.SVC_MPL_CFG_K
      let past : Bool := match guardOf s1 j.actAt with
        | some g => slotReached s1 g
        | none => false
      if past then mplStop id true s1
      else
        let s2 := modMpl id (fun y => { y with doublings := y.doublings + 1, fireMono := none })
          (if k ≠ 0 && k ≤ j.heard then s1 else mplCopy j s1)
        if (getMpl s2 id).any MplJob.stopped then mplSettle id s2
        else
          let ms := if j.doublings < fget s2 0 Fl.SVC_MPL_CFG_DOUBLINGS then 2 * j.intervalMs else j.intervalMs
          mplBegin id ms j.endMono s2

/-- Meaning of MPL_TRICKLE_FIRE. -/
def execMplTrickleFire (id : Nat) (s : State) : Host.Outcome State Fault Refusal := engine (doMplFire id) s

/-! ### Datagrams and raw frames -/

/-- R256: a datagram completes. -/
def dgramOver (j : DgramJob) (status : Nat) (s : State) : State :=
  let s1 := modSvc (fun x => { x with dgrams := x.dgrams.filter fun k => k.id ≠ j.id }) s
  finishDesc j.fn j.ring j.index
    { status := status, node := j.handle.getD noNode, aux := min 15 j.attempts * 2 ^ 32 }
    (if status = stTooLate then bump 0 Ct.SVC_TOO_LATE s1 else s1)

/-- R256: a DGRAM_SEND whose payload is in the hold. -/
def dgramSend (f : Nat) (x : DescS) (m : HoldRead) (s00 : State) : State :=
  let s := if sendOn s00 then dirHit m s00 else s00
  let sport := x.num 32 2
  let dport := x.num 34 2
  let deadline := (x.slotName 38).name
  let late : Bool := match deadline with
    | some d => slotReached s d
    | none => false
  if !sendOn s ∨ sport = portLocal s then refuse f x stRejected noNode false s
  else if lookupPoisoned (x.num 28 4) m then refuse f x stPoisoned noNode false s
  else
    match resolve (x.num 28 4) (BitVec.ofNat 64 (x.num 20 8)) s with
    | none => refuse f x stNodeUnknown noNode false s
    | some t =>
      let s1 := targetRead t m s
      let owns : Bool := match t with
        | .stray _ => f = hmFn s
        | .node h => f = hmFn s || ((dirGet s h).map DirEnt.tenant) = some f
      if targetSuspect s1 t then refuse f x stPoisoned t.handle false s1
      else if !owns then refuse f x stRejected t.handle false s1
      else if late then refuse f x stTooLate t.handle false s1
      else
        match routeTo t m s1 with
        | (.error st, s2) => refuse f x st t.handle false s2
        | (.ok r, s2) =>
          let n := x.payload.length
          let hu := headLen r.hops.length
          if 1280 < hu + n then refuse f x stRejected t.handle false s2
          else if !r.keyOk s2 then refuse f x stKeyStale t.handle false (keyStale t.handle s2)
          else
            let id := s2.svc.nextId
            let p := routedPacket s2 r (hu + n) (.udp sport dport x.payload)
            let y := sendPacket r (classOf (x.byte 36) x.ring) (.datagram id) none p
              (headCompressed r.hops.length r.euiDst (portsLen sport dport)) hu n (toEngine f x s2)
            let j : DgramJob := ⟨id, f, x.ring, x.index, x.tag, t.node?, deadline, y.1, 0, false⟩
            let s3 := modSvc (fun v => { v with dgrams := v.dgrams ++ [j], nextId := v.nextId + 1 }) y.2
            if y.1 = 0 then dgramOver j stTimeout s3 else s3

/-- The oldest DGRAM_SEND of a ring that is ready. -/
def doDgramSend (f r : Nat) (m : HoldRead) (s : State) : State :=
  match readyDesc s f r (fun x => x.op = opDgram) with
  | some x => dgramSend f x m s
  | none => s

/-- Meaning of DGRAM_SEND. -/
def execDgramSend (f : Fn) (r : Fin 2) (m : HoldRead) (s : State) : Host.Outcome State Fault Refusal :=
  engine (doDgramSend f.val r.val m) s

/-- R257: a RAW_FRAME whose PSDU is in the hold. -/
def rawFrame (f : Nat) (x : DescS) (s : State) : State :=
  let b := x.byte 20
  let mode := x.byte 21
  let pw := signedOf 16 (x.num 30 2)
  let at0 := (x.slotName 24).name.getD ⟨0, Rsn.ofX 0⟩
  if !sendOn s then refuse f x stRejected noNode false s
  else if slotDist s.time.name at0 < 2 then refuse f x stTooLate noNode false s
  else
    let id := s.svc.nextId
    let fr : Frame := { dataFrame s .none none false (.octets x.payload) with kind := .other, src := .none, pan := none }
    let j : RawJob := ⟨id, f, x.ring, x.index, x.tag⟩
    offer .urgent (.broadcast b) (.raw id) fr (x.payload.length + fcsLen s b mode) (some mode)
      (if pw = -32768 then none else some pw) (some (at0, x.num 22 2)) none
      (modSvc (fun v => { v with raws := v.raws ++ [j], nextId := v.nextId + 1 }) (toEngine f x s))

/-- The oldest RAW_FRAME of a ring that is ready. -/
def doRawFrame (f r : Nat) (s : State) : State :=
  match readyDesc s f r (fun x => x.op = opRaw) with
  | some x => rawFrame f x s
  | none => s

/-- Meaning of RAW_FRAME. -/
def execRawFrame (f : Fn) (r : Fin 2) (s : State) : Host.Outcome State Fault Refusal := engine (doRawFrame f.val r.val) s

/-! ### Frames that end -/

/-- R240 step 4: a transmission of a transaction is over: a CON waits for its ACK, unless that came already, and a NON completes or
waits for its response. -/
def transmissionOver (tok : Word) (s : State) : State :=
  match getTxn s tok with
  | none => s
  | some t =>
    if t.phase = .waitResp then modTxn tok (fun x => { x with made := x.made + 1 }) s
    else if t.con ∨ 0 < t.respLen then modTxn tok (fun x => x.afterSending s) s
    else
      let t1 := { t with made := t.made + 1, phase := .waitResp }
      finishTxn t1 (TxnEnd.of (if t.sent then stOk else stTimeout)) (modTxn tok (fun _ => t1) s)

/-- `n` frames of a transaction end, the last of them so (R183, R236, R240). -/
def txnFrameEnded (tok : Word) (started : Bool) (n : Nat) (e : FrameEnd) (s : State) : State :=
  match getTxn s tok with
  | none => s
  | some t =>
    let t1 := { t with sent := t.sent || started, begun := t.begun || started, framesLeft := t.framesLeft - n }
    let s1 := modTxn tok (fun _ => t1) s
    match e with
    | .sent => if t1.framesLeft = 0 then transmissionOver tok s1 else s1
    | .linkFail =>
      transmissionOver tok (modTxn tok (fun x => { x with framesLeft := 0 }) (withdrawTxn tok s1))
    | .refused => finishTxn t1 (TxnEnd.of stRejected) (withdrawTxn tok s1)
    | .poisoned => finishTxn { t1 with begun := true } (TxnEnd.of stPoisoned) (withdrawTxn tok s1)
    | .stale => finishTxn t1 (TxnEnd.of stKeyStale) (withdrawTxn tok s1)

/-- `n` frames of a datagram end, the last of them so (R256). -/
def dgramFrameEnded (id : Nat) (attempts : Nat) (started : Bool) (n : Nat) (e : FrameEnd) (s : State) : State :=
  match s.svc.dgrams.find? fun j => j.id = id with
  | none => s
  | some j =>
    let j1 := { j with framesLeft := j.framesLeft - n, attempts := attempts, sent := j.sent || started }
    let s1 := modSvc (fun x => { x with dgrams := x.dgrams.map fun k => if k.id = id then j1 else k }) s
    let gone (t : State) : State := withdraw (fun q => q.owner = .datagram id) t
    match e with
    | .sent => if j1.framesLeft = 0 then dgramOver j1 stOk s1 else s1
    | .linkFail => dgramOver j1 stTimeout (gone s1)
    | .refused => dgramOver j1 stRejected (gone s1)
    | .poisoned => dgramOver j1 stPoisoned (gone s1)
    | .stale => dgramOver j1 stKeyStale (gone s1)

/-- A raw frame ends with an outcome of R133 (R257). -/
def rawEnded (id : Nat) (o : TxOutcome) (s : State) : State :=
  match s.svc.raws.find? fun j => j.id = id with
  | none => s
  | some j =>
    let s1 := modSvc (fun x => { x with raws := x.raws.filter fun k => k.id ≠ id }) s
    let d : Done := match o with
      | .sent => { status := stOk }
      | .poisoned => { status := stPoisoned }
      | .maskTrip | .regRefused | .tooLong => { status := stRejected }
      | _ => { status := stTooLate, aux := o.code }
    finishDesc j.fn j.ring j.index d (if d.status = stTooLate then bump 0 Ct.SVC_TOO_LATE s1 else s1)

/-! ### Timers and deadlines -/

/-- The guard of a message is reached (R243). -/
def guardReached (s : State) (actAt : Option SlotName) : Bool :=
  match guardOf s actAt with
  | some g => slotReached s g
  | none => false

/-- R240, R243: the ACK timeout of a transaction ends: it is retransmitted, or completes. (DEDUCED, log 36) -/
def doAckTimeout (tok : Word) (m : HoldRead) (s : State) : State :=
  match getTxn s tok with
  | none => s
  | some t =>
    match t.phase, t.ackMono with
    | .waitAck, some due =>
      let s1 := fireTimer due s
      if guardReached s1 t.actAt then finishTxn t TxnEnd.late s1
      else if t.retxLeft = 0 then finishTxn t (if t.actAt.isSome then TxnEnd.late else TxnEnd.of stTimeout) s1
      else if lookupPoisoned (t.handle.getD noNode) m then finishTxn t (TxnEnd.of stPoisoned) (dirHit m s1)
      else
        let t1 := { t with retxLeft := t.retxLeft - 1, timeoutMs := 2 * t.timeoutMs, phase := .sending, ackMono := none }
        let r := transmit t1 m (dirHit m (bump 0 Ct.SVC_COAP_RETX (modTxn tok (fun _ => t1) s1)))
        match r.1 with
        | none => r.2
        | some st => finishTxn t1 (TxnEnd.of st) r.2
    | _, _ => s

/-- Meaning of COAP_ACK_TIMEOUT. -/
def execCoapAckTimeout (tok : Word) (m : HoldRead) (s : State) : Host.Outcome State Fault Refusal := engine (doAckTimeout tok m) s

/-- R240: no separate response came in time. -/
def doRespWait (tok : Word) (s : State) : State :=
  match getTxn s tok with
  | none => s
  | some t =>
    match t.phase, t.respMono with
    | .waitResp, some due => finishTxn t (TxnEnd.of stTimeout) (fireTimer due s)
    | _, _ => s

/-- Meaning of RESP_WAIT_EXPIRY. -/
def execRespWaitExpiry (tok : Word) (s : State) : Host.Outcome State Fault Refusal := engine (doRespWait tok) s

/-- A transaction ends at a slot: TOO_LATE when nothing was sent, else `other` (R240, R243). (DEDUCED, log 36) -/
def endAtSlot (t : Txn) (other : Nat) (s : State) : State :=
  let sent := t.sent || 0 < t.made || anyTried s (.txn t.token.toNat)
  finishTxn { t with sent := sent, begun := t.started s } (TxnEnd.of (if sent then other else stTooLate)) (withdrawTxn t.token s)

/-- R240, R250, R256: the deadline of a message is reached. -/
def doDeadline (w : WorkRef) (s : State) : State :=
  match w with
  | .txn tok =>
    match getTxn s tok with
    | some t =>
      match t.deadline with
      | some d => if slotReached s d then endAtSlot t stTimeout s else s
      | none => s
    | none => s
  | .dgram id =>
    match s.svc.dgrams.find? fun j => j.id = id with
    | some j =>
      match j.deadline with
      | some d =>
        if slotReached s d then
          dgramOver j (if j.sent ∨ anyTried s (.datagram id) then stTimeout else stTooLate) (withdraw (fun q => q.owner = .datagram id) s)
        else s
      | none => s
    | none => s
  | .mpl id =>
    match getMpl s id with
    | some j =>
      match j.deadline with
      | some d => if slotReached s d then mplStop id false s else s
      | none => s
    | none => s

/-- Meaning of DEADLINE_REACHED. -/
def execDeadlineReached (w : WorkRef) (s : State) : Host.Outcome State Fault Refusal := engine (doDeadline w) s

/-- R243: the guard slot of a message is reached: a message that is unsent, or whose repeat has not started, ends, and a transmission
under way is cut short. -/
def doGuard (w : WorkRef) (s : State) : State :=
  match w with
  | .txn tok =>
    match getTxn s tok with
    | some t =>
      if guardReached s t.actAt then
        match t.phase with
        | .sending =>
          if t.started s then
            transmissionOver tok (modTxn tok (fun x => { x with sent := true, framesLeft := 0 }) (withdrawTxn tok s))
          else finishTxn t TxnEnd.late (withdrawTxn tok s)
        | _ => s
      else s
    | none => s
  | .dgram _ => s
  | .mpl id =>
    match getMpl s id with
    | some j => if guardReached s j.actAt then mplStop id true s else s
    | none => s

/-- Meaning of TIMED_GUARD. -/
def execTimedGuard (w : WorkRef) (s : State) : Host.Outcome State Fault Refusal := engine (doGuard w) s

end Sys2Proof.Machine
end

