-- ==== Sys2Proof/Machine/Camp.lean ====
section
/-!
DEFINITION. The campaign engine (R297 to R313): starting and resuming, encoding and visits, records, reports, retirement and
the end of a campaign, and its control.
-/

namespace Sys2Proof.Machine

/-- The campaign engine changed. -/
def modCampS (g : CampS → CampS) (s : State) : State := { s with camp := g s.camp }

/-- A campaign by its identifier. -/
def getCamp (s : State) (id : Nat) : Option Camp := s.camp.camps.find? fun c => c.id = id

/-- A campaign changed. -/
def modCamp (id : Nat) (g : Camp → Camp) (s : State) : State :=
  modCampS (fun x => { x with camps := x.camps.map fun c => if c.id = id then g c else c }) s

/-- The campaign is active (R297). -/
def Camp.active (c : Camp) : Bool := c.phase = .running

/-- The campaign is active, or its start is under way. -/
def Camp.taken (c : Camp) : Bool :=
  match c.phase with
  | .running | .starting => true
  | .ended _ => false

/-- CAMP_ID names an active campaign (R300). -/
def campActive (s : State) (id : Nat) : Bool := s.camp.camps.any fun c => c.id = id && c.taken

/-! ### Encoding -/

/-- Kt of R301. -/
def symbolsOf (f t : Nat) : Nat := (f + t - 1) / t

/-- Z of R301. -/
def blocksOf (f t kmax : Nat) : Nat := (symbolsOf f t + kmax - 1) / kmax

/-- K of block `b`: Partition[Kt, Z] of RFC 6330 (R301). -/
def blockK (f t kmax b : Nat) : Nat :=
  let kt := symbolsOf f t
  let z := blocksOf f t kmax
  if b < kt % z then kt / z + 1 else kt / z

/-- The symbols before block `b`. -/
def blockStart (f t kmax b : Nat) : Nat := ((List.range b).map (blockK f t kmax)).sum

/-- An encoding symbol of a block (R301): the source symbol below K, else a repair symbol. -/
def symbolAt (t k esi : Nat) (src : List Byte) : List Byte :=
  if esi < k then (src.drop (esi * t)).take t else fitOctets t (Config.repairSymbol t k src esi)

/-- Blocks of a campaign. -/
def Camp.z (c : Camp) : Nat := c.blks.length

/-- Block `b` of a campaign. -/
def Camp.blk (c : Camp) (b : Nat) : CampBlk := c.blks.getD b ⟨0, 0, 0, true, false⟩

/-- A block changed. -/
def modBlk (id b : Nat) (g : CampBlk → CampBlk) (s : State) : State :=
  modCamp id (fun c => { c with blks := c.blks.modify b g }) s

/-! ### Targets -/

/-- The entries that carry a CAMP_ID, but for some. -/
def targetsBut (s : State) (excluded : List Handle) (id : Nat) : List (Handle × DirEnt) :=
  s.tables.dir.filter fun p => p.2.campId.toNat = id && !excluded.contains p.1

/-- The targets of a campaign (R300): the entries that carry its CAMP_ID, but for members that its formation did not take. -/
def targetsOf (s : State) (id : Nat) : List (Handle × DirEnt) := targetsBut s (((getCamp s id).map Camp.excluded).getD []) id

/-- Targets in a CAMP_STATE (R306). -/
def targetsIn (s : State) (id st : Nat) : Nat := ((targetsOf s id).filter fun p => p.2.campState = st).length

/-- Targets that are not REMOVED (R307). -/
def targetsLive (s : State) (id : Nat) : List (Handle × DirEnt) := (targetsOf s id).filter fun p => p.2.campState ≠ 5

/-- The pending targets (R307). -/
def pendingTargets (s : State) (id : Nat) : List (Handle × DirEnt) :=
  (targetsOf s id).filter fun p => p.2.campState = 1 || p.2.campState = 2

/-- PERCENT of R307. -/
def percentOf (s : State) (c : Camp) : Nat :=
  let l := targetsLive s c.id
  if l.isEmpty ∨ c.z = 0 then 0 else 10000 * (l.map fun p => p.2.campPos.toNat).sum / (l.length * c.z)

/-- The owner of a campaign may take a node (R300). -/
def mayTake (s : State) (owner id : Nat) (d : DirEnt) : Bool :=
  (owner = hmFn s || d.tenant = owner) && (d.campId.toNat = id || d.campId = 0 || !campActive s d.campId.toNat)

/-- The members of a group (R246, R300). -/
def inGroup (g : Nat) (d : DirEnt) : Bool := g = 4095 || d.groups.contains g

/-- A node whose CAMP_ID is set anew is no longer left out (R300, R313). -/
def includeTarget (h : Handle) (id : Nat) (s : State) : State :=
  modCamp id (fun c => { c with excluded := c.excluded.filter (· ≠ h) }) s

/-- A node becomes a target with CAMP_POS 0 (R300, R313). -/
def takeTarget (h : Handle) (id : Nat) (s : State) : State :=
  includeTarget h id (dirMod h (fun x => { x with campId := BitVec.ofNat 8 id, campPos := 0, campState := 1 }) s)

/-- R300: the target set is formed; answers the members skipped, and those that carry the CAMP_ID and are not taken.
(DEDUCED, log 46) -/
def formTargets (c : Camp) (s : State) : Nat × List Handle × State :=
  let members := s.tables.dir.filter fun p => inGroup c.group p.2
  let other (d : DirEnt) : Bool := d.campId ≠ 0 && d.campId.toNat ≠ c.id && campActive s d.campId.toNat
  let skipped := (members.filter fun p => other p.2).length
  let taken := members.filter fun p => mayTake s c.owner c.id p.2
  let out := members.filter fun p => p.2.campId.toNat = c.id && !mayTake s c.owner c.id p.2
  (skipped, out.map Prod.fst, taken.foldl (fun t p => if c.resume && p.2.campId.toNat = c.id then t else takeTarget p.1 c.id t) s)

/-! ### Frames -/

/-- The pairs of an active slotframe and a berth that can carry campaign frames (R305). -/
def campCarriers (s : State) : List (Nat × Nat) :=
  ((List.range 16).filter (sfOn s)).flatMap fun h =>
    ((List.range 6).filter fun n => berthPresent s n && sfHas s h n && bitAt n (rd s Reg.CAMP_CFG) && coexGroup n = sfSeq s h).map
      fun n => (h, n)

/-- The frame budget B of campaign frames (R303): the least over the carriers, 0 without any. (DEDUCED, log 46) -/
def campBudget (s : State) : Nat :=
  let of (p : Nat × Nat) : Nat :=
    let m := sfMode s p.1
    pMax (tsMaxTx s) m (txCoded s p.2 m) - frameOverhead Addr.broadcast (fget s 0 Fl.CAMP_CFG_SEC) (fcsLen s p.2 m)
  match campCarriers s with
  | [] => 0
  | p :: ps => ps.foldl (fun x q => min x (of q)) (of p)

/-- COUNT of R303. (DEDUCED, log 46) -/
def campCount (s : State) (t : Nat) : Nat := min (fget s 0 Fl.CAMP_CFG_SYMS_MAX) ((campBudget s - 25) / t)

/-- The longest FCS of the carriers. -/
def campFcs (s : State) : Nat := (campCarriers s).foldl (fun x p => max x (fcsLen s p.2 (sfMode s p.1))) 2

/-- The bands with a berth in CAMP_CFG.BERTHS (R305). -/
def campBands (s : State) : List Nat :=
  [0, 1].filter fun g => (List.range 6).any fun n => berthPresent s n && coexGroup n = g && bitAt n (rd s Reg.CAMP_CFG)

/-- Campaign frames of a band that wait in the MAC engine (R305). -/
def campQueued (s : State) (g : Nat) : Nat := (s.mac.queue.filter fun q => q.cls = .campaign && q.dst = .band g).length

/-- The encoder is fenced (R28). -/
def encoderFenced (s : State) : Bool := unitOut s 30

/-- Symbols that a campaign frame carries, and the campaign's nonce in it. -/
def symbolsIn (f : Frame) : Nat × BitVec 16 :=
  (f.ies.findSome? fun i => match i with
    | .symbols _ n _ _ _ _ _ _ k _ => some (k, n)
    | _ => none).getD (0, 0)

/-- R303: one frame of block `b` is offered, once per band. -/
def offerSymbols (c : Camp) (b count : Nat) (src : List Byte) (s : State) : State :=
  let k := c.blk b
  let octets := (List.range count).flatMap fun i => symbolAt c.t k.k (k.nextEsi + i) src
  let ie := Ie.symbols (BitVec.ofNat 8 c.id) c.nonce (fget s 0 Fl.CAMP_CFG_HOPS) c.f c.t (c.z - 1) b k.nextEsi count octets
  let len := frameOverhead Addr.broadcast (fget s 0 Fl.CAMP_CFG_SEC) (campFcs s) + 25 + octets.length
  let d := takeDsn s
  let f : Frame := { dataFrame s Addr.broadcast (some d.1) false .none with ies := [ie] }
  let s1 := (campBands s).foldl (fun t g => offer .campaign (.band g) (.campaign c.id) f len none none none none t) d.2
  modCamp c.id (fun x => { x with windowUsed := x.windowUsed + 1 })
    (modBlk c.id b (fun x => { x with nextEsi := x.nextEsi + count }) s1)

/-! ### Records -/

/-- S of R309. -/
def Camp.recordLen (c : Camp) : Nat := 64 + 4 * c.z

/-- Block word of R309: ESI_LIMIT and DONE. -/
def blockWord (limit : Nat) (b : CampBlk) : Nat := limit % 2 ^ 24 + (if b.retired then 2 ^ 24 else 0)

/-- ESI_LIMIT of a new record (R310). -/
def CampBlk.newLimit (stride : Nat) (b : CampBlk) : Nat :=
  if b.retired then b.limit
  else if b.nextEsi + stride < 2 ^ 24 then b.nextEsi + stride
  else (Config.campLimit (b.nextEsi + stride)).toNat

/-- The octets of a record (R309). -/
def recordOctets (c : Camp) (r : CampRec) : List Byte :=
  let head := leBytes 1 1 ++ leBytes 1 c.id ++ leBytes 2 c.nonce.toNat ++ leBytes 4 r.seq.toNat ++ leBytes 5 c.f ++ leBytes 1 (c.z - 1) ++
    leBytes 2 c.t ++ leBytes 2 c.kmax ++ leBytes 2 c.group ++ leBytes 4 c.position.toNat ++ leBytes 1 r.endReason ++ leBytes 35 0
  let words := (r.limits.zip c.blks).flatMap fun p => leBytes 4 (blockWord p.1 p.2)
  head ++ leBytes 4 (crc32 (head ++ words)).toNat ++ words

/-- SEQ of the newest record (R310). -/
def Camp.lastSeq (c : Camp) : Word :=
  match c.records.getLast? with
  | some r => r.seq
  | none => c.seq

/-- R310: a new record is built and its write becomes ready. -/
def buildRecord (id endReason : Nat) (s : State) : State :=
  match getCamp s id with
  | none => s
  | some c =>
    let seq := c.lastSeq + 1
    let r : CampRec := ⟨seq, endReason, c.blks.map (CampBlk.newLimit (fget s 0 Fl.CAMP_STRIDE_STRIDE))⟩
    let octets := recordOctets c r
    let j : Job := ⟨c.owner, .campRecord id seq false, 2, c.ckptAddr + seq.toNat % 2 * c.recordLen, octets.length, 0, true, octets,
      false, false, none, false, 0⟩
    addJob j (modCamp id (fun x => { x with records := x.records ++ [r] }) s)

/-- R310: a block that is not retired comes near its limit, and no record is under way. -/
def recordDue (s : State) (c : Camp) : Bool :=
  c.active && c.records.isEmpty && c.blks.any fun b => !b.retired && b.limit ≤ b.nextEsi + fget s 0 Fl.CAMP_STRIDE_STRIDE / 2

/-- R310: a record is built where one is due. -/
def recordCheck (id : Nat) (s : State) : State :=
  match getCamp s id with
  | some c => if recordDue s c then buildRecord id 0xFF s else s
  | none => s

/-! ### The end of a campaign -/

/-- A campaign's jobs by what they do. -/
def JobWhat.ofCamp (id : Nat) (records : Bool) : JobWhat → Bool
  | .campGather c _ => c = id
  | .campRecord c _ _ => records && c = id
  | _ => false

/-- Jobs of a campaign are gone: ready and parked ones at once, a running one at its sling boundary. -/
def dropCampJobs (c : Camp) (records : Bool) (s : State) : State :=
  let hit (j : Job) : Bool := j.what.ofCamp c.id records
  let s1 := { s with
    jobs := s.jobs.filter fun j => !hit j
    landed := s.landed.filter fun j => !hit j
    stevs := s.stevs.map fun o => o.map fun j => if hit j then { j with abort := true } else j }
  modFn c.owner (fun x => { x with faults := x.faults.map fun o => match o with
    | some r => if hit r.job then none else some r
    | none => none }) s1

/-- R305: queued frames of a campaign are withdrawn, and their symbols dropped. -/
def withdrawCamp (id : Nat) (s : State) : State :=
  let mine (q : TxFrame) : Bool := q.owner = .campaign id
  let n := ((s.mac.queue.filter mine).map fun q => (symbolsIn q.frame).1).sum
  bumpBy 0 Ct.CAMP_SYM_DROP n (withdraw mine s)

/-- R308: a campaign ends. -/
def endCamp (id reason : Nat) (s : State) : State :=
  match getCamp s id with
  | none => s
  | some c =>
    if !c.active then s
    else
      let last := reason = 4 ∨ reason = 5
      let s1 := dropCampJobs c last (withdrawCamp id s)
      let s2 := modCampS (fun x => { x with
        prepared := x.prepared.filter fun p => p.1 ≠ id
        preparing := x.preparing.filter fun p => p.1 ≠ id
        visit := x.visit.filter fun v => v.1 ≠ id }) (modCamp id (fun x => { x with phase := .ended reason, ckptWait := false }) s1)
      let s3 := raise 137 (id + reason * 256) s2
      if last then s3 else buildRecord id reason s3

/-- R307: blocks that every pending target has decoded are retired. -/
def retireBlocks (id : Nat) (s : State) : State :=
  match getCamp s id with
  | none => s
  | some c =>
    let pend := pendingTargets s id
    (List.range c.z).foldl (fun t b =>
      if !(c.blk b).retired && pend.all fun p => b < p.2.campPos.toNat then
        raiseAux 138 id b (modBlk id b (fun x => { x with retired := true }) t)
      else t) s

/-- R308: every block that is not retired is exhausted. (DEDUCED, log 46) -/
def exhaustedCheck (id : Nat) (s : State) : State :=
  match getCamp s id with
  | some c =>
    let open' := c.blks.filter fun b => !b.retired
    if !open'.isEmpty && open'.all fun b => b.exhausted then endCamp id 3 s else s
  | none => s

/-- R307, R308: after a report or a change of the target set. -/
def targetsChanged (id : Nat) (s : State) : State :=
  if (getCamp s id).any Camp.active then
    let s1 := retireBlocks id s
    if (pendingTargets s1 id).isEmpty then endCamp id 0 s1 else exhaustedCheck id s1
  else s

/-! ### Visits -/

/-- A block can still be visited (R305). -/
def CampBlk.alive (b : CampBlk) : Bool := !b.retired && !b.exhausted

/-- The next block of a campaign, round-robin (R305). -/
def Camp.nextBlock (c : Camp) : Option Nat :=
  let order := (List.range c.z).map fun i => (c.nextSbn + i) % c.z
  order.find? fun b => (c.blk b).alive

/-- The campaign is not passed over (R305). -/
def Camp.ready (c : Camp) : Bool :=
  c.active && c.started && !c.paused && !c.ckptWait && c.windowUsed < c.budget && c.nextBlock.isSome

/-- The campaign whose turn it is: the lowest CAMP_ID above the one served last, else the lowest (R305). -/
def nextCamp (s : State) : Option Camp :=
  let l := s.camp.camps.filter Camp.ready
  let least (xs : List Camp) : Option Camp := xs.foldl (fun best c =>
    match best with
    | none => some c
    | some x => if c.id < x.id then some c else some x) none
  (least (l.filter fun c => s.camp.turn < c.id)).orElse fun _ => least l

/-- The prepared source block, if it is held. -/
def preparedBlk (s : State) (id b : Nat) : Option (List Byte) :=
  (s.camp.prepared.find? fun p => p.1 = id && p.2.1 = b).map fun p => p.2.2

/-- R302: the preparation of a block starts where the encoder may hold one more and the pool has the cells. -/
def prepare (c : Camp) (b : Nat) (s : State) : State :=
  let held := (preparedBlk s c.id b).isSome || s.camp.preparing.contains (c.id, b)
  let inVisit (p : Nat × Nat × List Byte) : Bool := match s.camp.visit with
    | some v => v.1 = p.1 && v.2.1 = p.2.1
    | none => false
  let keep := if s.camp.prepared.length + s.camp.preparing.length < 2 then s.camp.prepared else s.camp.prepared.filter inVisit
  let k := blockK c.f c.t c.kmax b
  let at0 := blockStart c.f c.t c.kmax b * c.t
  if held ∨ 2 ≤ keep.length + s.camp.preparing.length ∨ !cellsOpen s (cellsFor (k * c.t)) then s
  else
    let j : Job := ⟨c.owner, .campGather c.id b, 2, c.imgAddr + at0, min (k * c.t) (c.f - at0), 0, false, [], false, false, none, false,
      0⟩
    addJob j (modCampS (fun x => { x with prepared := keep, preparing := x.preparing ++ [(c.id, b)] }) s)

/-- The next campaign and block are prepared ahead (R302). -/
def prefetch (s : State) : State :=
  match nextCamp s with
  | some c =>
    match c.nextBlock with
    | some b => prepare c b s
    | none => s
  | none => s

/-- The visit is over; the block's turn has passed (R305). -/
def endVisit (s : State) : State :=
  match s.camp.visit with
  | none => s
  | some (id, b, _) => prefetch (modCampS (fun x => { x with visit := none, turn := id }) (modCamp id (fun c => { c with nextSbn := b + 1 }) s))

/-- A block that has reached its binding limit makes its campaign wait (R310). -/
def ckptWait (id : Nat) (s : State) : State :=
  raise 140 id (bump 0 Ct.CAMP_CKPT_WAIT (modCamp id (fun c => { c with ckptWait := true }) s))

/-- R302, R305, R310: the frames of the visit that may be offered now, one after another. -/
def runVisit : Nat → State → State
  | 0, s => s
  | fuel + 1, s =>
    match s.camp.visit with
    | none => s
    | some (id, b, left) =>
      match getCamp s id with
      | none => endVisit s
      | some c =>
        let k := c.blk b
        let n := campCount s c.t
        if left = 0 ∨ !c.active ∨ c.paused ∨ c.budget ≤ c.windowUsed ∨ !k.alive ∨ c.ckptWait then endVisit s
        else if encoderFenced s then s
        else if n = 0 then
          if c.noFit then endVisit s else endVisit (raise 140 (id + 256) (modCamp id (fun x => { x with noFit := true }) s))
        else if 16777215 < k.nextEsi + n - 1 then
          exhaustedCheck id (endVisit (raiseAux 139 id b (modBlk id b (fun x => { x with exhausted := true }) s)))
        else if k.limit < k.nextEsi + n then endVisit (ckptWait id (recordCheck id s))
        else if (campBands s).any fun g => fget s 0 Fl.CAMP_CFG_QUEUED ≤ campQueued s g then s
        else
          match preparedBlk s id b with
          | none => endVisit s
          | some src =>
            let s1 := modCamp id (fun x => { x with noFit := false }) (offerSymbols c b n src s)
            runVisit fuel (recordCheck id (modCampS (fun x => { x with visit := some (id, b, left - 1) }) s1))

/-- The visit under way goes on (R305). -/
def visitOn (s : State) : State :=
  match s.camp.visit with
  | some (_, _, left) => runVisit (left + 1) s
  | none => s

/-- R305: a visit is given to the campaign and block whose turn it is; a block that is not prepared is prepared first (R302). -/
def doCampaignVisit (s : State) : State :=
  if encoderFenced s then s
  else if s.camp.visit.isSome then visitOn s
  else
    match nextCamp s with
    | none => s
    | some c =>
      match c.nextBlock with
      | none => s
      | some b =>
        if (preparedBlk s c.id b).isSome then
          visitOn (modCampS (fun x => { x with visit := some (c.id, b, fget s 0 Fl.CAMP_SCHED_VISIT_FRAMES) }) s)
        else prepare c b s

/-- Meaning of CAMPAIGN_VISIT. -/
def execCampaignVisit (s : State) : Host.Outcome State Fault Refusal := engine doCampaignVisit s

/-- R302, R312: the gather of a source block has ended. -/
def doBlockPrepared (id b : Nat) (s : State) : State :=
  match s.landed.find? fun j => j.what = .campGather id b with
  | none => s
  | some j =>
    let s1 := modCampS (fun x => { x with preparing := x.preparing.filter (· ≠ (id, b)) })
      { s with landed := s.landed.filter fun x => x.what ≠ .campGather id b }
    match getCamp s1 id with
    | none => s1
    | some c =>
      if !c.active then s1
      else if j.abort then endCamp id 4 s1
      else if j.poisoned then
        raiseAux 141 id b (bump 0 Ct.CAMP_POISON
          (modCampS (fun x => { x with turn := id }) (modCamp id (fun x => { x with nextSbn := b + 1 }) s1)))
      else
        modCampS (fun x => { x with prepared := x.prepared ++ [(id, b, fitOctets ((c.blk b).k * c.t) j.octets)] }) s1

/-- Meaning of BLOCK_PREPARED. -/
def execBlockPrepared (id b : Nat) (s : State) : Host.Outcome State Fault Refusal := engine (doBlockPrepared id b) s

/-- R305: a campaign frame ends: sent, or failed by deferrals, with its symbols. -/
def campFrameEnded (id : Nat) (f : Frame) (sent : Bool) (s : State) : State :=
  let k := symbolsIn f
  let s1 := if sent then bumpBy 0 Ct.CAMP_SYM k.1 (bump 0 Ct.CAMP_FRAME s) else bumpBy 0 Ct.CAMP_SYM_DROP k.1 s
  visitOn (if sent then modCamp id (fun c => if c.nonce = k.2 then { c with position := c.position + BitVec.ofNat 32 k.1 } else c) s1
    else s1)

/-- R305: a budget window of 60 s ends. -/
def doBudgetWindow (id : Nat) (s : State) : State :=
  match getCamp s id with
  | some c =>
    if c.active then
      let t := c.windowMono + 60000000000
      visitOn (modCamp id (fun x => { x with windowMono := t, windowUsed := 0 }) (fireTimer t s))
    else s
  | none => s

/-- Meaning of CAMPAIGN_BUDGET_WINDOW. -/
def execCampaignBudgetWindow (id : Nat) (s : State) : Host.Outcome State Fault Refusal := engine (doBudgetWindow id) s

/-- R298: START_AT is reached. -/
def doCampaignStartAt (id : Nat) (s : State) : State :=
  match getCamp s id with
  | some c => if c.startAt.any (slotReached s) then modCamp id (fun x => { x with started := true }) s else s
  | none => s

/-- Meaning of CAMPAIGN_START_AT. -/
def execCampaignStartAt (id : Nat) (s : State) : Host.Outcome State Fault Refusal := engine (doCampaignStartAt id) s

/-- R308: END_BY is reached. -/
def doCampaignDeadline (id : Nat) (s : State) : State :=
  match getCamp s id with
  | some c => if c.endBy.any (slotReached s) then endCamp id 1 s else s
  | none => s

/-- Meaning of CAMPAIGN_DEADLINE. -/
def execCampaignDeadline (id : Nat) (s : State) : Host.Outcome State Fault Refusal := engine (doCampaignDeadline id) s

/-- R310: CKPT_S after the last confirmed record. (DEDUCED, log 47) -/
def doCkptTimer (id : Nat) (s : State) : State :=
  let ckptS := fget s 0 Fl.CAMP_SCHED_CKPT_S
  match getCamp s id with
  | some c =>
    if c.active && ckptS ≠ 0 && !c.timerDone then
      buildRecord id 0xFF (modCamp id (fun x => { x with timerDone := true }) (fireTimer (c.confirmedMono + ckptS * 1000000000) s))
    else s
  | none => s

/-- Meaning of CAMPAIGN_CKPT_TIMER. -/
def execCampaignCkptTimer (id : Nat) (s : State) : Host.Outcome State Fault Refusal := engine (doCkptTimer id) s

/-! ### Starting -/

/-- The campaign of a CAMPAIGN_START descriptor, before its record (R298). (DEDUCED, log 47) -/
def campOf (s : State) (f : Nat) (x : DescS) : Camp :=
  let len := x.bufLen
  let t := x.num 24 2
  let kmax := x.num 26 2
  { id := x.byte 20
    owner := f
    ring := x.ring
    index := x.index
    tag := x.tag
    resume := (x.byte 21).testBit 0
    nonce := 0
    imgAddr := x.bufAddr
    f := len
    t := t
    kmax := kmax
    group := x.num 22 2
    budget := x.num 28 2
    startAt := (x.slotName 32).name
    endBy := (x.slotName 38).name
    ckptAddr := x.num 44 8
    ckptLen := x.num 52 4
    skipped := 0
    phase := .starting
    paused := false
    started := false
    ckptWait := false
    noFit := false
    blks := (List.range (blocksOf len t kmax)).map fun b => ⟨blockK len t kmax b, 0, 0, false, false⟩
    nextSbn := 0
    position := 0
    seq := 0
    records := []
    confirmedMono := monoNs s
    timerDone := false
    windowMono := 0
    windowUsed := 0
    excluded := [] }

/-- The BAD_DESC checks of R299 that need no record; they come before the partition, which they make well defined. -/
def startFieldsOk (x : DescS) : Bool :=
  let t := x.num 24 2
  let kmax := x.num 26 2
  1 ≤ x.byte 20 && x.num 22 2 ≤ 4095 && 32 ≤ t && t ≤ 256 && t % 4 = 0 && 1 ≤ kmax && kmax ≤ 8192 && 1 ≤ x.num 28 2 &&
    x.bufLen ≠ 0 && x.num 44 8 % 8 = 0 &&
    (let z := blocksOf x.bufLen t kmax
     z ≤ 256 && 2 * (64 + 4 * z) ≤ x.num 52 4)

/-- A record copy that R311 accepts: its octets, when FORMAT and CRC hold. -/
def recordValid (l : Nat) (bs : List Byte) : Bool :=
  bs.length = l && bs.getD 0 0 = 1 &&
    ofLeBytes ((bs.drop 60).take 4) = (crc32 (bs.take 60 ++ bs.drop 64)).toNat

/-- The copy that R311 takes. -/
def recordPick (l : Nat) (bs : List Byte) : Option (List Byte) :=
  let a := bs.take l
  let b := (bs.drop l).take l
  let seq (x : List Byte) : Word := BitVec.ofNat 32 (ofLeBytes ((x.drop 4).take 4))
  match recordValid l a, recordValid l b with
  | true, true => if 0 < (seq b - seq a).toInt then some b else some a
  | true, false => some a
  | false, true => some b
  | false, false => none

/-- R311 step 2: the record matches the descriptor. -/
def recordMatches (c : Camp) (r : List Byte) : Bool :=
  let num (off n : Nat) : Nat := ofLeBytes ((r.drop off).take n)
  num 1 1 = c.id && num 8 5 = c.f && num 13 1 = c.z - 1 && num 14 2 = c.t && num 16 2 = c.kmax && num 18 2 = c.group

/-- R311 steps 3 and 4. -/
def resumeFrom (c : Camp) (r : List Byte) : Camp :=
  let num (off n : Nat) : Nat := ofLeBytes ((r.drop off).take n)
  { c with
    nonce := BitVec.ofNat 16 (num 2 2)
    seq := BitVec.ofNat 32 (num 4 4)
    position := BitVec.ofNat 32 (num 20 4)
    blks := (List.range c.z).map fun b =>
      let w := num (64 + 4 * b) 4
      let k := c.blk b
      { k with nextEsi := w % 2 ^ 24, limit := w % 2 ^ 24, retired := w.testBit 24 } }

/-- What the RESUME read brought (R299, R311). -/
inductive ResumeRead where
  | fresh
  | record (r : Option (List Byte))
  | fault (status aux : Nat)
  | poisoned
  deriving DecidableEq, Repr

/-- A start is refused (R299). -/
def refuseStart (f : Nat) (x : DescS) (d : Done) (s : State) : State := finishDesc f x.ring x.index d s

/-- The campaign takes its place, in place of an ended one of its identifier (R308). -/
def enterCamp (c : Camp) (s : State) : State :=
  modCampS (fun x => { x with camps := x.camps.filter (fun y => y.id ≠ c.id) ++ [c] }) s

/-- R299: the checks of a start in their order, then the targets and the first record. -/
def openCamp (f : Nat) (x : DescS) (r : ResumeRead) (s : State) : State :=
  let c := campOf s f x
  let rec? : Option (List Byte) := match r with
    | .record o => o.filter (recordMatches c)
    | _ => none
  let noRecord : Bool := match r with
    | .record _ => rec?.isNone
    | _ => false
  let tooMuch : Bool := match rec? with
    | some bs => bs.getD 24 0 ≠ 0xFF
    | none => false
  if sendShut s x then refuseStart f x { status := stRejected } s
  else if noRecord then refuseStart f x { status := stBadDesc } s
  else if (c.group = 4095 ∧ f ≠ hmFn s) ∨ campCount s c.t = 0 ∨ tooMuch then refuseStart f x { status := stRejected } s
  else
    match s.camp.camps.find? fun y => y.id = c.id && y.taken with
    | some y => refuseStart f x { status := stBusy, aux := y.owner } s
    | none =>
      if 16 ≤ (s.camp.camps.filter Camp.taken).length then refuseStart f x { status := stTableFull } s
      else if c.endBy.any (slotReached s) then refuseStart f x { status := stTooLate } s
      else
        let c1 := match rec? with
          | some bs => resumeFrom c bs
          | none => { c with nonce := BitVec.ofNat 16 (drawn s).toNat }
        let t := formTargets c1 s
        if (targetsBut t.2.2 t.2.1 c.id).isEmpty then refuseStart f x { status := stNodeUnknown } s
        else
          match r with
          | .fault status aux => refuseStart f x { status := status, aux := aux } s
          | .poisoned => refuseStart f x { status := stPoisoned } s
          | _ =>
            let s1 := if c.resume then t.2.2 else advanceDraws t.2.2
            buildRecord c.id 0xFF (enterCamp { c1 with skipped := t.1, excluded := t.2.1 } (toEngine f x s1))

/-- The end of a RESUME read. -/
def resumeRead (l : Nat) (j : Job) : ResumeRead :=
  if j.abort then .fault j.ending j.aux else if j.poisoned then .poisoned else .record (recordPick l j.octets)

/-- R311: both copies are read. (DEDUCED, log 47) -/
def readRecords (f : Nat) (x : DescS) (s : State) : State :=
  let l := (campOf s f x).recordLen
  addJob ⟨f, .campResume x.ring x.index, 2, x.num 44 8, 2 * l, 0, false, [], false, false, none, false, 0⟩ (toEngine f x s)

/-- A landed RESUME read of function `f`. (DEDUCED, log 47) -/
def landedResume (s : State) (f : Nat) : Option (Job × DescS) :=
  s.landed.findSome? fun j =>
    match j.what with
    | .campResume r i => if j.fn = f then (findDesc s f r i).map fun x => (j, x) else none
    | _ => none

/-- The final record of an ended campaign is under way (R308). -/
def recordsLeft (s : State) (id : Nat) : Bool := (getCamp s id).any fun c => !c.taken && !c.records.isEmpty

/-- R299, R311: a campaign is started, or goes on once its RESUME read has landed; it waits while the DRBG serves nothing (R328) and, for
a CAMP_ID whose final record is under way, for that record. (DEDUCED, log 47) -/
def doCampaignStart (f : Nat) (s : State) : State :=
  match landedResume s f with
  | some (j, x) =>
    if drbgOn s || sendShut s x then
      openCamp f x (resumeRead (campOf s f x).recordLen j) { s with landed := s.landed.filter fun y => y ≠ j }
    else s
  | none =>
    match readyDesc s f 2 (fun x => x.op = opCampStart) with
    | some x =>
      if sendShut s x then refuseStart f x { status := stRejected } s
      else if !startFieldsOk x then refuseStart f x { status := stBadDesc } s
      else if !drbgOn s || recordsLeft s (x.byte 20) then s
      else if (x.byte 21).testBit 0 then readRecords f x s
      else openCamp f x .fresh s
    | none => s

/-- Meaning of CAMPAIGN_START. -/
def execCampaignStart (f : Fn) (s : State) : Host.Outcome State Fault Refusal := engine (doCampaignStart f.val) s

/-- The first record of a start could not be confirmed (R299). -/
def startFailed (c : Camp) (d : Done) (s : State) : State :=
  finishDesc c.owner c.ring c.index d (modCampS (fun x => { x with camps := x.camps.filter fun y => y.id ≠ c.id }) s)

/-- R299: the first record is confirmed; the start completes and the campaign is active. (DEDUCED, log 47) -/
def startDone (c : Camp) (s : State) : State :=
  let id := c.id
  let s1 := modCamp id (fun x => { x with
    phase := .running
    started := x.startAt.all (slotReached s)
    windowMono := monoNs s
    windowUsed := 0 }) s
  let n := (targetsOf s id).length
  let s2 := finishDesc c.owner c.ring c.index
    { status := stOk, result := n, aux := c.nonce.toNat + c.skipped % 2 ^ 18 * 65536 } s1
  targetsChanged id (raise 136 (id + (if c.resume then 256 else 0)) s2)

/-- The limits of a confirmed record bind. -/
def bindLimits (limits : List Nat) (blks : List CampBlk) : List CampBlk :=
  (limits.zip blks).map fun p => { p.2 with limit := p.1 }

/-- R310: a block has reached its binding limit: a frame of `n` symbols would pass it. -/
def CampBlk.atLimit (n : Nat) (b : CampBlk) : Bool := b.alive && b.limit < b.nextEsi + n

/-- R310: a record's read-back has completed: its limits bind, unless a later record's do already. (DEDUCED, log 47) -/
def confirmRecord (id : Nat) (seq : Word) (s : State) : State :=
  match getCamp s id with
  | none => s
  | some c =>
    let later : Bool := 0 < (seq - c.seq).toInt
    let mine := c.records.find? fun r => r.seq = seq
    let left := c.records.filter fun r => r.seq ≠ seq
    let blks := match mine with
      | some r => if later then bindLimits r.limits c.blks else c.blks
      | none => c.blks
    let s1 := bump 0 Ct.CAMP_CKPT (modCamp id (fun x => { x with
      seq := if later then seq else x.seq
      confirmedMono := monoNs s
      timerDone := false
      records := left
      ckptWait := x.ckptWait && blks.any (CampBlk.atLimit (campCount s c.t))
      blks := blks }) s)
    match c.phase with
    | .starting => startDone c s1
    | .running => recordCheck id s1
    | .ended _ => s1

/-- R310, R312: the read-back of a record, or its abort, is acted on. -/
def doRecordConfirmed (id : Nat) (s : State) : State :=
  let mine (j : Job) : Bool := match j.what with
    | .campRecord c _ _ => c = id
    | _ => false
  match s.landed.find? mine, getCamp s id with
  | some j, some c =>
    let s1 := { s with landed := s.landed.filter fun y => y ≠ j }
    match j.what with
    | .campRecord _ seq _ =>
      if j.abort then
        match c.phase with
        | .starting => startFailed c { status := j.ending, aux := j.aux } s1
        | .running => endCamp id 4 s1
        | .ended _ => modCamp id (fun x => { x with records := x.records.filter fun r => r.seq ≠ seq }) s1
      else if j.poisoned ∧ c.phase = .starting then startFailed c { status := stPoisoned } s1
      else confirmRecord id seq s1
    | _ => s1
  | _, _ => s

/-- Meaning of CAMPAIGN_RECORD_CONFIRMED. -/
def execCampaignRecordConfirmed (id : Nat) (s : State) : Host.Outcome State Fault Refusal := engine (doRecordConfirmed id) s

/-- R312: an aborted job of a campaign ends it at once. -/
def reapCamp (s : State) : State :=
  (s.landed.filter Job.abort).foldl (fun t j =>
    match j.what with
    | .campGather c b => doBlockPrepared c b t
    | .campRecord c _ _ => doRecordConfirmed c t
    | .campResume _ _ => doCampaignStart j.fn t
    | _ => t) s

/-! ### Reports -/

/-- The codes of a report's STATUS as a CAMP_STATE (R306). -/
def reportState (status : Nat) : Nat := status + 2

/-- R306: a report is taken. -/
def reportTaken (c : Camp) (h : Handle) (d : DirEnt) (r : Report) (s : State) : State :=
  let st := reportState r.status
  let s1 := dirMod h (fun x => { x with campPos := BitVec.ofNat 16 r.blocks, campState := st }) (bump 0 Ct.CAMP_REPORT s)
  let s2 := if st ≠ 2 ∧ d.campState ≠ st then raiseNode 142 (c.id + st * 256) h s1 else s1
  let lowered : Bool := r.blocks < d.campPos.toNat && st = 2
  let s3 := if lowered then
    modCamp c.id (fun x => { x with blks := x.blks.mapIdx fun b k => if r.blocks ≤ b then { k with retired := false } else k }) s2
    else s2
  targetsChanged c.id s3

/-- R306: a node's report reaches the campaign engine. -/
def nodeReport (e : Eui) (r : Report) (s : State) : State :=
  let stale := raiseAux 143 r.camp.toNat e.toNat (bump 0 Ct.CAMP_REPORT_STALE s)
  match lookup s e, getCamp s r.camp.toNat with
  | some h, some c =>
    match dirGet s h with
    | some d =>
      if d.campId = r.camp && c.active && c.nonce = r.nonce && r.blocks ≤ c.z && r.status ≤ 2 && (r.status ≠ 1 || r.blocks = c.z) then
        reportTaken c h d r s
      else stale
    | none => stale
  | _, _ => stale

/-! ### Control -/

/-- CAMP_V_STATE.STATE (R314). -/
def campState (c : Camp) : Nat :=
  match c.phase with
  | .starting => 0
  | .ended _ => 5
  | .running => if !c.started then 1 else if c.paused then 3 else if c.ckptWait then 4 else 2

/-- The end reason, 0xFF while the campaign runs (R309). -/
def campReason (c : Camp) : Nat :=
  match c.phase with
  | .ended r => r
  | _ => 0xFF

/-- The 32 octets of a campaign report (R313). -/
def campReportOctets (s : State) (c : Camp) : List Byte :=
  leBytes 1 c.id ++ leBytes 1 (campState c) ++ leBytes 1 (campReason c) ++ leBytes 1 (c.z - 1) ++ leBytes 2 (percentOf s c) ++
    leBytes 2 c.nonce.toNat ++ leBytes 4 c.position.toNat ++ leBytes 4 (targetsLive s c.id).length ++ leBytes 4 (targetsIn s c.id 3) ++
    leBytes 4 (targetsIn s c.id 4) ++ leBytes 4 c.seq.toNat ++ leBytes 2 (c.blks.filter CampBlk.retired).length ++ leBytes 2 0

/-- R313: an action on a campaign that the caller may act on: its status and the state after it. -/
def campAction (c : Camp) (action arg : Nat) (s : State) : Nat × State :=
  let h := arg % 2 ^ 18
  let node (k : DirEnt → Nat × State) : Nat × State :=
    match dirGet s h with
    | none => (stNodeUnknown, s)
    | some d => if mayTake s c.owner c.id d then k d else (stRejected, s)
  match action with
  | 1 => (stOk, withdrawCamp c.id (modCamp c.id (fun x => { x with paused := true }) s))
  | 2 => (stOk, modCamp c.id (fun x => { x with paused := false }) s)
  | 3 => (stOk, endCamp c.id 2 s)
  | 4 => node fun _ => (stOk, targetsChanged c.id (takeTarget h c.id s))
  | 5 => node fun _ => (stOk, targetsChanged c.id (dirMod h (fun x => { x with campState := 5 }) s))
  | 6 => (stOk, buildRecord c.id 0xFF s)
  | _ => (stOk, s)

/-- R313: the oldest CAMPAIGN_CTRL of a function with this ACTION. -/
def doCampCtrl (action f : Nat) (s : State) : State :=
  match readyDesc s f 2 (fun x => x.op = opCampCtrl && x.byte 21 = action) with
  | none => s
  | some x =>
    let fail (st : Nat) (t : State) : State := finishDesc f 2 x.index { status := st } t
    match getCamp s (x.byte 20) with
    | none => fail stNodeUnknown s
    | some c =>
      if !c.active then fail stNodeUnknown s
      else if f ≠ c.owner ∧ f ≠ hmFn s then fail stRejected s
      else
        let r := campAction c action (x.num 24 4) s
        if r.1 ≠ stOk then fail r.1 r.2
        else if x.bufLen = 0 then finishDesc f 2 x.index { status := stOk } r.2
        else
          match getCamp r.2 c.id with
          | some c1 => respond f 2 x.index x.bufAddr (campReportOctets r.2 c1) false { status := stOk } r.2
          | none => r.2

/-- Meaning of CAMPAIGN_REPORT. -/
def execCampaignReport (f : Fn) (s : State) : Host.Outcome State Fault Refusal := engine (doCampCtrl 0 f.val) s

/-- Meaning of CAMPAIGN_PAUSE. -/
def execCampaignPause (f : Fn) (s : State) : Host.Outcome State Fault Refusal := engine (doCampCtrl 1 f.val) s

/-- Meaning of CAMPAIGN_CONTINUE. -/
def execCampaignContinue (f : Fn) (s : State) : Host.Outcome State Fault Refusal := engine (doCampCtrl 2 f.val) s

/-- Meaning of CAMPAIGN_ABORT. -/
def execCampaignAbort (f : Fn) (s : State) : Host.Outcome State Fault Refusal := engine (doCampCtrl 3 f.val) s

/-- Meaning of CAMPAIGN_ADD_NODE. -/
def execCampaignAddNode (f : Fn) (s : State) : Host.Outcome State Fault Refusal := engine (doCampCtrl 4 f.val) s

/-- Meaning of CAMPAIGN_REMOVE_NODE. -/
def execCampaignRemoveNode (f : Fn) (s : State) : Host.Outcome State Fault Refusal := engine (doCampCtrl 5 f.val) s

/-- Meaning of CAMPAIGN_CHECKPOINT. -/
def execCampaignCheckpoint (f : Fn) (s : State) : Host.Outcome State Fault Refusal := engine (doCampCtrl 6 f.val) s

/-- FLR of a function ends its campaigns, and drops one that is starting (R312). -/
def ownerReset (f : Nat) (s : State) : State :=
  (s.camp.camps.filter fun c => c.owner = f).foldl (fun t c =>
    match c.phase with
    | .running => endCamp c.id 5 t
    | .starting => modCampS (fun x => { x with camps := x.camps.filter fun y => y.id ≠ c.id }) (dropCampJobs c true t)
    | .ended _ => modCamp c.id (fun x => { x with records := [] }) t) s

end Sys2Proof.Machine
end

