-- ==== Sys2Proof/Machine/SvcUp.lean ====
section
/-!
DEFINITION. The service engine upward (R227, R233, R235, R236, R241, R251 to R257): reassembly, envelopes, duplicates and replay,
acknowledgements, matching, orphans and delivery.
-/

namespace Sys2Proof.Machine

/-! ### Upward items -/

/-- The item at the head of the engine's upward queue leaves it. -/
def popUp (s : State) : State := modSvc (fun x => { x with upq := x.upq.tail }) s

/-- The function that an upward message of a node goes to (R252). -/
def upFn (s : State) (e : Eui) : Nat :=
  match lookup s e with
  | some h => ((dirGet s h).map DirEnt.tenant).getD (fget s 0 Fl.SVC_UP_CFG_DEF_FN)
  | none => fget s 0 Fl.SVC_UP_CFG_DEF_FN

/-- R255: function `f` has a place for one more item: a post, or room in its holding queue. -/
def hasPlace (s : State) (f : Nat) : Bool :=
  let x := getFn s f
  x.ups.length < x.posts.length || x.held.length + (x.ups.length - x.posts.length) < 1024

/-- An item takes its place (R251). -/
def giveItem (f : Nat) (i : UpItem) (s : State) : State := modFn f (fun x => { x with ups := x.ups ++ [i] }) s

/-- The part of an item that its packet and node give (R251). -/
def itemOf (s : State) (u : UpPkt) (src : Eui) (kind : Nat) (content : List Byte) : UpItem where
  src := src
  token := []
  node := nodeOf s src
  kind := kind
  coapType := 0
  opened := false
  linkUnsec := u.linkUnsec
  late := false
  code := 0
  berth := u.berth
  midOrSport := 0
  dport := 0
  content := content
  status := if u.poisoned then stPoisoned else stOk
  ts := u.sfdTime
  name := u.name
  abandoned := false

/-- The item of a CoAP message (R251). -/
def coapItem (s : State) (u : UpPkt) (src : Eui) (m : Coap) (kind : Nat) (late : Bool) : UpItem :=
  let body := match m.envelope with
    | some e => e.plain
    | none => m.body
  { itemOf s u src kind body with
    token := m.token
    coapType := m.typ.code
    opened := m.envelope.isSome
    late := late
    code := m.code
    midOrSport := m.mid.toNat }

/-- R255: a node's upward message is dropped without an acknowledgement. -/
def upNotAcked (f : Nat) (node : Handle) (s : State) : State := raiseNode 127 f node (bump 0 Ct.SVC_UP_NOACK s)

/-- R255, R288: an item that needs no acknowledgement takes its place and counts in `ct`, or is dropped where there is none. -/
def offerItem (ct : Cnt) (f : Nat) (i : UpItem) (s : State) : State :=
  if hasPlace s f then giveItem f i (bump 0 ct s) else upNotAcked f i.node s

/-- The UDP source port of an upward packet. -/
def UpPkt.port (u : UpPkt) : Nat :=
  match u.upper with
  | .packet p =>
    match p.body with
    | .coap a _ _ | .udp a _ _ => a
    | .echoRequest _ | .echoReply _ | .icmp _ _ | .rpl _ => 0
  | .none | .octets _ | .fragment _ _ _ _ _ _ => 0

/-- R235, R227: an upward packet is dropped. -/
def rxDrop (s : State) : State := bump 0 Ct.SVC_RX_DROP s

/-- R235: an upward packet of an unsupported form. -/
def unsupported (src : Eui) (s : State) : State := raiseNode 122 0 (nodeOf s src) (rxDrop s)

/-- R254: the node's entry counts an accepted upward packet. (DEDUCED, log 39) -/
def noteUpward (u : UpPkt) (src : Eui) (s : State) : State :=
  match lookup s src with
  | some h => dirMod h (fun d => { d with
      lastRsn := u.name.rsn.word
      lastEpoch := u.name.epoch
      rxCnt := min 65535 (d.rxCnt + 1) }) s
  | none => s

/-- R200, R205: the lookup of an upward packet's source; whether the packet lives: not where the entry is SUSPECT, or the lookup meets
an uncorrectable bucket. -/
def sourceRead (e : Eui) (m : HoldRead) (s : State) : Bool × State :=
  let s1 := dirHit m s
  if bucketHit m then (false, s1)
  else
    match lookup s1 e with
    | none => (true, s1)
    | some h =>
      let s2 := dirSee h m s1
      (!dirSuspect s2 h, s2)

/-- R200, R213, R235: the checks of an upward packet; whether it lives. -/
def upChecks (u : UpPkt) (p : Packet) (m : HoldRead) (s : State) : Bool × State :=
  if !p.accepted then (false, unsupported p.src.node s)
  else
    match p.rplOpt with
    | some (inst, err) =>
      if inst ≠ fget s 0 Fl.ROUTE_RPL_INST_INSTANCE then (false, bump 0 Ct.ROUTE_DAO_DROP s)
      else known (if err then bump 0 Ct.ROUTE_WALK_FAIL s else s)
    | none => known s
where
  /-- The source's entry is read, and counts the packet (R254). -/
  known (t : State) : Bool × State :=
    let r := sourceRead p.src.node m t
    if r.1 then (true, noteUpward u p.src.node r.2) else r

/-- R350: a message that the pilot cores would read carries poison; it is dropped. (DEDUCED, log 20; DEDUCED, log 39) -/
def taggedDrop (s : State) : State :=
  metUe .tagged .ue (BitVec.ofNat 26 (Config.freeValue s.draws).toNat) (advanceDraws s)

/-! ### Reassembly -/

/-- A context discarded for overlap or size (R236). (DEDUCED, log 38) -/
def reasmError (src : Eui) (s : State) : State := raiseNode 121 0 (nodeOf s src) (bump 0 Ct.SVC_REASM_ERR s)

/-- The contexts changed. -/
def modReasm (g : List Reasm → List Reasm) (s : State) : State := modSvc (fun x => { x with reasm := g x.reasm }) s

/-- Two fragments cover a common octet. (DEDUCED, log 38) -/
def Frag.overlaps (a b : Frag) : Bool := a.offset < b.offset + b.len && b.offset < a.offset + a.len

/-- R236: a fragment joins its context. (DEDUCED, log 38) -/
def joinFragment (u : UpPkt) (tag size offset len digest : Nat) (p : Packet) (s : State) : State :=
  let key (r : Reasm) : Bool := r.src = u.link && r.tag = tag && r.size = size
  let f : Frag := ⟨offset, len, digest⟩
  let old := s.svc.reasm.find? key
  let r := old.getD ⟨u.link, tag, size, [], monoNs s, false, false⟩
  let gone (t : State) : State := modReasm (fun l => l.filter fun x => !key x) t
  if old.isNone ∧ 4096 ≤ s.svc.reasm.length then raiseNode 120 0 (nodeOf s u.link) (bump 0 Ct.SVC_REASM_FULL s)
  else if r.frags.contains f then s
  else if 1280 < size ∨ size < offset + len ∨ r.frags.any (Frag.overlaps f) then reasmError u.link (gone s)
  else
    let r1 : Reasm := { r with
      frags := r.frags ++ [f]
      linkUnsec := r.linkUnsec || u.linkUnsec
      poisoned := r.poisoned || u.poisoned }
    if (r1.frags.map Frag.len).sum = size then
      let done : UpPkt := { u with upper := .packet p, linkUnsec := r1.linkUnsec, poisoned := r1.poisoned }
      modSvc (fun x => { x with upq := done :: x.upq }) (gone s)
    else if old.isSome then modReasm (fun l => l.map fun x => if key x then r1 else x) s
    else modReasm (fun l => l ++ [r1]) s

/-- R236: the fragment at the head of the upward queue. -/
def doFragmentReceived (s : State) : State :=
  match s.svc.upq with
  | [] => s
  | u :: _ =>
    match u.upper with
    | .fragment tag size offset len digest p => joinFragment u tag size offset len digest p (popUp s)
    | _ => s

/-- Meaning of FRAGMENT_RECEIVED. -/
def execFragmentReceived (s : State) : Host.Outcome State Fault Refusal := engine doFragmentReceived s

/-- R236: 60 s after it opened a context is freed. -/
def doReasmTimeout (i : Nat) (s : State) : State :=
  match s.svc.reasm[i]? with
  | some r =>
    let s1 := fireTimer (r.openMono + 60000000000) s
    raiseNode 119 0 (nodeOf s r.src) (bump 0 Ct.SVC_REASM_TIMEOUT (modReasm (fun l => l.eraseIdx i) s1))
  | none => s

/-- Meaning of REASM_TIMEOUT. -/
def execReasmTimeout (i : Nat) (s : State) : Host.Outcome State Fault Refusal := engine (doReasmTimeout i) s

/-! ### Answers -/

/-- A CoAP answer of `len` octets goes down to the port of a node that its message came from (R255, RFC 7252): nothing where there is
no route or no key. (PRESUMED, log 34) -/
def sendAnswer (e : Eui) (port : Nat) (m : Coap) (len : Nat) (s : State) : State :=
  match targetOf s e with
  | none => s
  | some t =>
    match routeTo t .clean s with
    | (.error _, s1) => s1
    | (.ok r, s1) => if r.keyOk s1 then (sendCoap r .urgent .upAck none port m len s1).2 else keyStale t.handle s1

/-- An empty message with a message ID (R227, R241, R255). -/
def emptyMsg (t : CoapType) (mid : BitVec 16) : Coap := ⟨t, 0, mid, [], [], true, none, none, none⟩

/-- An empty answer to a message. -/
def sendEmpty (t : CoapType) (e : Eui) (port : Nat) (mid : BitVec 16) (s : State) : State := sendAnswer e port (emptyMsg t mid) 4 s

/-- R255: the acknowledgement of a CON request. A sealed one is built afresh, under the key that opened the request (R326). -/
def ackRequest (e : Eui) (port : Nat) (m : Coap) (s : State) : State :=
  let code := fget s 0 Fl.SVC_UP_CFG_ACK_CODE
  if code = 0 then sendEmpty .ack e port m.mid s
  else
    let plain : Coap := ⟨.ack, code, m.mid, m.token, [], true, none, none, none⟩
    match m.envelope, lookup s e with
    | some env, some h =>
      match dirGet s h with
      | some d =>
        if d.sealTxSeq = 0xFFFFFF then raiseNode 113 0 h s
        else
          let out : Seal := ⟨1, 4, env.gen6, d.sealTxSeq, none, env.key, s.otp.eui, false, code, m.token, true, []⟩
          sendAnswer e port { plain with envelope := some out } (4 + m.token.length + 21)
            (dirMod h (fun x => { x with sealTxSeq := x.sealTxSeq + 1 }) s)
      | none => s
    | _, _ => sendAnswer e port plain (4 + m.token.length) s

/-! ### Envelopes, duplicates and replay -/

/-- The MIC of an upward envelope is that of its nonce and associated data as they stand (R231): of this sender and direction, and of
the code and token of the message that carries it. -/
def Seal.micOk (v : Seal) (e : Eui) (m : Coap) : Bool :=
  v.intact && v.sender = e && v.upward && v.code = m.code && v.token = m.token

/-- R233 steps 1 and 2: 0 when the envelope of a node's message opens, else the step that fails; and the candidate that opened it. -/
def sealOpen (s : State) (e : Eui) (m : Coap) (v : Seal) : Nat × Option Candidate :=
  let l := sealCandidates s e v.gen6
  if v.version ≠ 1 ∨ v.kind ≠ 4 ∨ (lookup s e).isNone ∨ l.isEmpty then (1, none)
  else
    match l.find? fun c => c.key = v.key with
    | some c => if v.micOk e m then (0, some c) else (2, none)
    | none => (2, none)

/-- The window of R232 with sequence `q` accepted; none where it is a replay. -/
def DirEnt.window (d : DirEnt) (q : Nat) : Option DirEnt :=
  if d.sealRxHigh < q then
    some { d with sealRxHigh := q, sealRxWin := (d.sealRxWin <<< (q - d.sealRxHigh)) ||| 1 }
  else
    let back := d.sealRxHigh - q
    if back ≤ 31 ∧ !d.sealRxWin.getLsbD back then some { d with sealRxWin := d.sealRxWin ||| (1#32 <<< back) } else none

/-- The message ID is one of the node's last two (R254). -/
def isDuplicate (s : State) (e : Eui) (mid : BitVec 16) : Bool :=
  match lookup s e with
  | some h => (dirGet s h).any fun d => d.mid0 = mid || d.mid1 = mid
  | none => false

/-- R254: the node's last message IDs take a new one. -/
def noteMid (e : Eui) (mid : BitVec 16) (s : State) : State :=
  match lookup s e with
  | some h => dirMod h (fun d => { d with mid1 := d.mid0, mid0 := mid }) s
  | none => s

/-- A message that found no place leaves the node's last message IDs, so that its retransmission is new (R255).
(DESIGN CHOICE, log 40) -/
def forgetMid (e : Eui) (mid : BitVec 16) (s : State) : State :=
  match lookup s e with
  | some h => dirMod h (fun d => if d.mid0 = mid then { d with mid0 := d.mid1 } else d) s
  | none => s

/-! ### Matching -/

/-- The token's number, where it has at least four octets (R237, R253). (DEDUCED, log 39) -/
def tokenOf (t : List Byte) : Option Word := if t.length < 4 then none else some (beWordAt t 0)

/-- R253: an orphan goes to the function of its token. (DEDUCED, log 39) -/
def orphan (u : UpPkt) (src : Eui) (m : Coap) (s : State) : State :=
  let tok := tokenOf m.token
  let f := match tok with
    | some w => bitsOf 27 25 w
    | none => fget s 0 Fl.SVC_UP_CFG_DEF_FN
  let late : Bool := match tok with
    | some w => bitsOf 31 28 w = incarnation s
    | none => false
  let i := coapItem s u src m 2 late
  let i1 := if u.poisoned then i else { i with status := stOrphan }
  let s1 := raiseFull 117 f (nodeOf s src) ((tok.map BitVec.toNat).getD 0) (bump 0 Ct.SVC_ORPHAN s)
  offerItem Ct.SVC_UP_RX f i1 s1

/-- How a response ends its transaction (R240, R242). -/
def respEnd (u : UpPkt) (m : Coap) : TxnEnd :=
  let body := match m.envelope with
    | some e => e.plain
    | none => m.body
  ⟨if u.poisoned then stPoisoned else stOk, m.code, body, m.envelope.isSome, false, u.poisoned, some u.sfdTime, false⟩

/-- R240 step 5: an ACK or RST reaches its transaction; one that already waits for its response goes on waiting at an empty ACK. -/
def ackTxn (t : Txn) (u : UpPkt) (m : Coap) (s : State) : State :=
  match m.typ with
  | .rst => finishTxn t { TxnEnd.of stRejected with rst := true, ts := some u.sfdTime } s
  | _ =>
    let t1 := { t with acked := true }
    if m.code ≠ 0 then finishTxn t1 (respEnd u m) s
    else if t.respLen = 0 then finishTxn t1 { TxnEnd.of stOk with ts := some u.sfdTime } s
    else if t.phase = .waitResp then modTxn t.token (fun _ => t1) s
    else
      let wait := monoNs s + fget s 0 Fl.SVC_COAP_WAIT_RESP_WAIT_S * 1000000000
      modTxn t.token (fun _ => { t1 with phase := .waitResp, respMono := some wait, ackMono := none }) s

/-- R238, R240, R241, R245: an ACK or RST of a node; an ACK with a response carries the transaction's token. -/
def matchAck (u : UpPkt) (src : Eui) (m : Coap) (s : State) : State :=
  match s.svc.txns.find? fun t => t.target = src && t.mid = m.mid && (m.code = 0 || m.token = beBytes 4 t.token.toNat) with
  | some t => ackTxn t u m s
  | none =>
    match m.typ with
    | .ack => orphan u src m s
    | _ => s

/-- R241: a separate response of a node. (DEDUCED, log 39) -/
def matchResponse (u : UpPkt) (src : Eui) (m : Coap) (s : State) : State :=
  let s1 := match m.typ with
    | .con => sendEmpty .ack src u.port m.mid s
    | _ => s
  match tokenOf m.token with
  | some w =>
    match s1.svc.txns.find? fun t => t.target = src && t.token = w && m.token.length = 4 with
    | some t => finishTxn t (respEnd u m) s1
    | none => orphan u src m s1
  | none => orphan u src m s1

/-! ### Requests -/

/-- R306: the report is for the campaign engine (R254 step 5); one that carries poison is dropped (R350). -/
def upReport (u : UpPkt) (src : Eui) (m : Coap) (r : Report) (s : State) : State :=
  if u.poisoned then taggedDrop s
  else
    match m.typ with
    | .con => nodeReport src r (ackRequest src u.port m s)
    | _ => nodeReport src r s

/-- R251, R255: a request is delivered when it has a place; a CON waits for one. -/
def upRequest (u : UpPkt) (src : Eui) (m : Coap) (s : State) : State :=
  let f := upFn s src
  let i := coapItem s u src m 1 false
  match m.typ with
  | .con =>
    if hasPlace s f then ackRequest src u.port m (giveItem f i (bump 0 Ct.SVC_UP_RX s))
    else
      let w : UpWait := ⟨f, i, m, src, u.port, monoNs s + 1000000 * fget s 0 Fl.SVC_UP_CFG_WAIT_MS⟩
      modSvc (fun x => { x with waits := x.waits ++ [w] }) s
  | _ => offerItem Ct.SVC_UP_RX f i s

/-- R254 step 5. -/
def upDispatch (u : UpPkt) (src : Eui) (m : Coap) (s : State) : State :=
  match m.typ with
  | .ack | .rst => matchAck u src m s
  | _ =>
    if 32 ≤ m.code then matchResponse u src m s
    else
      match m.report with
      | some r => if m.code = 2 then upReport u src m r s else upRequest u src m s
      | none => upRequest u src m s

/-- R254 step 2: a duplicate is not delivered; a CON is answered again. -/
def upDuplicate (src : Eui) (port : Nat) (m : Coap) (s : State) : State :=
  let s1 := bump 0 Ct.SVC_UP_DUP s
  match m.typ with
  | .con =>
    if s.svc.waits.any fun w => w.ackNode = src && w.msg.mid = m.mid then s1
    else if 32 ≤ m.code then sendEmpty .ack src port m.mid s1
    else ackRequest src port m s1
  | _ => s1

/-- R254 steps 3 and 4, then 5. -/
def upWindow (u : UpPkt) (src : Eui) (m : Coap) (s : State) : State :=
  match m.envelope, lookup s src with
  | some v, some h =>
    match (dirGet s h).bind fun d => d.window v.seq with
    | some d => upDispatch u src m (dirMod h (fun x => { x with sealRxHigh := d.sealRxHigh, sealRxWin := d.sealRxWin }) s)
    | none => raiseFull 115 0 h v.seq (bump 0 Ct.SVC_SEAL_REPLAY s)
  | _, _ =>
    let request : Bool := match m.typ with
      | .con | .non => m.code < 32
      | _ => false
    if request && m.envelope.isNone && fbit s 0 Fl.SVC_CTRL_UP_REQUIRE_SEAL then
      raiseNode 116 0 (nodeOf s src) (bump 0 Ct.SVC_UNSEALED_DROP s)
    else upDispatch u src m s

/-- R254 step 2. -/
def upFresh (u : UpPkt) (src : Eui) (m : Coap) (s : State) : State :=
  match m.typ with
  | .con | .non => if isDuplicate s src m.mid then upDuplicate src u.port m s else upWindow u src m (noteMid src m.mid s)
  | _ => upWindow u src m s

/-- R227: the code is none that a message of its type may carry. -/
def Coap.badCode (m : Coap) : Bool :=
  let cls := m.code / 32
  match m.typ with
  | .con | .non => m.code = 0 || !([0, 2, 4, 5].contains cls)
  | .ack => m.code ≠ 0 && !([2, 4, 5].contains cls)
  | .rst => m.code ≠ 0

/-- R227, R254: an upward CoAP message. -/
def upCoap (u : UpPkt) (src : Eui) (m : Coap) (s : State) : State :=
  if m.wellFormed ∧ m.typ = .con ∧ m.code = 0 then sendEmpty .rst src u.port m.mid s
  else if !m.wellFormed ∨ m.badCode then
    match m.typ with
    | .con => sendEmpty .rst src u.port m.mid (rxDrop s)
    | _ => rxDrop s
  else
    match m.envelope with
    | none => upFresh u src m s
    | some v =>
      match sealOpen s src m v with
      | (0, some c) =>
        upFresh u src m (useCast (fget s 0 Fl.SVC_SEAL_CFG_MOULD) c.fromPrior src c.key.gen s)
      | (k, _) => raiseNode 114 k (nodeOf s src) (bump 0 Ct.SVC_SEAL_FAIL s)

/-- R250: a copy of a group message that the device sent is heard. -/
def mplHeard (p : Packet) (s : State) : State :=
  let now := monoNs s
  let mine (j : MplJob) : Bool :=
    p.src = j.packet.src && p.mplSeq = j.packet.mplSeq && p.mplSeq.isSome && !j.waiting && j.endMono ≤ now + j.intervalMs * 1000000
  modSvc (fun x => { x with mpls := x.mpls.map fun j => if mine j then { j with heard := j.heard + 1 } else j }) s

/-- The packet is a copy of an MPL message (R250). -/
def isMpl (p : Packet) : Bool := p.dst.isMulticast && p.mplSeq.isSome

/-- The CoAP message that a packet carries: UDP to SVC_PORT.LOCAL (R228). -/
def coapOf (s : State) (b : Body) : Option Coap :=
  match b with
  | .coap _ dport m => if dport = portLocal s then some m else none
  | .udp _ dport bs => if dport = portLocal s then some (coapParse s.otp.oui bs) else none
  | .echoRequest _ | .echoReply _ | .icmp _ _ | .rpl _ => none

/-- R254: the CoAP message, or the copy of a group message (R250), at the head of the upward queue. -/
def doUpwardCoap (m : HoldRead) (s : State) : State :=
  match s.svc.upq with
  | [] => s
  | u :: _ =>
    match u.upper with
    | .packet p =>
      if isMpl p && p.accepted then mplHeard p (popUp s)
      else
        match coapOf s p.body with
        | some c =>
          match upChecks u p m (popUp s) with
          | (false, s1) => s1
          | (true, s1) =>
            let e := p.src.node
            if svcOn s1 then upCoap u e c s1 else upNotAcked (upFn s1 e) (nodeOf s1 e) s1
        | none => s
    | _ => s

/-- Meaning of UPWARD_COAP. -/
def execUpwardCoap (m : HoldRead) (s : State) : Host.Outcome State Fault Refusal := engine (doUpwardCoap m) s

/-! ### Places -/

/-- R255: a CON that waited has found its place. -/
def admitWait (w : UpWait) (s : State) : State :=
  let s1 := modSvc (fun x => { x with waits := x.waits.filter fun y => y ≠ w }) s
  ackRequest w.ackNode w.port w.msg (giveItem w.fn w.item (bump 0 Ct.SVC_UP_RX s1))

/-- R255: the CONs that wait and now have a place, oldest first. -/
def admitWaits (s : State) : State :=
  s.svc.waits.foldl (fun t w => if hasPlace t w.fn then admitWait w t else t) s

/-- R255: no place appeared for the oldest waiting CON within WAIT_MS. (DESIGN CHOICE, log 40) -/
def doUpNotAcked (s : State) : State :=
  let s0 := admitWaits s
  match s0.svc.waits with
  | [] => s0
  | w :: rest =>
    let s1 := fireTimer w.untilMono s0
    upNotAcked w.fn w.item.node (forgetMid w.ackNode w.msg.mid (modSvc (fun x => { x with waits := rest }) s1))

/-- Meaning of UP_NOT_ACKED. -/
def execUpNotAcked (s : State) : Host.Outcome State Fault Refusal := engine doUpNotAcked s

/-! ### Datagrams -/

/-- An ICMPv6 message of `n` octets goes down the route to a target, where it has one (R210, R211, R256). -/
def sendIcmp (t : Target) (body : Body) (n : Nat) (s : State) : State :=
  match routeTo t .clean s with
  | (.error _, s1) => s1
  | (.ok r, s1) =>
    let k := r.hops.length
    let hu := headLen k - 8
    if !r.keyOk s1 then keyStale t.handle s1
    else if 1280 < hu + n then s1
    else (sendPacket r .bulk .upAck none (routedPacket s1 r (hu + n) body) (headCompressed k r.euiDst 0 - 2) hu n s1).2

/-- R256: an Echo Request is answered. -/
def sendEcho (e : Eui) (payload : List Byte) (s : State) : State :=
  match targetOf s e with
  | none => s
  | some t => sendIcmp t (.echoReply payload) (4 + payload.length) s

/-- R256: a datagram is delivered while services run (R225). -/
def upDatagram (f : Nat) (i : UpItem) (s : State) : State :=
  if svcOn s then offerItem Ct.SVC_DGRAM_RX f i s else upNotAcked f i.node s

/-- R209, R210: an RPL message reaches the RPL engine, while RPL_EN is 1; a DIO of the device's own DODAG counts as heard, and one of
another instance is dropped. -/
def upRpl (u : UpPkt) (src : Eui) (multicast : Bool) (m : Rpl) (s : State) : State :=
  if !fbit s 0 Fl.ROUTE_CTRL_RPL_EN then s
  else if u.poisoned then taggedDrop s
  else
    match m with
    | .dio d =>
      let k := s.tables.trickle
      if d.inst ≠ fget s 0 Fl.ROUTE_RPL_INST_INSTANCE then bump 0 Ct.ROUTE_DAO_DROP s
      else if d.dodag ≠ dodagId s then s
      else if monoNs s + k.intervalMs * 1000000 < k.endMono then s
      else modTab (fun t => { t with trickle := { k with heard := k.heard + 1 } }) s
    | .unsupported | .daoAck _ _ _ => bump 0 Ct.ROUTE_DAO_DROP s
    | .dis | .dao _ => modSvc (fun x => { x with rplq := x.rplq ++ [⟨src, u.link, m, multicast, u.name⟩] }) s

/-- R256: what an upward packet carries besides CoAP. (DEDUCED, log 39) -/
def upBody (u : UpPkt) (p : Packet) (s : State) : State :=
  let e := p.src.node
  let f := upFn s e
  let icmp (typ : Nat) (payload : List Byte) (t : State) : State := upDatagram f { itemOf t u e 5 payload with code := typ } t
  let udp (sport dport : Nat) (payload : List Byte) : State :=
    upDatagram f { itemOf s u e 3 payload with midOrSport := sport, dport := dport } s
  match p.body with
  | .rpl m => upRpl u e p.dst.isMulticast m s
  | .coap sport dport m => udp sport dport (m.wire s.otp.oui)
  | .udp sport dport payload => udp sport dport payload
  | .echoRequest payload =>
    if svcOn s && fbit s 0 Fl.SVC_CTRL_ECHO_EN && p.dst = deviceAddr s then sendEcho e payload s else icmp 128 payload s
  | .echoReply payload => icmp 129 payload s
  | .icmp typ payload => if typ = 159 then s else icmp typ payload s

/-- R256: the packet or octets at the head of the upward queue that are neither CoAP nor a fragment; a received MPL control message,
ICMPv6 type 159, is ignored (R250). -/
def doUpwardDatagram (m : HoldRead) (s : State) : State :=
  match s.svc.upq with
  | [] => s
  | u :: _ =>
    match u.upper with
    | .fragment _ _ _ _ _ _ => s
    | .none => popUp s
    | .octets _ => unsupported u.link (popUp s)
    | .packet p =>
      if (isMpl p && p.accepted) || (coapOf s p.body).isSome then s
      else
        match upChecks u p m (popUp s) with
        | (false, s1) => s1
        | (true, s1) => upBody u p s1

/-- Meaning of UPWARD_DATAGRAM. -/
def execUpwardDatagram (m : HoldRead) (s : State) : Host.Outcome State Fault Refusal := engine (doUpwardDatagram m) s

/-! ### Raw copies -/

/-- R257: a receive record is copied to the harbour master function, when a buffer is free. -/
def rawCopy (r : RxRec) (s : State) : State :=
  let f := hmFn s
  let x := getFn s f
  if x.ups.length < x.posts.length then
    let u : UpPkt := ⟨0, .none, r.sfdTime, r.name, r.berth, false, r.abort = some .poisoned⟩
    giveItem f { itemOf s u 0 4 (r.octets ++ r.psdu) with node := noNode } (bump 0 Ct.SVC_RAW_RX s)
  else raise 126 0 (bump 0 Ct.SVC_RAW_DROP s)

/-! ### Delivery -/

/-- The slings that are left of a delivery: one more where its content is found truncated (R277, R287). (DESIGN CHOICE, log 77) -/
def slingsLeft (j : Job) : List (Nat × List Byte) :=
  let l := piecesOf 256 j.total (j.addr + j.moved) (j.octets.drop j.moved)
  if j.truncated then l.take 1 else l

/-- R251, R287: the slings that are left of a delivery are issued, then its C1 entry is produced. -/
def deliverRest (j : Job) (s : State) : State :=
  let l := slingsLeft j
  let s1 := l.foldl (fun t p => sendWrite j.fn p.1 p.2 j.poisoned (translate j.fn (p.1 / 4096) t)) s
  if j.truncated then abandonJob j (abortDone (j.moved + (l.map fun p => p.2.length).sum)) s1 else landJob j s1

/-- The job is a delivery. -/
def JobWhat.delivers : JobWhat → Bool
  | .deliver _ => true
  | _ => false

/-- R251, R287: the delivery that a stevedore has, or the oldest item into the oldest posted buffer, is written. -/
def doReceiveDelivery (f : Nat) (s : State) : State :=
  if dmaOn s f then
    match writer s f JobWhat.delivers with
    | some k =>
      match takeUp ((s.stevs.getD k none).getD (writeJob f (.deliver none) 0 0)) s with
      | some (j, t) => admitWaits (slingOver f (deliverRest j (freeStevAt k t)))
      | none => s
    | none => s
  else s

/-- Meaning of RECEIVE_DELIVERY. -/
def execReceiveDelivery (f : Fn) (s : State) : Host.Outcome State Fault Refusal := engine (doReceiveDelivery f.val) s

end Sys2Proof.Machine
end

