-- ==== Sys2Proof/Machine/Ends.lean ====
section
/-!
DEFINITION. How a queued frame's end reaches its producer (R133, R183, R240, R250, R256, R257, R305), and the ABORT of a parked
DMA fault with what the engines' own jobs do then (R283, R284, R312).
-/

namespace Sys2Proof.Machine

/-- The frame goes as a broadcast. -/
def TxDest.isBroadcast : TxDest → Bool
  | .unicast _ _ => false
  | .broadcast _ | .band _ => true

/-- R236: a fragment that left the queue ended in a link failure: the rest of its packet to that destination is discarded, and the
packet counts. Answers how many were discarded. -/
def fragAbort (q : TxFrame) (s : State) : Nat × State :=
  let rest (x : TxFrame) : Bool := x.owner = q.owner && x.dst = q.dst && x.frame.upper.fragTag = q.frame.upper.fragTag
  ((s.mac.queue.filter rest).length, bump 0 Ct.SVC_FRAG_ABORT (withdraw rest s))

/-- A frame that left the queue tells its producer: its last outcome, whether a transmission of it started, and how it ended. A copy of
a flooded frame fails only by deferrals, and its message goes on with the other copies (R208). -/
def tellOwner (q : TxFrame) (o : TxOutcome) (started : Bool) (e : FrameEnd) (s : State) : State :=
  let a := if e = .linkFail && q.frame.upper.fragTag.isSome then fragAbort q s else (0, s)
  let n := a.1 + 1
  let of : FrameEnd := if q.dst.isBroadcast && e = .linkFail then .sent else e
  match q.owner with
  | .mac | .rpl | .upAck => a.2
  | .mpl id copy => mplFrameEnded id copy n e a.2
  | .txn tok => txnFrameEnded (BitVec.ofNat 32 tok) started n of a.2
  | .datagram id => dgramFrameEnded id q.attempts started n of a.2
  | .raw id => rawEnded id o s
  | .campaign id => campFrameEnded id q.frame (e = .sent) s

/-- A frame leaves the queue. -/
def unqueue (id : Nat) (s : State) : State := unqueueAll (fun q => q.id = id) s

/-- A queued frame ends (R133, R183). -/
def frameEnded (q : TxFrame) (o : TxOutcome) (started : Bool) (e : FrameEnd) (s : State) : State :=
  tellOwner q o started e (unqueue q.id s)

/-- The engines' own jobs that were abandoned are acted on: those of a checkpoint stay for its engine (R312). -/
def abortedFault (f i : Nat) (s : State) : State := reapCamp (abortFault f i s)

/-- Meaning of XLATE_FAULT_ABORT. -/
def execXlateFaultAbort (f : Fn) (i : Fin 16) (s : State) : Host.Outcome State Fault Refusal :=
  act (rowWrite f.val (actionOff i.val) 2 true (fun t => abortedFault f.val i.val t)) s

/-- SLING_DONE: the owner of a job that a drop or flush has stopped acts on it at once (R285). -/
def slingEnded (k : Nat) (octets : List Byte) (poisoned : Bool) (s : State) : State :=
  match s.stevs.getD k none with
  | some j => if j.abort then reapCamp (doSlingDone k octets poisoned s) else doSlingDone k octets poisoned s
  | none => s

/-- Meaning of SLING_DONE. -/
def execSlingDone (k : Fin 8) (octets : List Byte) (poisoned : Bool) (s : State) : Host.Outcome State Fault Refusal :=
  engine (slingEnded k.val octets poisoned) s

/-- FLUSH, with what it means for the campaigns whose jobs it stops (R289, R299). -/
def flushedRing (f r : Nat) (s : State) : State := reapCamp (flushCtrl f r s)

/-- DROP, with what it means for a campaign whose job it stops (R289, R299). -/
def droppedRing (f r : Nat) (s : State) : State := reapCamp (dropCtrl f r s)

/-- Meaning of RING_FLUSH. -/
def execRingFlush (f : Fn) (r : Fin 4) (s : State) : Host.Outcome State Fault Refusal :=
  act (rowWrite f.val (ctrlOff r.val) (setBitAt 1 (rd s (fb f.val + ctrlOff r.val)) true) true (flushedRing f.val r.val)) s

/-- Meaning of RING_DROP. -/
def execRingDrop (f : Fn) (r : Fin 4) (s : State) : Host.Outcome State Fault Refusal :=
  act (rowWrite f.val (ctrlOff r.val) (setBitAt 2 (rd s (fb f.val + ctrlOff r.val)) true) true (droppedRing f.val r.val)) s

/-- Meaning of FLUSH_TIMEOUT. -/
def execFlushTimeout (f : Fn) (r : Fin 4) (s : State) : Host.Outcome State Fault Refusal :=
  engine (fun t => reapCamp (doFlushTimeout f.val r.val t)) s

/-- A write to RING_x_CTRL as a whole (R294): EN, FLUSH and DROP. -/
def takeRingCtrl (f r : Nat) (v : Word) (s : State) : State :=
  let s1 := if bitAt 1 v && r < 4 then flushedRing f r s else s
  let s2 := if bitAt 2 v && r < 4 then droppedRing f r s1 else s1
  if bitAt 0 v then enableRing f r s2 else disableRing f r s2

/-- A write to XLATE_FAULTi_ACTION (R284, R295). -/
def takeAction (f i : Nat) (v : Word) (s : State) : State :=
  if bitsOf 1 0 v = 1 then retryFault f i s else if bitsOf 1 0 v = 2 then abortedFault f i s else rejectAction f s

end Sys2Proof.Machine
end

