-- ==== Sys2Proof/Machine/Nbrs.lean ====
section
/-!
DEFINITION. Neighbour removal and ageing (R191), structure errors (R352), RPL (R209 to R213), table commands and locks (R217 to
R222), and the controls of the ROUTE block (R223).
-/

namespace Sys2Proof.Machine

/-! ### Neighbour removal -/

/-- A queued unicast frame returns to its producer as a link failure (R180, R183, R191). -/
def returnFrame (q : TxFrame) (s : State) : State :=
  if s.mac.queue.any fun x => x.id = q.id then frameEnded q .lockMiss (0 < q.attempts) .linkFail s else s

/-- The frame's first hop is this neighbour. -/
def TxFrame.toEui (q : TxFrame) (e : Eui) : Bool :=
  match q.dst with
  | .unicast _ x => x = e
  | .broadcast _ | .band _ => false

/-- Queued frames whose first hop is a neighbour return as link failures (R180, R191). -/
def returnFrames (e : Eui) (s : State) : State := (s.mac.queue.filter fun q => q.toEui e).foldl (fun t q => returnFrame q t) s

/-- R191: an entry is removed, with the reason of event 98: 0 aged, 1 lost, 2 host delete, 3 node deleted. -/
def removeNbr (k reason : Nat) (s : State) : State :=
  match nbrGet s k with
  | none => s
  | some x =>
    let s1 := raiseFull 98 k x.node reason s
    let rest := ((nbrsOf s1 x.eui).filter fun p => p.1 ≠ k && homeEligible s1 (p.1 / 2048)).map fun p => (p.1, p.2.lqm)
    let s2 := if x.home then setHome x.eui ((bestHome rest).map Prod.fst) s1 else s1
    let s3 := modTab (fun t => { t with nbrFreed := t.nbrFreed.modify (k / 2048) (· ++ [k % 2048]) }) (nbrDel k s2)
    if (nbrsOf s3 x.eui).isEmpty then
      returnFrames x.eui (dirMod x.node (fun d => if d.nbrValid then { d with nbrValid := false, nbr := 0 } else d) s3)
    else s3

/-- R191: a neighbour was not heard for AGE_S seconds of MONO on a berth. -/
def doNbrAged (n i : Nat) (s : State) : State :=
  let k := nbrHandle n i
  let age := fget s 0 Fl.ROUTE_NBR_CFG_AGE_S
  match nbrGet s k with
  | none => s
  | some x => if age = 0 then s else removeNbr k 0 (elapseToMono (x.heardMono + age * 1000000000) s)

/-- Meaning of NBR_AGED. -/
def execNbrAged (n : Berth) (i : Nat) (s : State) : Host.Outcome State Fault Refusal := engine (doNbrAged n.val i) s

/-- R352: an engine finds its own structure uncorrectable: event 160, and the row's effect. -/
def structMet (m : HoldRead) (what : Struct) (s : State) : State :=
  let s1 := holdMet .struct m s
  match m.badLoc with
  | none => s1
  | some _ =>
    match what with
    | .dir h _ => if (dirGet s1 h).isSome then markSuspect h s1 else s1
    | .bucket b => repairStart b s1
    | .nbr n i => if (nbrGet s1 (nbrHandle n i)).isSome then raise 170 0 (removeNbr (nbrHandle n i) 1 s1) else s1
    | .txn tok =>
      match getTxn s1 tok with
      | some t => raise 170 1 (finishTxn { t with begun := t.started s1 } (TxnEnd.of stPoisoned) (withdrawTxn tok s1))
      | none => s1
    | .reasm i =>
      if i < s1.svc.reasm.length then raise 170 2 (modSvc (fun x => { x with reasm := x.reasm.eraseIdx i }) s1) else s1
    | .group g => raise 170 3 (modSvc (fun x => { x with owners := x.owners.del g }) s1)
    | .camp id =>
      match getCamp s1 id with
      | some c => if c.active then raise 170 4 (endCamp id 4 s1) else s1
      | none => s1
    | .cache _ | .mould _ => keyStoreMet m what s1
    | .other => s1

/-! ### The DIO timer -/

/-- A new interval of the DIO Trickle timer begins at MONO `at0` (R210, RFC 6206). -/
def dioBegin (ms at0 : Nat) (s : State) : State :=
  advanceDraws (modTab (fun t => { t with
    trickle := ⟨ms, some (at0 + trickleDraw s ms), at0 + ms * 1000000, 0⟩ }) s)

/-- Imin of the DIO timer in ms (R210). -/
def dioImin (s : State) : Nat := 2 ^ fget s 0 Fl.ROUTE_RPL_TRICKLE_IMIN

/-- R210, RFC 6206: the DIO timer is reset: an interval of Imin begins, unless one of Imin runs. (PRESUMED, log 34) -/
def dioReset (s : State) : State :=
  if fbit s 0 Fl.ROUTE_CTRL_RPL_EN then
    if s.tables.trickle.fireMono.isSome ∧ s.tables.trickle.intervalMs ≤ dioImin s then s else dioBegin (dioImin s) (monoNs s) s
  else s

/-- The device's DIO (R210): G = 1, MOP 1, the DODAG Configuration option with OCP 0 and the timer's parameters, and the prefix with
A = 1, L = 0 and infinite lifetimes. Its Prf and its MaxRankIncrease are 0. (PRESUMED, log 34) -/
def dioMsg (s : State) : Rpl :=
  .dio {
    inst := fget s 0 Fl.ROUTE_RPL_INST_INSTANCE
    version := fget s 0 Fl.ROUTE_RPL_INST_VERSION
    rank := fget s 0 Fl.ROUTE_RPL_INST_MIN_HOP_RANK_INC
    grounded := true
    mop := 1
    prf := 0
    dtsn := fget s 0 Fl.ROUTE_RPL_TRICKLE_DTSN
    dodag := dodagId s
    conf := some {
      doublings := fget s 0 Fl.ROUTE_RPL_TRICKLE_DOUBLINGS
      imin := fget s 0 Fl.ROUTE_RPL_TRICKLE_IMIN
      redundancy := fget s 0 Fl.ROUTE_RPL_TRICKLE_REDUNDANCY
      maxRankInc := 0
      minHopRankInc := fget s 0 Fl.ROUTE_RPL_INST_MIN_HOP_RANK_INC
      ocp := 0
      defLifetime := fget s 0 Fl.ROUTE_RPL_LIFE_DEF_LIFETIME
      unit := fget s 0 Fl.ROUTE_RPL_LIFE_UNIT }
    info := some ⟨64, false, true, 0xFFFFFFFF, 0xFFFFFFFF, BitVec.ofNat 128 ((routePrefix s).toNat * 2 ^ 64)⟩ }

/-- Octets of a DIO: ICMPv6 header, base, DODAG Configuration and Prefix Information options (R210, RFC 6550).
(PRESUMED, log 34) -/
def dioLen : Nat := 4 + 24 + 16 + 32

/-- All RPL nodes of a link, ff02::1a (RFC 6550). -/
def rplNodes : Ip6 := BitVec.ofNat 128 (0xFF02 * 2 ^ 112 + 0x1A)

/-- R210: one DIO on every EB berth. (PRESUMED, log 34) -/
def sendDios (s : State) : State :=
  let bs := ebBerths s
  (castPacket bs .bulk .rpl none (castPkt s rplNodes 3 [] (40 + dioLen) (.rpl (dioMsg s))) 5 40 dioLen
    (bumpBy 0 Ct.ROUTE_DIO bs.length s)).2

/-- R210: the DIO timer fires; the next interval follows the present one. -/
def doDioFire (s : State) : State :=
  let k := s.tables.trickle
  match k.fireMono with
  | none => s
  | some t =>
    if fbit s 0 Fl.ROUTE_CTRL_RPL_EN then
      let s1 := elapseToMono t s
      let red := fget s1 0 Fl.ROUTE_RPL_TRICKLE_REDUNDANCY
      let s2 := if red ≠ 0 ∧ red ≤ k.heard then s1 else sendDios s1
      dioBegin (min (2 * k.intervalMs) (dioImin s2 * 2 ^ fget s2 0 Fl.ROUTE_RPL_TRICKLE_DOUBLINGS)) k.endMono s2
    else s

/-- Meaning of DIO_TRICKLE_FIRE. -/
def execDioTrickleFire (s : State) : Host.Outcome State Fault Refusal := engine doDioFire s

/-- An RPL message leaves the queue. -/
def rplTake (p : RplIn → Bool) (s : State) : Option (RplIn × State) :=
  match s.svc.rplq.findIdx? p with
  | none => none
  | some i =>
    match s.svc.rplq[i]? with
    | some x => some (x, modSvc (fun v => { v with rplq := v.rplq.eraseIdx i }) s)
    | none => none

/-- The message is a DIS. -/
def RplIn.isDis (x : RplIn) : Bool :=
  match x.msg with
  | .dis => true
  | _ => false

/-- The message is a DAO. -/
def RplIn.isDao (x : RplIn) : Bool :=
  match x.msg with
  | .dao _ => true
  | _ => false

/-- R210: a DIS resets the timer, or is answered by a unicast DIO. -/
def doDis (s : State) : State :=
  match rplTake RplIn.isDis s with
  | none => s
  | some (x, s1) =>
    if fbit s1 0 Fl.ROUTE_CTRL_RPL_EN then
      if x.multicast then dioReset s1
      else
        match targetOf s1 x.src with
        | some t => sendIcmp t (.rpl (dioMsg s1)) dioLen (bump 0 Ct.ROUTE_DIO s1)
        | none => s1
    else s1

/-- Meaning of DIS_RECEIVED. -/
def execDisReceived (s : State) : Host.Outcome State Fault Refusal := engine doDis s

/-! ### DAOs -/

/-- The lollipop order of RFC 6550 (R212): sequence `a` is newer than `b`. (PRESUMED, log 34) -/
def seqNewer (a b : Nat) : Bool :=
  if 128 ≤ a ∧ b < 128 then 16 < 256 + b - a
  else if a < 128 ∧ 128 ≤ b then 256 + a - b ≤ 16
  else if 128 ≤ a then b < a ∧ a - b ≤ 16
  else
    let m := 128
    let d := (a % 128 + m - b % 128) % m
    0 < d && d ≤ 16

/-- The next value of a lollipop counter (R210, RFC 6550). (PRESUMED, log 34) -/
def seqNext (v : Nat) : Nat := if v < 128 then (v + 1) % 128 else (v + 1) % 256

/-- A parent as a DAO resolves it: none, the root, or a node (R211). -/
inductive DaoParent where
  | none
  | root
  | node (h : Handle)
  deriving DecidableEq, Repr

/-- A node that a DAO names is found, or inserted with this STATE; a failure has the RESULT of R206. -/
def daoNode (e : Eui) (st : NodeState) (result : Nat) (s : State) : Option Handle × State :=
  match lookup s e with
  | some h => (some h, s)
  | none =>
    match nextHandle s with
    | none => (none, insertFailed result e s)
    | some h =>
      let r := dirInsert h (DirEnt.fresh e st (fget s 0 Fl.ROUTE_CFG_DEF_TENANT) 0) s
      match r.1 with
      | some _ => (some h, r.2)
      | none => (none, insertFailed result e r.2)

/-- R211 step 4: a parent address is resolved: the DODAGID is the root, any other address a node. -/
def daoParent (t : Option Transit) (s : State) : DaoParent × State :=
  match t.bind Transit.parent with
  | none => (.none, s)
  | some a =>
    if a = dodagId s then (.root, s)
    else
      match daoNode a.node .named 2 s with
      | (some h, s1) => (.node h, s1)
      | (none, s1) => (.none, s1)

/-- A parent in a target's entry: the root is the target's own handle, and its own handle as a parent is none (R195, R211). -/
def DaoParent.field (p : DaoParent) (own : Handle) : Nat :=
  match p with
  | .none => noNode
  | .root => own
  | .node h => if h = own then noNode else h

/-- DAO_LIFE of a Path Lifetime (R212). -/
def daoLife (s : State) (life : Byte) : Nat :=
  if life = 0xFF then 0xFFFF else min 65534 ((life.toNat * fget s 0 Fl.ROUTE_RPL_LIFE_UNIT + 59) / 60)

/-- DEPTH that a DAO gives its target (R212); beyond the field's 31 no rule states it. (DEDUCED, log 33) -/
def daoDepth (s : State) (p0 : DaoParent) (own : Handle) : Nat :=
  match p0 with
  | .root => 1
  | .none => 0
  | .node h =>
    if h = own then 0
    else
      match dirGet s h with
      | none => 0
      | some d =>
        if d.depth = 0 then 0 else if d.depth < 31 then d.depth + 1 else (Config.freeValue s.draws).toNat % 32

/-- R212: a target takes a DAO; whether it is stored. (DEDUCED, log 33) -/
def daoTake (h : Handle) (t : Transit) (p0 p1 : DaoParent) (s : State) : Bool × State :=
  match dirGet s h with
  | none => (false, s)
  | some d =>
    let compared : Bool := match d.state with
      | .routed | .expired => true
      | _ => false
    let life := daoLife s t.lifetime
    if compared && t.sequence = d.daoSeq then
      (true, if life = 0 ∧ d.state = .routed then raiseNode 109 0 h (dirPut h { d with daoLife := 0, state := .expired } s)
        else dirPut h { d with daoLife := life } s)
    else if compared && !seqNewer t.sequence.toNat d.daoSeq.toNat then (false, bump 0 Ct.ROUTE_DAO_STALE s)
    else if t.lifetime = 0 then
      (true, dirPut h { d with parent0 := noNode, parent1 := noNode, state := .expired, daoSeq := t.sequence, daoLife := 0 } s)
    else
      let d1 : DirEnt := { d with
        parent0 := p0.field h
        parent1 := p1.field h
        daoSeq := t.sequence
        state := .routed
        depth := daoDepth s p0 h
        daoLife := life }
      (true, advanceDraws (dirPut h d1 s))

/-- R206, R207: a target that the index cannot take becomes a stray with its resolved parent, for the DAO's lifetime.
(DEDUCED, log 33) -/
def daoStray (e : Eui) (t : Transit) (p0 : DaoParent) (s : State) : State :=
  if t.lifetime = 0 then strayDrop e s
  else
    let parent := match p0 with
      | .node h => some h
      | _ => none
    let life := daoLife s t.lifetime
    strayPut ⟨e, parent, if life = 0xFFFF then none else some (monoNs s + life * 60000000000)⟩ s

/-- R211 step 5: one target of a DAO; whether it is stored. (DEDUCED, log 33) -/
def daoTarget (x : DaoTarget) (t : Transit) (p0 p1 : DaoParent) (m : HoldRead) (s : State) : Bool × State :=
  let e := x.addr.node
  let s0 := if t.lifetime = 0 then strayDrop e s else s
  match daoNode e .heard 1 s0 with
  | (none, s1) => (false, daoStray e t p0 s1)
  | (some h, s1) =>
    let s2 := dirSee h m s1
    if dirSuspect s2 h then (false, s2) else daoTake h t p0 p1 s2

/-- Steps 4 to 6 of R211 for a DAO that passed step 3. (DEDUCED, log 33) -/
def daoAccepted (src : Eui) (d : Dao) (targets : List DaoTarget) (ts : List Transit) (t : Transit) (m : HoldRead)
    (s : State) : State :=
  let a := daoParent ts[0]? (bump 0 Ct.ROUTE_DAO s)
  let b := daoParent ts[1]? a.2
  let r := targets.foldl (fun acc x =>
    let y := daoTarget x t a.1 b.1 m acc.2
    (acc.1 && y.1, y.2)) (targets.length = d.targets.length, b.2)
  if d.kFlag && fbit r.2 0 Fl.ROUTE_CTRL_DAO_ACK then
    let to' := if targets.any fun x => x.addr.node = src then src else ((targets.head?).map fun x => x.addr.node).getD src
    match targetOf r.2 to' with
    | some g => sendIcmp g (.rpl (.daoAck d.inst d.daoSeq (if r.1 then 0 else 128))) 8 r.2
    | none => r.2
  else r.2

/-- R211: a DAO fails one of its steps. -/
def daoRejected (step node : Nat) (s : State) : State := raiseNode 103 step node (bump 0 Ct.ROUTE_DAO_DROP s)

/-- The address has the ROUTE_PREFIX prefix (R211). -/
def inPrefix (s : State) (a : Ip6) : Bool := a.upper = routePrefix s

/-- R211: a DAO is checked and taken. -/
def takeDao (src : Eui) (d : Dao) (m : HoldRead) (s : State) : State :=
  let targets := d.targets.filter fun x => x.len = 128 && inPrefix s x.addr
  let ts := (d.transits.filter fun x => x.parent.any (inPrefix s)).mergeSort fun a b => b.control ≤ a.control
  if d.inst ≠ fget s 0 Fl.ROUTE_RPL_INST_INSTANCE ∨ d.dodag.any (· ≠ dodagId s) then daoRejected 1 (nodeOf s src) s
  else if targets.isEmpty then daoRejected 2 (nodeOf s src) s
  else
    match ts.head? with
    | none => daoRejected 3 (nodeOf s src) s
    | some t => daoAccepted src d targets ts t m s

/-- R211: the oldest DAO that waits; where its lookups meet an uncorrectable bucket, it is dropped (R205). -/
def doDao (m : HoldRead) (s : State) : State :=
  match rplTake RplIn.isDao s with
  | none => s
  | some (x, s1) =>
    match x.msg with
    | .dao d =>
      if fbit s1 0 Fl.ROUTE_CTRL_RPL_EN then (if bucketHit m then dirHit m s1 else takeDao x.src d m (dirHit m s1)) else s1
    | _ => s1

/-- Meaning of DAO_RECEIVED. -/
def execDaoReceived (m : HoldRead) (s : State) : Host.Outcome State Fault Refusal := engine (doDao m) s

/-- R212: one entry at a DAO lifetime tick. -/
def daoTickOne (h : Handle) (s : State) : State :=
  match dirGet s h with
  | none => s
  | some d =>
    if d.daoLife = 0 ∨ d.daoLife = 0xFFFF then s
    else if d.daoLife = 1 ∧ d.state = .routed then raiseNode 109 0 h (dirPut h { d with daoLife := 0, state := .expired } s)
    else dirPut h { d with daoLife := d.daoLife - 1 } s

/-- R212: the next multiple of 60 s of MONO. -/
def doDaoTick (s : State) : State :=
  let m := s.tables.daoMinute + 1
  let s1 := modTab (fun t => { t with daoMinute := m }) (elapseToMono (m * 60000000000) s)
  s1.tables.dir.keys.foldl (fun t h => daoTickOne h t) s1

/-- Meaning of DAO_LIFE_TICK. -/
def execDaoLifeTick (s : State) : Host.Outcome State Fault Refusal := engine doDaoTick s

/-! ### The ROUTE controls -/

/-- A write to ROUTE_CTRL (R190, R209, R210, R223): the plain bits, then what each of them starts. -/
def takeRouteCtrl (v : Word) (s : State) : State :=
  let old := rd s Reg.ROUTE_CTRL
  let s1 := storeKey Reg.ROUTE_CTRL v s
  let s2 := if bitAt 0 v && !bitAt 0 old then dioBegin (dioImin s1) (monoNs s1) s1
    else if bitAt 0 old && !bitAt 0 v then modTab (fun t => { t with trickle := { t.trickle with fireMono := none } }) s1
    else s1
  let s3 := if bitAt 1 v && !bitAt 1 old then giveShorts s2 else s2
  let s4 := if bitAt 3 v then
      let n := seqNext (fget s3 0 Fl.ROUTE_RPL_INST_VERSION)
      raise 111 n (dioReset (fset 0 Fl.ROUTE_RPL_INST_VERSION n s3))
    else s3
  if bitAt 4 v then dioReset (fset 0 Fl.ROUTE_RPL_TRICKLE_DTSN (seqNext (fget s4 0 Fl.ROUTE_RPL_TRICKLE_DTSN)) s4) else s4

/-- ROUTE_CTRL as it stands with one bit set. (DEDUCED, log 35) -/
def routeCtrlWith (s : State) (bit : Nat) : Word := setBitAt bit (rd s Reg.ROUTE_CTRL) true

/-- A write of ROUTE_CTRL with one bit set by the harbour master function. -/
def doRouteCtrl (bit : Nat) (s : State) : State :=
  rowWrite (hmFn s) Reg.ROUTE_CTRL (routeCtrlWith s bit) true (takeRouteCtrl (routeCtrlWith s bit)) s

/-- Meaning of SHORT_EN_SET. -/
def execShortEnSet (s : State) : Host.Outcome State Fault Refusal := act (doRouteCtrl 1) s

/-- Meaning of VERSION_INC. -/
def execVersionInc (s : State) : Host.Outcome State Fault Refusal := act (doRouteCtrl 3) s

/-- Meaning of DTSN_INC. -/
def execDtsnInc (s : State) : Host.Outcome State Fault Refusal := act (doRouteCtrl 4) s

/-! ### Table commands -/

/-- A table command (R217): its opcode, table, word mask, handle, key and image. -/
structure TblCmd where
  op : Nat
  table : Nat
  wmask : Nat
  handle : Nat
  key : Eui
  image : List Byte
  deriving DecidableEq, Repr

/-- What a table command answers (R221): its status, the handle concerned, the lock holder, the relocations of an INSERT, an
image that it returns, and the words of the image that are bad. -/
structure TblRes where
  status : Nat
  handle : Nat := noNode
  holder : Nat := 0
  reloc : Option Nat := none
  image : Option (List Byte) := none
  bad : List Nat := []
  deriving DecidableEq, Repr

/-- The entry that a directory command names (R217): by handle, or by key for 0x3FFFF. -/
def tblFind (s : State) (c : TblCmd) : Option Handle :=
  if c.handle = noNode then lookup s c.key else if (dirGet s c.handle).isSome then some c.handle else none

/-- A function may act on a directory entry (R218). -/
def maySee (s : State) (f : Nat) (d : DirEnt) : Bool := f = hmFn s || d.tenant = f

/-- A function sees a neighbour entry (R218): it owns the node. -/
def maySeeNbr (s : State) (f : Nat) (x : Nbr) : Bool := f = hmFn s || (dirGet s x.node).any fun d => d.tenant = f

/-- The function that locks an entry against function `f` (R219). -/
def lockedBy (s : State) (f h : Nat) : Option Nat := (s.tables.locks.find? fun l => l.handle = h && l.fn ≠ f).map TblLock.fn

/-- The locks of an entry end. -/
def unlock (h : Handle) (s : State) : State := modTab (fun t => { t with locks := t.locks.filter fun l => l.handle ≠ h }) s

/-- The lowest listed key above `from'` (from the lowest for 0x3FFFF) that satisfies `p`. -/
def nextKey {α : Type} (m : SMap α) (from' : Nat) (p : α → Bool) : Option Nat :=
  (m.find? fun x => (from' = noNode || from' < x.1) && p x.2).map Prod.fst

/-- R220: the checks of an image, for the words of a mask, an entry's handle and its EUI-64. -/
def imageOk (s : State) (mask h : Nat) (e : Eui) (ws : List Nat) : Bool :=
  let w (i : Nat) : Nat := ws.getD i 0
  let parentOk (p : Nat) : Bool := p = noNode || p = h || (dirGet s p).isSome
  ((List.range 8).all fun i => !mask.testBit i || !wordReserved i (w i)) &&
    (!mask.testBit 0 || w 0 = e.toNat) &&
    (!mask.testBit 1 ||
      ((w 1).testBit 41 && parentOk (nbits 17 0 (w 1)) && parentOk (nbits 35 18 (w 1)) && nbits 40 36 (w 1) ≤ 24 &&
        nbits 48 45 (w 1) ≤ 3))

/-- What a command's read of the hold met (R200, R205, R221): whether it is uncorrectable. -/
def tblMet (m : HoldRead) (s : State) : Bool × State :=
  let s1 := holdMet .table m s
  match m.badLoc with
  | none => (false, s1)
  | some loc =>
    match structAt loc with
    | .bucket b => (true, repairStart b s1)
    | .dir h w => (true, dirMod h (fun d => { d with bad := w :: d.bad.filter (· ≠ w) }) s1)
    | _ => (true, s1)

/-- The read of an entry whose stored words are bad meets them again. -/
def tblMetEntry (h : Handle) (m : HoldRead) (s : State) : Bool × State :=
  match m, dirGet s h with
  | .bad _ _, _ => tblMet m s
  | _, some d =>
    match d.bad with
    | w :: _ => tblMet (.bad .ue (dirLoc h w)) s
    | [] => tblMet m s
  | _, none => tblMet m s

/-- LOOKUP (R217). -/
def tblLookup (f : Nat) (c : TblCmd) (m : HoldRead) (s : State) : TblRes × State :=
  let b := tblMet m s
  if b.1 then ({ status := stPoisoned }, b.2)
  else
    match (lookup b.2 c.key).bind fun h => (dirGet b.2 h).map fun d => (h, d) with
    | none => ({ status := stNodeUnknown }, b.2)
    | some (h, d) => if maySee b.2 f d then ({ status := stOk, handle := h }, b.2) else ({ status := stRejected }, b.2)

/-- READ of a neighbour entry (R217). -/
def tblReadNbr (f : Nat) (c : TblCmd) (m : HoldRead) (s : State) : TblRes × State :=
  let k := c.handle % 16384
  match nbrGet s k with
  | none => ({ status := stNodeUnknown }, s)
  | some x =>
    if maySeeNbr s f x then
      let b := tblMet m s
      let words := match m.badLoc with
        | some loc => [locWord loc % 8]
        | none => []
      ({ status := if b.1 then stPoisoned else stOk, handle := k, image := some (imageOf x.words), bad := words }, b.2)
    else ({ status := stRejected, handle := k }, s)

/-- READ and READ_LOCK of a directory entry (R217, R219). -/
def tblReadDir (f : Nat) (lock : Bool) (c : TblCmd) (m : HoldRead) (s : State) : TblRes × State :=
  match (tblFind s c).bind fun h => (dirGet s h).map fun d => (h, d) with
  | none =>
    let b := tblMet m s
    ({ status := if b.1 then stPoisoned else stNodeUnknown }, b.2)
  | some (h, d) =>
    if !maySee s f d then ({ status := stRejected, handle := h }, s)
    else
      match (if lock then lockedBy s f h else none) with
      | some g => ({ status := stBusy, handle := h, holder := g }, s)
      | none =>
        let b := tblMetEntry h m s
        let bad := ((dirGet b.2 h).map DirEnt.bad).getD []
        let img := imageOf d.words
        if b.1 then ({ status := stPoisoned, handle := h, image := if lock then none else some img, bad := bad }, b.2)
        else if lock then
          let others := b.2.tables.locks.filter fun l => l.handle ≠ h
          if 8 ≤ (others.filter fun l => l.fn = f).length then ({ status := stTableFull, handle := h }, b.2)
          else
            let t := monoNs b.2 + fget b.2 0 Fl.ROUTE_TBL_CFG_LOCK_MS * 1000000
            ({ status := stOk, handle := h, image := some img }, modTab (fun x => { x with locks := others ++ [⟨h, f, t⟩] }) b.2)
        else ({ status := stOk, handle := h, image := some img }, b.2)

/-- A campaign's target set may have changed with an entry (R307). (DEDUCED, log 32) -/
def campTouched (ids : List Nat) (s : State) : State := ids.eraseDups.foldl (fun t id => targetsChanged id t) s

/-- WRITE of a directory entry (R217, R218, R220, R324). (DEDUCED, log 32) -/
def tblWrite (f : Nat) (c : TblCmd) (m : HoldRead) (s : State) : TblRes × State :=
  let ws := wordsOf c.image
  match (tblFind s c).bind fun h => (dirGet s h).map fun d => (h, d) with
  | none =>
    let b := tblMet m s
    ({ status := if b.1 then stPoisoned else stNodeUnknown }, b.2)
  | some (h, d) =>
    if !maySee s f d then ({ status := stRejected, handle := h }, s)
    else
      match lockedBy s f h with
      | some g => ({ status := stBusy, handle := h, holder := g }, s)
      | none =>
        if d.state = .suspect ∧ c.wmask ≠ 0xFF then ({ status := stRejected, handle := h }, s)
        else if !imageOk s c.wmask h d.eui ws then ({ status := stBadDesc, handle := h }, s)
        else
          let b := if c.wmask = 0xFF then (false, s) else tblMet m s
          if b.1 then ({ status := stPoisoned, handle := h }, b.2)
          else
            let d1 := d.setWords c.wmask ws
            let d2 : DirEnt := { d1 with
              tenant := if f = hmFn s then d1.tenant else d.tenant
              bad := d.bad.filter fun w => !c.wmask.testBit w }
            let s1 := (List.range 8).foldl (fun t w => if c.wmask.testBit w then holdWritten (dirLoc h w) t else t) b.2
            let s2 := if d2.castGen = d.castGen then s1 else pinGen h d.eui d.castGen s1
            let s3 := unlock h (dirPut h d2 s2)
            ({ status := stOk, handle := h },
              if d.campId = d2.campId ∧ d.campState = d2.campState ∧ d.campPos = d2.campPos then s3
              else campTouched [d.campId.toNat, d2.campId.toNat] (includeTarget h d2.campId.toNat s3))

/-- INSERT of a directory entry (R217, R218, R220). (DEDUCED, log 32) -/
def tblInsert (f : Nat) (c : TblCmd) (m : HoldRead) (s : State) : TblRes × State :=
  let ws := wordsOf c.image
  let b := tblMet m s
  if b.1 then ({ status := stPoisoned }, b.2)
  else
    match (lookup b.2 c.key).bind fun h => (dirGet b.2 h).map fun d => (h, d) with
    | some (h, d) => ({ status := if maySee b.2 f d then stBadDesc else stRejected, handle := h }, b.2)
    | none =>
      if c.handle ≠ noNode ∧ (dirGet b.2 c.handle).isSome then ({ status := stBadDesc, handle := c.handle }, b.2)
      else
        let at' := if c.handle = noNode then nextHandle b.2 else some c.handle
        if !imageOk b.2 0xFF (at'.getD noNode) c.key ws then ({ status := stBadDesc }, b.2)
        else
          match at' with
          | none => ({ status := stTableFull }, b.2)
          | some h =>
            let d1 := (DirEnt.fresh c.key .heard f 0).setWords 0xFF ws
            let d2 : DirEnt := if f = hmFn s then d1 else { d1 with tenant := f }
            match dirInsert h d2 b.2 with
            | (none, t) => ({ status := stTableFull }, insertFailed 3 c.key t)
            | (some n, t) => ({ status := stOk, handle := h, reloc := some n }, campTouched [d2.campId.toNat] t)

/-- A directory entry is deleted with its berth entries and its index way (R191, R217). -/
def deleteNode (h : Handle) (d : DirEnt) (s : State) : State :=
  let s1 := (nbrsOf s d.eui).foldl (fun t p => removeNbr p.1 3 t) s
  let s2 := dirDel h (indexRemove h d.eui s1)
  campTouched [d.campId.toNat] (unlock h (modTab (fun t => { t with dirFreed := t.dirFreed ++ [h] }) s2))

/-- DELETE (R217, R218, R219). -/
def tblDelete (f : Nat) (c : TblCmd) (m : HoldRead) (s : State) : TblRes × State :=
  let b := tblMet m s
  if c.table = 1 then
    let k := c.handle % 16384
    if (nbrGet s k).isNone then ({ status := stNodeUnknown }, b.2)
    else if f ≠ hmFn s then ({ status := stRejected, handle := k }, s)
    else if b.1 then ({ status := stPoisoned, handle := k }, b.2)
    else ({ status := stOk, handle := k }, removeNbr k 2 b.2)
  else
    match (tblFind s c).bind fun h => (dirGet s h).map fun d => (h, d) with
    | none => ({ status := if b.1 then stPoisoned else stNodeUnknown }, b.2)
    | some (h, d) =>
      if !maySee s f d then ({ status := stRejected, handle := h }, s)
      else
        match lockedBy s f h with
        | some g => ({ status := stBusy, handle := h, holder := g }, s)
        | none => if b.1 then ({ status := stPoisoned, handle := h }, b.2) else ({ status := stOk, handle := h }, deleteNode h d b.2)

/-- UNLOCK of a directory entry (R217, R219). -/
def tblUnlock (f : Nat) (c : TblCmd) (s : State) : TblRes × State :=
  match (tblFind s c).bind fun h => (dirGet s h).map fun d => (h, d) with
  | none => ({ status := stNodeUnknown }, s)
  | some (h, d) =>
    if !maySee s f d then ({ status := stRejected, handle := h }, s)
    else
      match lockedBy s f h with
      | some g => ({ status := stBusy, handle := h, holder := g }, s)
      | none => ({ status := stOk, handle := h }, unlock h s)

/-- NEXT (R217, R218). (DEDUCED, log 32) -/
def tblNext (f : Nat) (c : TblCmd) (m : HoldRead) (s : State) : TblRes × State :=
  let b := tblMet m s
  let found := if c.table = 0 then nextKey b.2.tables.dir c.handle (maySee b.2 f)
    else nextKey b.2.tables.nbrs (if c.handle = noNode then noNode else c.handle % 16384) (maySeeNbr b.2 f)
  if b.1 then ({ status := stPoisoned }, b.2)
  else
    match found with
    | some h => ({ status := stOk, handle := h }, b.2)
    | none => ({ status := stNodeUnknown }, b.2)

/-- Commands that the neighbour tables do not take (R217): refused after the entry is found. -/
def tblNbrRefused (c : TblCmd) (s : State) : TblRes :=
  if c.op ≠ 5 ∧ (nbrGet s (c.handle % 16384)).isNone then { status := stNodeUnknown } else { status := stRejected }

/-- The table engine runs one command (R217 to R221). (DEDUCED, log 32) -/
def tblRun (f : Nat) (c : TblCmd) (m : HoldRead) (s : State) : TblRes × State :=
  if c.op = 1 then if c.table = 1 then ({ status := stBadDesc }, s) else tblLookup f c m s
  else if c.op = 8 then tblNext f c m s
  else if c.op = 6 then tblDelete f c m s
  else if c.op = 2 then if c.table = 1 then tblReadNbr f c m s else tblReadDir f false c m s
  else if c.op = 3 ∨ c.op = 4 ∨ c.op = 5 ∨ c.op = 7 then
    if c.table = 1 then (tblNbrRefused c s, s)
    else if c.op = 3 then tblReadDir f true c m s
    else if c.op = 4 then tblWrite f c m s
    else if c.op = 5 then tblInsert f c m s
    else tblUnlock f c s
  else ({ status := stBadDesc }, s)

/-- The command in function `f`'s TBL registers (R222). -/
def tblRegs (s : State) (f : Nat) : TblCmd where
  op := fget s (fb f) Fl.TBL_CMD_OP
  table := fget s (fb f) Fl.TBL_CMD_TABLE
  wmask := fget s (fb f) Fl.TBL_CMD_WMASK
  handle := bitsOf 17 0 (rd s (fb f + Reg.TBL_HANDLE))
  key := BitVec.ofNat 64 ((rd s (fb f + Reg.TBL_KEY_HI)).toNat * 2 ^ 32 + (rd s (fb f + Reg.TBL_KEY_LO)).toNat)
  image := (List.range 16).flatMap fun i => leBytes 4 (rd s (fb f + Reg.TBL_DATA + 4 * i)).toNat

/-- The command of a TABLE_OP descriptor (R271). -/
def tblDesc (x : DescS) : TblCmd where
  op := x.byte 20
  table := x.byte 21
  wmask := x.byte 22
  handle := x.num 24 4
  key := BitVec.ofNat 64 (x.num 28 8)
  image := x.payload

/-- The results of a command in function `f`'s TBL registers (R221, R222). -/
def tblAnswer (f : Nat) (r : TblRes) (s : State) : State :=
  let b := fb f
  let s1 := fset b Fl.TBL_STATUS_HOLDER r.holder (fset b Fl.TBL_STATUS_CODE r.status
    (fset b Fl.TBL_STATUS_DONE 1 (fset b Fl.TBL_STATUS_BUSY 0 s)))
  let s2 := wr (b + Reg.TBL_CMD) 0 (wr (b + Reg.TBL_HANDLE) (BitVec.ofNat 32 r.handle) s1)
  let s3 := match r.reloc with
    | some n => fset b Fl.TBL_INFO_RELOC n s2
    | none => s2
  match r.image with
  | none => s3
  | some img =>
    modFn f (fun x => { x with tblBad := (List.range 16).filter fun i => r.bad.contains (i / 2) })
      ((List.range 16).foldl (fun t i => wr (b + Reg.TBL_DATA + 4 * i) (BitVec.ofNat 32 (ofLeBytes ((img.drop (4 * i)).take 4))) t) s3)

/-- A write to TBL_CMD (R222): with GO the command waits for the table engine; a reserved opcode completes at once (R217). -/
def takeTblCmd (f : Nat) (v : Word) (s : State) : State :=
  if bitAt 31 v then
    let op := bitsOf 3 0 v
    let s1 := fset (fb f) Fl.TBL_STATUS_BUSY 1 (wr (fb f + Reg.TBL_CMD) v s)
    if op = 0 ∨ 8 < op then tblAnswer f { status := stBadDesc } s1 else modTab (fun t => { t with cmdq := t.cmdq ++ [.regs f] }) s1
  else s

/-- The descriptor of a TABLE_OP that has reached the engine and still stands. -/
def tblWaiting (s : State) (f i : Nat) : Option DescS := readyDesc s f 2 fun x => x.op = opTable && x.index = i

/-- A table command that has reached the engine still stands (R217, R289, R293). -/
def TblRef.stands (s : State) : TblRef → Bool
  | .regs f => fbit s (fb f) Fl.TBL_STATUS_BUSY
  | .desc f i => (tblWaiting s f i).isSome

/-- The table command that the engine runs next: the first that reached it (R217). -/
def nextTbl (s : State) : Option TblRef := s.tables.cmdq.find? (TblRef.stands s)

/-- A table command leaves the queue, and those before it, which no longer stand. -/
def popTbl (c : TblRef) (s : State) : State :=
  modTab (fun t => { t with cmdq := (t.cmdq.dropWhile (· ≠ c)).drop 1 }) s

/-- The table command that the engine runs next, where it is one of function `f` with opcode `op`, from its registers or its ring S2
(R217, R221). -/
def doTbl (op f : Nat) (via : Via) (m : HoldRead) (s00 : State) : State :=
  match via, nextTbl s00 with
  | .regs, some (.regs g) =>
    let c := tblRegs s00 f
    if g = f ∧ c.op = op then
      let r := tblRun f c m (popTbl (.regs g) s00)
      tblAnswer f r.1 r.2
    else s00
  | .ring, some (.desc g i) =>
    match (if g = f then tblWaiting s00 f i else none).filter fun x => x.byte 20 = op with
    | none => s00
    | some x =>
      let s := popTbl (.desc g i) s00
      let r := tblRun f (tblDesc x) m s
      let d : Done := {
        status := r.1.status
        result := r.1.handle
        node := if x.byte 21 = 0 then r.1.handle else noNode
        aux := if r.1.status = stBusy then r.1.holder else r.1.reloc.getD 0 }
      match r.1.image with
      | some img => if r.1.status = stOk then respond f 2 x.index x.bufAddr img false d r.2 else finishDesc f 2 x.index d r.2
      | none => finishDesc f 2 x.index d r.2
  | _, _ => s00

/-- Meaning of TBL_LOOKUP. -/
def execTblLookup (f : Fn) (via : Via) (m : HoldRead) (s : State) : Host.Outcome State Fault Refusal := engine (doTbl 1 f.val via m) s

/-- Meaning of TBL_READ. -/
def execTblRead (f : Fn) (via : Via) (m : HoldRead) (s : State) : Host.Outcome State Fault Refusal := engine (doTbl 2 f.val via m) s

/-- Meaning of TBL_READ_LOCK. -/
def execTblReadLock (f : Fn) (via : Via) (m : HoldRead) (s : State) : Host.Outcome State Fault Refusal :=
  engine (doTbl 3 f.val via m) s

/-- Meaning of TBL_WRITE. -/
def execTblWrite (f : Fn) (via : Via) (m : HoldRead) (s : State) : Host.Outcome State Fault Refusal := engine (doTbl 4 f.val via m) s

/-- Meaning of TBL_INSERT. -/
def execTblInsert (f : Fn) (via : Via) (m : HoldRead) (s : State) : Host.Outcome State Fault Refusal := engine (doTbl 5 f.val via m) s

/-- Meaning of TBL_DELETE. -/
def execTblDelete (f : Fn) (via : Via) (m : HoldRead) (s : State) : Host.Outcome State Fault Refusal := engine (doTbl 6 f.val via m) s

/-- Meaning of TBL_UNLOCK. -/
def execTblUnlock (f : Fn) (via : Via) (s : State) : Host.Outcome State Fault Refusal := engine (doTbl 7 f.val via .clean) s

/-- Meaning of TBL_NEXT. -/
def execTblNext (f : Fn) (via : Via) (m : HoldRead) (s : State) : Host.Outcome State Fault Refusal := engine (doTbl 8 f.val via m) s

/-- R219: a lock reaches LOCK_MS. -/
def doLockExpired (h : Handle) (s : State) : State :=
  match s.tables.locks.find? fun l => l.handle = h with
  | none => s
  | some l => raiseNode 110 l.fn h (unlock h (fireTimer l.untilMono s))

/-- Meaning of LOCK_EXPIRED. -/
def execLockExpired (h : Handle) (s : State) : Host.Outcome State Fault Refusal := engine (doLockExpired h) s

end Sys2Proof.Machine
end

