-- ==== Sys2Proof/Machine/Policy.lean ====
section
/-!
DEFINITION. Radio policy (R121, R122, R128, R129, R134, R136, R139 to R145): the regulatory profile, channel frequencies, power,
coupling, duty accounts, and the preparation of a frame for a berth.
-/

namespace Sys2Proof.Machine

/-! ### The regulatory profile -/

/-- A band entry of the profile (R140). -/
structure BandEnt where
  lo : Nat
  hi : Nat
  grid0 : Nat
  step : Nat
  count : Nat
  flags : Nat
  limit : Int
  duty : Nat
  lbtDbm : Int
  lbtUs : Nat
  allow : List Byte
  deriving DecidableEq, Repr

/-- `n` octets of a record from `off`, as a number. -/
def numAt (bs : List Byte) (off n : Nat) : Nat := ofLeBytes ((bs.drop off).take n)

/-- Band entry `i` of a profile (R140). -/
def bandEnt (bs : List Byte) (i : Nat) : BandEnt :=
  let o := 32 + 56 * i
  { lo := numAt bs o 4 % 2 ^ 22
    hi := numAt bs (o + 4) 4 % 2 ^ 22
    grid0 := numAt bs (o + 8) 4 % 2 ^ 22
    step := numAt bs (o + 12) 2
    count := numAt bs (o + 14) 1
    flags := numAt bs (o + 15) 1
    limit := signedOf 16 (numAt bs (o + 16) 2)
    duty := numAt bs (o + 18) 2
    lbtDbm := signedOf 8 (numAt bs (o + 20) 1)
    lbtUs := numAt bs (o + 22) 2
    allow := (bs.drop (o + 24)).take 32 }

/-- VALID of a band entry. -/
def BandEnt.valid (e : BandEnt) : Bool := e.flags.testBit 0

/-- ALLOW code of grid channel `k` (R140). -/
def BandEnt.allowOf (e : BandEnt) (k : Nat) : Nat := (e.allow.getD (k / 4) 0).toNat / 4 ^ (k % 4) % 4

/-- A profile record is valid (R142): FORMAT, ENTRIES and the CRC. (DEDUCED, log 23) -/
def profOk (bs : List Byte) : Bool :=
  bs.length = 480 && numAt bs 0 1 = 1 && 1 ≤ numAt bs 1 1 && numAt bs 1 1 ≤ 8 &&
    numAt bs 28 4 = (crc32 (bs.take 28 ++ bs.drop 32)).toNat

/-- The fused profile, where it is valid (R142, R143). -/
def profile (s : State) : Option (List Byte) :=
  if s.otp.profileBroken then none else s.otp.profile.filter profOk

/-- Band entry `b` of the profile in force, where it is in use and VALID (R139, R145). -/
def bandOf (s : State) (b : Nat) : Option BandEnt :=
  match profile s with
  | none => none
  | some bs => if b < numAt bs 1 1 ∧ (bandEnt bs b).valid then some (bandEnt bs b) else none

/-- The grid channel of a frequency in a band entry (R141). -/
def BandEnt.gridOf (e : BandEnt) (khz : Nat) : Option Nat :=
  if khz < e.grid0 then none
  else if e.step = 0 then if khz = e.grid0 ∧ 0 < e.count then some 0 else none
  else if (khz - e.grid0) % e.step = 0 ∧ (khz - e.grid0) / e.step < e.count then some ((khz - e.grid0) / e.step)
  else none

/-- The governing entry of a frequency with a channel spacing, both in kHz, and its allow code (R141). -/
def governing (s : State) (khz spacing : Nat) : Option (Nat × BandEnt × Nat) :=
  (List.range 8).findSome? fun b =>
    match bandOf s b with
    | none => none
    | some e =>
      if e.lo ≤ khz - spacing / 2 ∧ khz + spacing / 2 ≤ e.hi then (e.gridOf khz).map fun k => (b, e, e.allowOf k) else none

/-- PATH_GAIN of a berth (R139). -/
def pathGain (s : State) (n : Nat) : Int := ((profile s).map fun bs => signedOf 16 (numAt bs (4 + 2 * n) 2)).getD 0

/-- ANT_GAIN of a berth (R139). -/
def antGain (s : State) (n : Nat) : Int := ((profile s).map fun bs => signedOf 16 (numAt bs (16 + 2 * n) 2)).getD 0

/-- The staged profile: the BCOM_PROF window (R143). -/
def stagedProfile (s : State) : List Byte := (List.range 120).flatMap fun w => leBytes 4 (rd s (Reg.BCOM_PROF + 4 * w)).toNat

/-- Both edges lie inside one berth band (R143). -/
def edgesOk (e : BandEnt) : Bool :=
  e.lo < e.hi && ((470000 ≤ e.lo && e.hi ≤ 960000) || (2400000 ≤ e.lo && e.hi ≤ 2483500)) && e.lo ≤ e.grid0 && e.grid0 ≤ e.hi

/-- The staged record may be fused (R143). -/
def mayFuse (bs : List Byte) : Bool :=
  profOk bs && (List.range (numAt bs 1 1)).all fun b => !(bandEnt bs b).valid || edgesOk (bandEnt bs b)

/-! ### Frequencies -/

/-- The centre of channel `c` for a transmission of a berth in a mode, kHz (R93, R121). -/
def txKhz (s : State) (n m c : Nat) : Nat :=
  if n < 4 then fget s (berthBase n) Fl.BERTH_TX_CF0_KHZ + c * modeSpacing m else 2405000 + 5000 * c - 55000

/-- The channel spacing of a berth's receive plan, kHz (R91). -/
def rxSpacing (s : State) (n : Nat) : Nat :=
  let sp := fget s (berthBase n) Fl.BERTH_RX_PLAN_SPACING
  if sp = 0 then 200 else if sp = 1 then 400 else if sp = 2 then 600 else 5000

/-- The centre of channel `c` of a berth's receive plan, kHz (R93). -/
def rxKhz (s : State) (n c : Nat) : Nat :=
  if n < 4 then fget s (berthBase n) Fl.BERTH_RX_CF0_KHZ + c * rxSpacing s n else 2405000 + 5000 * c - 55000

/-- An applied, enabled entry of a berth at a frequency (R144). -/
def entryAt (s : State) (n khz : Nat) : Option Nat := (entriesOn s n).find? fun j => rxKhz s n (entryChan s n j) = khz

/-- An enabled masked-channel entry of a berth at a frequency (R134). -/
def maskAt (s : State) (n khz : Nat) : Option Nat :=
  (List.range 8).find? fun j =>
    let w := rd s (berthBase n + Reg.BERTH_TX_MASK + 4 * j)
    bitAt 31 w && bitsOf 21 0 w = khz

/-! ### Duty -/

/-- The duty bucket that holds MONO (R145). -/
def bucketNow (s : State) : Nat := monoNs s / 60000000000

/-- used_b in µs (R145): the current bucket and the 60 before it. -/
def dutyUsed (s : State) (b : Nat) : Nat :=
  ((s.bcom.duty.getD b []).filterMap fun p => if bucketNow s ≤ p.1 + 60 ∧ p.1 ≤ bucketNow s then some p.2 else none).sum

/-- limit_b in µs for a class (R145). -/
def dutyLimit (s : State) (b : Nat) (cls : TxClass) : Nat :=
  let duty := ((bandOf s b).map BandEnt.duty).getD 0
  let resv := fget s (8 * b) Fl.BCOM_DUTY_RESV_RESV
  match cls with
  | .eb | .ba | .ack => duty * 360000
  | _ => (duty - resv) * 360000

/-- A transmission's planned airtime passes its limit (R145); a DUTY of 10,000 sets none (R140), and no reserve bounds it then.
(DEDUCED, log 75) -/
def dutyFits (s : State) (b us : Nat) (cls : TxClass) : Bool :=
  10000 ≤ ((bandOf s b).map BandEnt.duty).getD 0 || dutyUsed s b + us ≤ dutyLimit s b cls

/-- A bucket of band entry `b` changed. -/
def dutyMod (b bucket : Nat) (g : Nat → Nat) (s : State) : State :=
  { s with bcom := { s.bcom with duty := s.bcom.duty.modify b fun m => m.put bucket (g ((m.find bucket).getD 0)) } }

/-! ### Coupling and concurrency -/

/-- ISO and ACTION of a coupling pair (R136). -/
def coupleOf (s : State) (i j : Nat) : Nat × Nat :=
  let w := rd s (Reg.BCOM_COUPLE + 4 * (6 * i + j))
  (bitsOf 6 0 w, bitsOf 9 8 w)

/-- The excess in 0.25 dBm of berth `n`'s power at berth `j`'s connector over the limit (R129); none with ISO 127. -/
def coupleExcess (s : State) (n j : Nat) (p : Int) : Option Int :=
  let c := coupleOf s n j
  if c.1 = 127 then none
  else
    let x := p + pathGain s n - 4 * (c.1 : Int) - 4 * signedOf 8 (fget s 0 Fl.BCOM_COUPLE_LIMIT_DBM)
    if 0 < x then some x else none

/-- The power that a pair leaves (R129); none where the frame is deferred. -/
def couplePair (s : State) (n j : Nat) (p : Int) : Option Int :=
  match (coupleOf s n j).2, coupleExcess s n j p with
  | 1, some x => if p - x < -80 then none else some (p - x)
  | 2, some _ => none
  | _, _ => some p

/-- A blank interval of berth `j` is open (R127). -/
def blankOpen (s : State) (j : Nat) : Bool := (getBerth s j).blankEnd.isSome

/-- R129: the coupling check of a transmission against every receiving berth; the power that remains. -/
def coupleCheck (s : State) (n : Nat) (p : Int) : Option Int :=
  (List.range 6).foldl (fun acc j =>
    match acc with
    | none => none
    | some q => if j = n ∨ !rxOn s j ∨ blankOpen s j then some q else couplePair s n j q) (some p)

/-- A slot's RSN and epoch in AUX (R148). -/
def auxSlot (n : SlotName) : Nat := n.rsn.word.toNat + n.epoch.toNat * 2 ^ 32

/-! ### Preparation -/

/-- RAMP_US of a berth (R130). -/
def rampUs (s : State) (n : Nat) : Nat := fget s (berthBase n) Fl.BERTH_TX_RAMP_RAMP_US

/-- A number of ns as a step of an instant. -/
def nsStep (k : Nat) : Instant := BitVec.ofNat 48 k

/-- What is to be sent (R121, R122, R128): how, by which berth and when. -/
structure TxSpec where
  berth : Nat
  cls : TxClass
  frame : Frame
  queued : Option TxFrame
  len : Nat
  chan : Nat
  mode : Nat
  coded : Bool
  fcs4 : Bool
  whitened : Bool
  power : Option Int
  /-- Its reference instant, and the slot start and slot to which it belongs. -/
  refAt : Instant
  slotStart : Instant
  name : SlotName
  node : Handle
  shared : Bool
  deriving DecidableEq, Repr

/-- d_CCA in ns (R144). -/
def ccaNs (s : State) (e : BandEnt) : Nat := 1000 * max (bitsOf 16 0 (rd s Reg.MAC_TS_CCA)) e.lbtUs

/-- The frame needs a clear channel assessment (R144). -/
def needsCca (e : BandEnt) (cls : TxClass) : Bool := e.flags.testBit 2 && !(cls = .ack && e.flags.testBit 3)

/-- TIME_PATH_TXn in ns (R78). (DEDUCED, log 66) -/
def pathTx (s : State) (n : Nat) : Int := signedOf 16 (bitsOf 15 0 (rd s (Reg.TIME_PATH_TX + 8 * n)))

/-- The instants of a transmission from its reference instant, which TIME_PATH_TXn refers to the antenna (R78, R121).
(DEDUCED, log 66) -/
def placeTx (s : State) (x : TxSpec) (khz band : Nat) (mask : Option Nat) (power : Int) : Tx :=
  let ramp := 1000 * rampUs s x.berth
  let ball := x.refAt - BitVec.ofInt 48 (pathTx s x.berth)
  let pre := ball - nsStep (shrNs s x.berth x.mode)
  let last := ball + nsStep (bodyNs x.mode x.coded x.len)
  { cls := x.cls
    frame := x.frame
    queued := x.queued
    len := x.len
    chan := x.chan
    khz := khz
    mode := x.mode
    coded := x.coded
    fcs4 := x.fcs4
    whitened := x.whitened
    power := power
    refAt := x.refAt
    preAt := pre
    goAt := pre - nsStep (ramp + 150000)
    lastAt := last
    endAt := last + nsStep (ramp + 150000)
    airtimeUs := (2 * ramp + shrNs s x.berth x.mode + bodyNs x.mode x.coded x.len + 999) / 1000
    band := band
    mask := mask
    node := x.node
    shared := x.shared
    name := x.name
    coexHeld := false
    chargedBucket := 0
    begun := false
    aes := 0
    stale := false
    done := false }

/-- R122, R133: a frame is refused at preparation; its outcome, after the count and event 8n + 7. -/
def prepRefused (n band : Nat) (x : TxSpec) (o : TxOutcome) (s : State) : State :=
  let s1 := bump (berthBase n) Ct.BERTH_TX_REG_REFUSE s
  if o = .regRefused then raiseFull (8 * n + 7) 14 x.node (auxSlot x.name + band * 2 ^ 56) s1 else s1

/-- R128: the power of a frame by the profile and the berth, and whether it was clipped. -/
def powerOf (s : State) (n : Nat) (e : BandEnt) (asked : Option Int) : Int × Bool :=
  let p := asked.getD (signedOf 16 (fget s (berthBase n) Fl.BERTH_TX_PWR_LEVEL))
  let eirp : Int := if e.flags.testBit 1 then antGain s n else 0
  let top : Int := min (e.limit - pathGain s n - eirp) (if n < 4 then 56 else 40)
  if top < p then (top, true) else (p, false)

/-- Why a frame cannot be prepared (R122, R134, R141), before its power is known. -/
def prepFaultEarly (s : State) (x : TxSpec) : Option (TxOutcome × Nat) :=
  let n := x.berth
  let khz := txKhz s n x.mode x.chan
  if !airFits (tsMaxTx s) x.mode x.coded x.len then some (.tooLong, 0)
  else if !modeOfBand n x.mode then some (.regRefused, 0)
  else
    match governing s khz (modeSpacing x.mode) with
    | none => some (.regRefused, 0)
    | some (b, e, code) =>
      if code = 0 ∨ code = 3 ∨ (code = 2 ∧ (maskAt s n khz).isNone) ∨ e.duty = 0 then some (.regRefused, b) else none

/-- A frame with a governing entry is refused for its power, or for a clear channel assessment that would begin before t = 2 µs of
its slot (R128, R144). -/
def prepLate (s : State) (x : TxSpec) (b : Nat) (e : BandEnt) : Bool :=
  let t := placeTx s x (txKhz s x.berth x.mode x.chan) b none 0
  (powerOf s x.berth e x.power).1 < -80 ||
    (needsCca e x.cls && instantDiff (x.slotStart + nsStep 2000) (t.goAt - nsStep (ccaNs s e)) < 0)

/-- Why a frame cannot be prepared (R122, R128, R134, R141, R144). -/
def prepFault (s : State) (x : TxSpec) : Option (TxOutcome × Nat) :=
  match prepFaultEarly s x, governing s (txKhz s x.berth x.mode x.chan) (modeSpacing x.mode) with
  | some o, _ => some o
  | none, some (b, e, _) => if prepLate s x b e then some (.regRefused, b) else none
  | none, none => none

/-- R128: the clip of a frame's power counts and raises event 8n + 7. -/
def noteClip (n b : Nat) (e : BandEnt) (x : TxSpec) (s : State) : State :=
  if (powerOf s n e x.power).2 then
    raiseFull (8 * n + 7) 16 x.node (auxSlot x.name + b * 2 ^ 56) (bump (berthBase n) Ct.BERTH_TX_PWR_CLIP s)
  else s

/-- R128, R141: a frame is prepared; the transmission, or its outcome. A power that is clipped is counted even where what is left
is too little. (DEDUCED, log 28) -/
def prepareTx (x : TxSpec) (s : State) : (TxOutcome ⊕ Tx) × State :=
  let n := x.berth
  let khz := txKhz s n x.mode x.chan
  match prepFaultEarly s x with
  | some (o, b) => (.inl o, prepRefused n b x o s)
  | none =>
    match governing s khz (modeSpacing x.mode) with
    | none => (.inl .regRefused, s)
    | some (b, e, _) =>
      let s1 := noteClip n b e x s
      if prepLate s x b e then (.inl .regRefused, prepRefused n b x .regRefused s1)
      else (.inr (placeTx s x khz b (maskAt s n khz) (powerOf s n e x.power).1), s1)

/-! ### The host's side of BCOM -/

/-- DUTY_BUCKET_ADVANCE (R145): MONO reaches a multiple of 60 s; buckets outside every window are forgotten. -/
def doBucketAdvance (s : State) : State :=
  let k := max (s.bcom.bucket + 1) (bucketNow s)
  let s1 := elapseToMono (k * 60000000000) s
  { s1 with bcom := { s1.bcom with bucket := k, duty := s1.bcom.duty.map fun m => m.filter fun p => k ≤ p.1 + 60 } }

/-- Meaning of DUTY_BUCKET_ADVANCE. -/
def execDutyBucketAdvance (s : State) : Host.Outcome State Fault Refusal := act doBucketAdvance s

/-- R145: a write to BCOM_DUTY_USEDb adds to the current bucket, saturating. -/
def dutyPreload (b v : Nat) (s : State) : State := dutyMod b (bucketNow s) (fun u => min 0xFFFFFFFF (u + v)) s

/-- Meaning of DUTY_USED_PRELOAD: the BCOM island takes a word for BCOM_DUTY_USEDb. -/
def execDutyUsedPreload (b : Nat) (v : Word) (s : State) : Host.Outcome State Fault Refusal :=
  act (fun t => if b < 8 then dutyPreload b v.toNat t else t) s

/-- A host setting refused against the profile (R134, R145). (DEDUCED, log 24) -/
def setClipped (s : State) : State := bump 0 Ct.BCOM_SET_CLIP s

/-- R145: the island takes a word for BCOM_DUTY_RESVb. -/
def takeDutyResv (b : Nat) (v : Word) (s : State) : State :=
  if bitsOf 13 0 v ≤ ((bandOf s b).map BandEnt.duty).getD 0 then storeKey (Reg.BCOM_DUTY_RESV + 8 * b) v s
  else setClipped (reject Reg.BCOM_STATUS s)

/-- R143: BCOM_PROF_CTRL.FUSE is accepted. (DEDUCED, log 23) -/
def fuseOk (s : State) (f : Nat) : Bool := f = hmFn s && s.otp.profile.isNone && !s.bcom.fusing && mayFuse (stagedProfile s)

/-- R143: the far side takes BCOM_PROF_CTRL; fusing starts. -/
def takeProfCtrl (f : Nat) (v : Word) (s : State) : State :=
  if !bitAt 31 v then s
  else if fuseOk s f then { s with bcom := { s.bcom with fusing := true } }
  else reject Reg.BCOM_STATUS s

/-- Meaning of PROFILE_FUSE. -/
def execProfileFuse (f : Fn) (v : Word) (s : State) : Host.Outcome State Fault Refusal :=
  act (rowWrite f.val Reg.BCOM_PROF_CTRL (v ||| 0x80000000) true (takeProfCtrl f.val (v ||| 0x80000000))) s

/-- R143: fusing ends with its read-back. What a failed fusing left in OTP is open; it is never valid. (DEDUCED, log 23) -/
def doProfileFuseDone (ok : Bool) (s : State) : State :=
  if s.bcom.fusing then
    let bs := stagedProfile s
    let left := (List.range 480).map fun i => BitVec.ofNat 8 (Config.freeValue (s.draws + i)).toNat
    let s1 := { s with
      bcom := { s.bcom with fusing := false }
      otp := { s.otp with profile := some (if ok then bs else left), profileBroken := !ok }
      draws := s.draws + 480 }
    if ok then s1 else fset 0 Fl.BCOM_STATUS_FUSE_FAIL 1 s1
  else s

/-- Meaning of PROFILE_FUSE_DONE. -/
def execProfileFuseDone (ok : Bool) (s : State) : Host.Outcome State Fault Refusal := act (doProfileFuseDone ok) s

/-- A word of BCOM_PROF as a read returns it (R143): the fused record, or the staging. -/
def profWord (s : State) (w : Nat) : Word :=
  match s.otp.profile with
  | some bs => BitVec.ofNat 32 (numAt bs (4 * w) 4)
  | none => rd s (Reg.BCOM_PROF + 4 * w)

end Sys2Proof.Machine
end

