-- ==== Sys2Proof/Machine/Armature.lean ====
section
/-!
DEFINITION. The armature (R152 to R158, R165 to R168, R174, R461): slotframes, cells, hopping and block-ack slots, the contents
of EBs, and the apply check of a pending MAC configuration (R156, R159).
-/

namespace Sys2Proof.Machine

/-! ### Cells -/

/-- The band of a berth: 0 below 1 GHz, 1 at 2.4 GHz, which is also its hopping sequence (R152). -/
def bandOfBerth (n : Nat) : Nat := if n < 4 then 0 else 1

/-- SLOT_OFS of a cell (R184). -/
def Cell.slotOfs (c : Cell) : Nat := bitsOf 15 0 c.d0
/-- CH_OFS of a cell. -/
def Cell.chOfs (c : Cell) : Nat := bitsOf 23 16 c.d0
/-- The slotframe of a cell. -/
def Cell.sf (c : Cell) : Nat := bitsOf 27 24 c.d0
/-- VALID of a cell. -/
def Cell.valid (c : Cell) : Bool := bitAt 28 c.d0
/-- TX of a cell. -/
def Cell.tx (c : Cell) : Bool := bitAt 0 c.d1
/-- SHARED of a cell. -/
def Cell.shared (c : Cell) : Bool := bitAt 2 c.d1
/-- A wide cell (R153): RX, SHARED and WIDE. -/
def Cell.wide (c : Cell) : Bool := bitAt 1 c.d1 && bitAt 2 c.d1 && bitAt 5 c.d1
/-- A classic receive cell (R153): RX, and not a wide cell. -/
def Cell.classic (c : Cell) : Bool := bitAt 1 c.d1 && !c.wide
/-- ADVERT of a cell. -/
def Cell.advert (c : Cell) : Bool := bitAt 6 c.d1
/-- An advertising cell (R153). -/
def Cell.adv (c : Cell) : Bool := c.tx && bitAt 7 c.d1
/-- A broadcast cell (R153). -/
def Cell.bcast (c : Cell) : Bool := c.tx && bitAt 8 c.d1
/-- NBR of a cell. -/
def Cell.nbr (c : Cell) : Nat := bitsOf 29 16 c.d1
/-- A shared transmit cell (R153). -/
def Cell.sharedTx (c : Cell) : Bool := c.tx && c.shared && c.nbr = 0x3FFF && !c.bcast && !c.adv
/-- A dedicated transmit cell (R153). -/
def Cell.dedicated (c : Cell) : Bool := c.tx && !c.shared && c.nbr ≠ 0x3FFF && !c.bcast && !c.adv

/-- LEN of a slotframe (R152). -/
def sfLen (s : State) (h : Nat) : Nat := fget s (4 * h) Fl.MAC_SF_CFG_LEN

/-- The position of a slot in a slotframe (R74, R152). (DEDUCED, log 12) -/
def sfPos (s : State) (h : Nat) (n : SlotName) : Nat := n.asn % sfLen s h

/-- The cells of the active slotframes (R153). -/
def liveCells (s : State) : List Cell := (s.mac.active.cells.map Prod.snd).filter fun c => c.valid && sfOn s c.sf

/-- The cells active in a slot (R153). -/
def cellsAt (s : State) (n : SlotName) : List Cell := (liveCells s).filter fun c => sfPos s c.sf n = c.slotOfs

/-- n_s of a hopping sequence (R154). -/
def hopLen (s : State) (q : Nat) : Nat := fget s (4 * q) Fl.MAC_HOP_CFG_LEN

/-- HOP_s[i]. -/
def hopAt (s : State) (q i : Nat) : Nat := (s.mac.active.hops.find (256 * q + i)).getD 0

/-- The channel of a channel offset in a slot (R154, R75). -/
def hopChan (s : State) (q : Nat) (n : SlotName) (o : Nat) : Nat := hopAt s q ((n.asn + o) % hopLen s q)

/-- The slot is a block-ack slot (R168). -/
def isBaSlot (s : State) (n : SlotName) : Bool := n.asn % fget s 0 Fl.MAC_BA_CFG_PERIOD = 0

/-- The slot is a wide slot of a band (R155, R165). -/
def isWide (s : State) (q : Nat) (n : SlotName) : Bool :=
  !isBaSlot s n && (cellsAt s n).any fun c => c.wide && sfSeq s c.sf = q

/-- SAX of R167. -/
def sax (e : Eui) : Nat :=
  (beBytes 8 e.toNat).foldl (fun h c => (h ^^^ ((h + h / 2 + c.toNat) % 65536)) % 65536) 0

/-- The slot offset and channel offset of a node's autonomous cell (R167). -/
def autoCell (s : State) (e : Eui) : Nat × Nat :=
  let h := fget s 0 Fl.MAC_AUTO_CFG_SF
  (1 + sax e % (sfLen s h - 1), sax e % hopLen s (sfSeq s h))

/-- A node's autonomous cell is active in a slot (R167): its channel offset. -/
def autoAt (s : State) (e : Eui) (n : SlotName) : Option Nat :=
  let h := fget s 0 Fl.MAC_AUTO_CFG_SF
  if fbit s 0 Fl.MAC_AUTO_CFG_EN && sfOn s h && sfPos s h n = (autoCell s e).1 then some (autoCell s e).2 else none

/-- The channels of the classic receive cells of a band in a slot (R153, R167). -/
def classicChans (s : State) (q : Nat) (n : SlotName) : List Nat :=
  (((cellsAt s n).filter fun c => c.classic && sfSeq s c.sf = q).map fun c => hopChan s q n c.chOfs) ++
    (if sfSeq s (fget s 0 Fl.MAC_AUTO_CFG_SF) = q then ((autoAt s s.otp.eui n).map (hopChan s q n)).toList else [])

/-- The entries of a berth whose channel carries a classic receive cell in a slot (R155). -/
def ackEntries (s : State) (b : Nat) (n : SlotName) : List Nat :=
  (entriesOn s b).filter fun j => (classicChans s (bandOfBerth b) n).contains (entryChan s b j)

/-- The cells of a slot in which a berth may transmit (R152). -/
def txCellsAt (s : State) (b : Nat) (n : SlotName) : List Cell :=
  (cellsAt s n).filter fun c => c.tx && sfSeq s c.sf = bandOfBerth b && sfHas s c.sf b

/-- The berth receives in a wide slot of its band (R181). -/
def wideHere (s : State) (b : Nat) (n : SlotName) : Bool :=
  let q := bandOfBerth b
  isWide s q n && rxOn s b && (entriesOn s b).any fun j => (List.range (hopLen s q)).any fun i => hopAt s q i = entryChan s b j

/-- The berth has a classic receive cell in a slot (R181). -/
def classicHere (s : State) (b : Nat) (n : SlotName) : Bool := rxOn s b && !(ackEntries s b n).isEmpty

/-- class_limit (R181). -/
def classLimit (s : State) (b : Nat) (n : SlotName) : Nat :=
  let w := if wideHere s b n then fget s 0 Fl.MAC_POLICY_WIDE_MAX_CLASS else 4
  let c := if classicHere s b n then fget s 0 Fl.MAC_POLICY_RXCELL_MAX_CLASS else 4
  min w c

/-! ### Frame lengths -/

/-- Octets of an IE with its descriptor. -/
def Ie.octets : Ie → Nat
  | .quayTime _ _ => 13
  | .timeCorrection _ _ => 4
  | .tschSync _ _ => 8
  | .timeslot _ t len => if timeslotWide t len then 29 else 27
  | .hopShort _ => 3
  | .hopFull _ _ _ _ _ l _ _ => 16 + 2 * l.length
  | .slotframes l => 3 + (l.map fun x => 4 + 5 * x.2.2.length).sum
  | .wideCell _ _ _ runs => 10 + 4 * runs.length
  | .blockAck _ slots _ ch _ hashes => 11 + (slots * ch + 7) / 8 + (hashes.length + 1) / 2
  | .symbols _ _ _ _ _ _ _ _ _ bs => 23 + bs.length
  | .vendor _ _ _ bs => 6 + bs.length
  | .other _ => 2

/-- Octets of a frame's IEs with the list terminations that they need. -/
def iesOctets (l : List Ie) : Nat :=
  (l.map Ie.octets).sum + (if l.any fun i => !i.isHeader then 2 else 0) + (if l.any Ie.isMlme then 2 else 0)

/-- PSDU octets of a frame of the MAC engine with a security level; a frame without a DSN is one shorter than V of R236. -/
def macLen (f : Frame) (level fcs : Nat) : Nat :=
  frameOverhead f.dst level fcs + iesOctets f.ies - if f.dsn.isNone then 1 else 0

/-! ### Enhanced Beacons -/

/-- FLAGS of the Quay Time IE (R79). -/
def quayFlags (s : State) : Byte :=
  let src := match s.time.ref with
    | .holdover => 3
    | _ => disc s
  let locked := match s.time.ref with
    | .locked => 4
    | _ => 0
  BitVec.ofNat 8 (src + locked + (if s.time.adjRem = 0 then 0 else 8))

/-- The wide slot offsets of a slotframe, ascending (R165). -/
def wideOffsets (s : State) (h : Nat) : List Nat :=
  (((liveCells s).filter fun c => c.sf = h && c.wide).map Cell.slotOfs).mergeSort.eraseDups

/-- Consecutive offsets merged into runs (R166). -/
def runsOf : List Nat → List WideRun
  | [] => []
  | o :: rest =>
    match runsOf rest with
    | [] => [⟨o, 1⟩]
    | r :: rs => if r.start = o + 1 then ⟨o, r.count + 1⟩ :: rs else ⟨o, 1⟩ :: r :: rs

/-- R174: EBs fall due in a slot. -/
def ebDueIn (s : State) (n : SlotName) : Bool := n.asn % fget s 0 Fl.MAC_EB_CFG_PERIOD = 0

/-- The advertised, active slotframes of a band (R174). -/
def advSfs (s : State) (q : Nat) : List Nat :=
  (List.range 16).filter fun h => sfOn s h && sfSeq s h = q && fbit s (4 * h) Fl.MAC_SF_CFG_ADV

/-- The template registers in the order of the Timeslot IE (R159, R174). -/
def templateRegs (s : State) : List Nat :=
  [Reg.MAC_TS_CCA_OFS, Reg.MAC_TS_CCA, Reg.MAC_TS_TX_OFS, Reg.MAC_TS_RX_OFS, Reg.MAC_TS_RX_ACK_DELAY, Reg.MAC_TS_TX_ACK_DELAY,
    Reg.MAC_TS_RX_WAIT, Reg.MAC_TS_ACK_WAIT, Reg.MAC_TS_RXTX, Reg.MAC_TS_MAX_ACK, Reg.MAC_TS_MAX_TX].map fun k => bitsOf 16 0 (rd s k)

/-- The Channel Hopping IE of an EB of a band (R174, R461). -/
def hopIe (s : State) (q : Nat) (n : SlotName) : Ie :=
  let id := fget s (4 * q) Fl.MAC_HOP_CFG_SEQ_ID
  let len := hopLen s q
  let seq := (List.range len).map (hopAt s q)
  if fbit s 0 Fl.MAC_EB_CFG_HOP_FULL then
    .hopFull id (if q = 0 then 9 else 0) (if q = 0 then seq.foldl max 0 + 1 else 27) 0 len seq (n.asn % len) 0
  else .hopShort id

/-- The IEs of an EB of a band in a slot (R166, R174). (PRESUMED, log 26) -/
def ebIes (s : State) (q : Nat) (n : SlotName) (refAt : Instant) : List Ie :=
  let sfs := advSfs s q
  let links (h : Nat) : List (Word × Word) :=
    ((liveCells s).filter fun c => c.sf = h && c.advert && !c.wide).map fun c => (c.d0, c.d1)
  (if fbit s 0 Fl.MAC_CTRL_QT_EB then [Ie.quayTime (quayFlags s) refAt] else []) ++
    [.tschSync n.asn 0, .timeslot (bitsOf 7 0 (rd s Reg.MAC_TS_ID)) (templateRegs s) (fget s 0 Fl.TIME_SLOT_LEN_LEN), hopIe s q n,
      .slotframes (sfs.map fun h => (h, sfLen s h, links h))] ++
    (sfs.filter fun h => !(wideOffsets s h).isEmpty).map fun h =>
      .wideCell h (fget s 0 Fl.MAC_BA_CFG_PERIOD) (fget s 0 Fl.MAC_BA_CFG_CHOFS) (runsOf (wideOffsets s h))

/-- An EB of a band (R174). (PRESUMED, log 26) -/
def ebFrame (s : State) (q : Nat) (n : SlotName) (refAt : Instant) : Frame :=
  { dataFrame s Addr.broadcast none false .none with
    kind := .beacon
    ies := ebIes s q n refAt }

/-- The length of an EB of a berth in a mode. -/
def ebLen (s : State) (b m : Nat) (n : SlotName) : Nat :=
  macLen (ebFrame s (bandOfBerth b) n 0) (fget s 0 Fl.MAC_CTRL_EB_SEC) (fcsLen s b m)

/-! ### The apply check -/

/-- The template's constraints (R159). -/
def templateOk (s : State) : Bool :=
  let r (k : Nat) : Nat := bitsOf 16 0 (rd s k)
  let rxOfs := r Reg.MAC_TS_RX_OFS
  let txOfs := r Reg.MAC_TS_TX_OFS
  let txAck := r Reg.MAC_TS_TX_ACK_DELAY
  rxOfs < txOfs && txOfs < rxOfs + r Reg.MAC_TS_RX_WAIT && r Reg.MAC_TS_CCA_OFS + r Reg.MAC_TS_CCA ≤ txOfs &&
    r Reg.MAC_TS_RX_ACK_DELAY < txAck && txAck < r Reg.MAC_TS_RX_ACK_DELAY + r Reg.MAC_TS_ACK_WAIT && 500 ≤ txAck &&
    txOfs + r Reg.MAC_TS_MAX_TX + txAck + r Reg.MAC_TS_MAX_ACK ≤ fget s 0 Fl.TIME_SLOT_LEN_LEN &&
    2 * fget s 0 Fl.MAC_DRIFT_CFG_GUARD_US < r Reg.MAC_TS_RX_WAIT

/-- The active slotframes. -/
def activeSfs (s : State) : List Nat := (List.range 16).filter (sfOn s)

/-- The slotframes and cells of a set (R152, R154, R156, R167). -/
def sfsOk (s : State) : Bool :=
  ((activeSfs s).all fun h =>
    ((List.range 6).all fun n => !sfHas s h n || (bandOfBerth n = sfSeq s h && berthPresent s n)) &&
      (if sfSeq s h = 0 then sfMode s h < 4 else sfMode s h = 4)) &&
    ((liveCells s).all fun c => c.wide || c.chOfs < hopLen s (sfSeq s c.sf)) &&
    (!fbit s 0 Fl.MAC_AUTO_CFG_EN || 2 ≤ sfLen s (fget s 0 Fl.MAC_AUTO_CFG_SF))

/-- The hopping sequences that active slotframes use (R154). -/
def hopsOk (s : State) : Bool :=
  [0, 1].all fun q =>
    let used := (activeSfs s).filter fun h => sfSeq s h = q
    let seq := (List.range (hopLen s q)).map (hopAt s q)
    used.isEmpty || (decide seq.Nodup && (hopLen s q ≤ 255 || !(liveCells s).any fun c => c.wide && sfSeq s c.sf = q))

/-- EB berths, block-ack berths, wide runs and the EB size (R156, R166, R174). (DEDUCED, log 30) -/
def ebBaOk (s : State) : Bool :=
  let eb := fget s 0 Fl.MAC_EB_CFG_BERTHS
  ((List.range 6).all fun n => !eb.testBit n || berthPresent s n) && berthPresent s (fget s 0 Fl.MAC_BA_CFG_BERTH_SUB) &&
    ((activeSfs s).all fun h => (runsOf (wideOffsets s h)).length ≤ 8) &&
    (List.range 6).all fun n =>
      !eb.testBit n || (activeSfs s).all fun h =>
        let m := sfMode s h
        !(sfSeq s h = bandOfBerth n && sfHas s h n && (liveCells s).any fun c => c.sf = h && c.adv) ||
          airFits (tsMaxTx s) m (txCoded s n m) (ebLen s n m s.time.name)

/-- The reason why a configuration fails its apply check (R156, R157), if it does. (DEDUCED, log 28) -/
def macFault (s : State) : Option Nat :=
  if fbit s 0 Fl.MAC_CTRL_MESH_EN && !slotsOn s then some 5
  else if !templateOk s then some 1
  else if !sfsOk s then some 2
  else if !hopsOk s then some 3
  else if !ebBaOk s then some 4
  else none

/-- EB state changed for every EB berth. -/
def ebsDue (s : State) : State :=
  modMac (fun m => { m with ebs := m.ebs.mapIdx fun b e => if (ebBerths s).contains b then { e with due := true } else e }) s

/-- What follows from an applied set (R157, R174, R190): MESH_EN, and the short address. -/
def macApplied (old : State) (s : State) : State :=
  let was := fbit old 0 Fl.MAC_CTRL_MESH_EN
  let now := fbit s 0 Fl.MAC_CTRL_MESH_EN
  let s1 := if fget old 0 Fl.MAC_PAN_SHORT = fget s 0 Fl.MAC_PAN_SHORT then s else ownShortChanged s
  if was = now then s1
  else
    let s2 := raiseAux 64 (if now then 1 else 0) (auxSlot s1.time.name) s1
    if now then
      let s3 := modMac (fun m => { m with ba := m.ba.map fun _ => ⟨[], []⟩ }) s2
      if gateOpen s3 then ebsDue s3 else s3
    else { s2 with berths := s2.berths.map fun b => { b with requests := [] } }

/-- R156: the pending MAC configuration is checked and applied as a whole at its boundary. (DEDUCED, log 28) -/
def macApply (s : State) : State :=
  let l := pendIn s 0x6400 0x6800
  if l.isEmpty then s
  else
    let go : Bool := (s.pend.find Reg.MAC_COMMIT).any fun v => bitAt 0 v
    let t := (l.filter fun p => p.1 ≠ Reg.MAC_COMMIT).foldl (fun t p => storeKey p.1 p.2 t) s
    let cand := pendClear 0x6400 0x6800 (if go then modMac (fun m => { m with active := m.staging }) t else t)
    match macFault cand with
    | some reason =>
      pendClear 0x6400 0x6800 (raiseAux 65 reason (auxSlot s.time.name) (fset 0 Fl.MAC_STATUS_APPLY_ERR 1 s))
    | none => macApplied s cand

/-! ### Table access -/

/-- A write to MAC_CELL_DATA1 stores the addressed cell in the staging table and advances INDEX (R153, R184). -/
def takeCellData (v : Word) (s : State) : State :=
  let i := fget s 0 Fl.MAC_CELL_ADDR_INDEX
  let s1 := storeKey Reg.MAC_CELL_DATA1 v s
  let c : Cell := ⟨rd s1 Reg.MAC_CELL_DATA0, rd s1 Reg.MAC_CELL_DATA1⟩
  fset 0 Fl.MAC_CELL_ADDR_INDEX (i + 1) (modMac (fun m => { m with staging := { m.staging with cells := m.staging.cells.put i c } }) s1)

/-- Meaning of CELL_DATA_WRITE. -/
def execCellDataWrite (f : Fn) (v : Word) (s : State) : Host.Outcome State Fault Refusal :=
  act (rowWrite f.val Reg.MAC_CELL_DATA1 v true (takeCellData v)) s

/-- The table that SRC selects (R184). -/
def macTable (s : State) (src : Nat) : MacTables := if src = 0 then s.mac.staging else s.mac.active

/-- The addressed cell as MAC_CELL_DATA0 and MAC_CELL_DATA1 read (R184); one never written holds their reset values. -/
def cellShown (s : State) : Cell :=
  ((macTable s (fget s 0 Fl.MAC_CELL_ADDR_SRC)).cells.find (fget s 0 Fl.MAC_CELL_ADDR_INDEX)).getD ⟨0, 0x3FFF0000⟩

/-- Meaning of CELL_DATA_READ: a read of MAC_CELL_DATA1 returns the addressed cell's word and advances INDEX. -/
def execCellDataRead (f : Fn) (s : State) : Host.Outcome State Fault Refusal :=
  act (hostReadWith f.val Reg.MAC_CELL_DATA1 (fun t =>
    fset 0 Fl.MAC_CELL_ADDR_INDEX (fget t 0 Fl.MAC_CELL_ADDR_INDEX + 1)
      (emit (.readData f.val Reg.MAC_CELL_DATA1 (cellShown t).d1) t))) s

/-- The key of the addressed hopping entry (R184). -/
def hopKey (s : State) : Nat := 256 * fget s 0 Fl.MAC_HOP_ADDR_SEQ + fget s 0 Fl.MAC_HOP_ADDR_INDEX

/-- INDEX of MAC_HOP_ADDR advances (R184). -/
def hopAdvance (s : State) : State := fset 0 Fl.MAC_HOP_ADDR_INDEX (fget s 0 Fl.MAC_HOP_ADDR_INDEX + 1) s

/-- A write to MAC_HOP_DATA stores the addressed entry in the staging table (R154, R184). -/
def takeHopData (v : Word) (s : State) : State :=
  let k := hopKey s
  hopAdvance (modMac (fun m => { m with staging := { m.staging with hops := m.staging.hops.put k (bitsOf 9 0 v) } })
    (storeKey Reg.MAC_HOP_DATA v s))

/-- The addressed hopping entry as MAC_HOP_DATA reads (R184). -/
def hopShown (s : State) : Nat := ((macTable s (fget s 0 Fl.MAC_HOP_ADDR_SRC)).hops.find (hopKey s)).getD 0

/-- Meaning of HOP_DATA_ACCESS: a write with a word, or a read. -/
def execHopDataAccess (f : Fn) (w : Option Word) (s : State) : Host.Outcome State Fault Refusal :=
  act (match w with
    | some v => rowWrite f.val Reg.MAC_HOP_DATA v true (takeHopData v)
    | none => hostReadWith f.val Reg.MAC_HOP_DATA (fun t =>
        hopAdvance (emit (.readData f.val Reg.MAC_HOP_DATA (BitVec.ofNat 32 (hopShown t))) t))) s

end Sys2Proof.Machine
end

