-- ==== Sys2Proof/Machine/BootRecord.lean ====
section
/-!
DEFINITION. The two copies of the boot record in flash (R386): their octets, which of them the maquette takes, and which one an
update writes.
-/

namespace Sys2Proof.Machine

/-- The state of a slot by its code; a reserved one is taken as REJECTED (R387). -/
def SlotSt.ofCode (k : Nat) : SlotSt :=
  ([.empty, .incomplete, .staged, .trial, .confirmed, .previous] : List SlotSt).getD k .rejected

/-- The code of a store role (R393). -/
def StoreRole.code : StoreRole → Nat
  | .spare => 0
  | .inUse => 1
  | .trial => 2
  | .previous => 3

/-- The role of a store by its code (R393); no rule says what a reserved one is taken as. (DEDUCED, log 57) -/
def StoreRole.ofCode (k : Nat) : StoreRole := ([.spare, .inUse, .trial, .previous] : List StoreRole).getD k .spare

/-- Bytes 0 to 59 of a copy (R386). -/
def BootRec.front (r : BootRec) : List Byte :=
  [0x01, r.incarnation.zeroExtend 8, BitVec.ofNat 8 r.slotA.code, BitVec.ofNat 8 r.slotB.code, BitVec.ofNat 8 r.store0.code,
   BitVec.ofNat 8 r.store1.code, BitVec.ofNat 8 r.lastFallback, 0] ++ leBytes 4 r.seq.toNat ++ leBytes 4 r.fallbacks ++
  List.replicate 44 0

/-- The 64 octets of a copy (R386). -/
def BootRec.octets (r : BootRec) : List Byte := r.front ++ leBytes 4 (crc32 r.front).toNat

/-- The record of a copy, where it has FORMAT 0x01 and a matching CRC (R386). -/
def bootCopy (bs : List Byte) : Option BootRec :=
  let at' (k n : Nat) : Nat := ofLeBytes ((bs.drop k).take n)
  if at' 0 1 = 1 && at' 60 4 = (crc32 (bs.take 60)).toNat then
    some ⟨BitVec.ofNat 4 (at' 1 1), SlotSt.ofCode (at' 2 1), SlotSt.ofCode (at' 3 1), StoreRole.ofCode (at' 4 1), StoreRole.ofCode (at' 5 1),
      at' 6 1, BitVec.ofNat 32 (at' 8 4), at' 12 4⟩
  else none

/-- The copy that holds the latest SEQ, none where neither is valid (R386). -/
def latestCopy (copies : List (List Byte)) : Option (Bool × BootRec) :=
  match bootCopy (copies.getD 0 []), bootCopy (copies.getD 1 []) with
  | none, none => none
  | some r, none => some (false, r)
  | none, some r => some (true, r)
  | some r, some q => if 0 < (q.seq - r.seq).toInt then some (true, q) else some (false, r)

/-- The record that the maquette takes at a start-up (R386). -/
def bootTaken (copies : List (List Byte)) : BootRec :=
  match latestCopy copies with
  | some p => p.2
  | none => BootRec.blank

/-- An update writes the copy that does not hold the latest SEQ (R386). -/
def writeCopy (r : BootRec) (copies : List (List Byte)) : List (List Byte) :=
  let second : Bool := (latestCopy copies).any fun p => !p.1
  copies.set second.toNat r.octets

end Sys2Proof.Machine
end

