-- ==== Sys2Proof/Machine/Rx.lean ====
section
/-!
DEFINITION. The berth receive path (R89 to R118): demodulators, receive records, the RX LO, clips, calibration, and the trellis
decoder pool.
-/

namespace Sys2Proof.Machine

/-! ### Demodulators and records -/

/-- Demodulator `j` of berth `n`. -/
def getDemod (s : State) (n j : Nat) : Demod := (getBerth s n).demods.getD j Demod.reset

/-- Demodulator `j` of berth `n` changed. -/
def modDemod (n j : Nat) (g : Demod → Demod) (s : State) : State := modBerth n (fun b => { b with demods := b.demods.modify j g }) s

/-- The state of an enabled demodulator that follows no frame (R106, R107). -/
def restState (s : State) (n j : Nat) : DemodState :=
  let b := getBerth s n
  if !entryOn s n j || !rxOn s n || !b.loLock || b.calBusy || inDock s n then .off
  else if b.blankEnd.isSome then .blanked
  else .search

/-- Demodulators in SYNC, PHR or PAYLOAD (RX_DEMODS.NOW, R119). -/
def demodsNow (b : BerthS) : Nat :=
  (b.demods.filter fun d => match d.st with
    | .sync | .phr | .payload => true
    | .off | .search | .blanked => false).length

/-- The largest number of demodulators in use follows (R119). -/
def notePeak (n : Nat) (s : State) : State := modBerth n (fun b => { b with demodPeak := max b.demodPeak (demodsNow b) }) s

/-- The counter of an abort reason (R107, R115). -/
def AbortReason.counter : AbortReason → Option Cnt
  | .phrInvalid => some Ct.BERTH_RX_PHR_ERR
  | .sustain => some Ct.BERTH_RX_SUSTAIN
  | .recaptured => none
  | .blanked => some Ct.BERTH_RX_BLANKED
  | .quayFull => none
  | .config => some Ct.BERTH_RX_CONFIG_ABORT
  | .poisoned => some Ct.BERTH_RX_POISON

/-- The counts of a record that closes (R102, R107, R119). -/
def countRecord (r : RxRec) (s : State) : State :=
  let b := berthBase r.berth
  match r.abort with
  | some a => match a.counter with
    | some c => bump b c s
    | none => s
  | none =>
    if r.fcsOk then bump b Ct.BERTH_RX_OK s
    else
      let s1 := bump b Ct.BERTH_RX_FCS_ERR s
      if r.clip then bump b Ct.BERTH_RX_CLIP_LOSS s1 else s1

/-- A record closes: it is counted and crosses the quay to the MAC engine (R116, R118), unless a flush discards it (R357). -/
def closeRecord (r : RxRec) (s : State) : State :=
  if flushTakes s r.berth r.seq.toNat then flushItem r.seq.toNat (countRecord r s)
  else modMac (fun m => { m with records := m.records ++ [r] }) (countRecord r s)

/-- Demodulator `j`'s open record, if any, closes with an abort reason (R107, R117). -/
def abortRecord (n j : Nat) (a : AbortReason) (s : State) : State :=
  match (getDemod s n j).record with
  | some r => modDemod n j (fun d => { d with record := none }) (closeRecord { r with abort := some a, fcsOk := false } s)
  | none => s

/-- Demodulator `j` enters a state. -/
def setDemod (n j : Nat) (st : DemodState) (s : State) : State := modDemod n j (fun d => { d with st := st }) s

/-- Demodulator `j` goes OFF; an open record closes with reason CONFIG (R107). -/
def demodOff (n j : Nat) (s : State) : State := setDemod n j .off (abortRecord n j .config s)

/-- Every demodulator of a berth goes OFF (R95, R107). -/
def demodsOff (n : Nat) (s : State) : State := forBelow (berthEntries n) (demodOff n) s

/-- A demodulator at rest takes the state that the berth now gives it; from OFF only SEARCH (R107). -/
def rest (n j : Nat) (s : State) : State :=
  match (getDemod s n j).st with
  | .off => if restState s n j = .search then setDemod n j .search s else s
  | .blanked | .search => setDemod n j (restState s n j) s
  | .sync | .phr | .payload => s

/-- Every demodulator of a berth that follows no frame takes its state (R107). -/
def restAll (n : Nat) (s : State) : State := forBelow (berthEntries n) (rest n) s

/-- A blank starts: open records close with reason BLANKED and every demodulator but those OFF enters BLANKED (R103, R107). -/
def blankAll (n : Nat) (s : State) : State :=
  forBelow (berthEntries n) (fun j t =>
    match (getDemod t n j).st with
    | .off => t
    | _ => setDemod n j .blanked (abortRecord n j .blanked t)) s

/-! ### Reception -/

/-- TIME_PATH_RXn in ns (R78). (DEDUCED, log 66) -/
def pathRx (s : State) (n : Nat) : Int := signedOf 16 (bitsOf 15 0 (rd s (Reg.TIME_PATH_RX + 8 * n)))

/-- RX_RSSI_OFS of a berth in 0.25 dB (R112). -/
def rssiOfs (s : State) (n : Nat) : Int := fint s (berthBase n) Fl.BERTH_RX_RSSI_OFS_OFS

/-- A level as a record holds it (R112). -/
def level16 (i : Int) : Int := clampInt (-32768) 32767 i

/-- R108: a level passes the detection threshold over an entry's floor, both in 0.25 dBm. -/
def detects (s : State) (n : Nat) (lp floor : Int) : Bool := floor + 4 * (fget s (berthBase n) Fl.BERTH_RX_DET_DET_DB : Int) ≤ lp

/-- R108: a demodulator in SEARCH detects a preamble whose level passes the threshold. (DEDUCED, log 74) -/
def doPreambleDetected (n j : Nat) (lp floor : Int) (s : State) : State :=
  match (getDemod s n j).st with
  | .search =>
    if detects s n lp floor then
      notePeak n (modDemod n j (fun d => { d with st := .sync, lp := lp, floor := floor, recapture := false }) s)
    else s
  | _ => s

/-- Meaning of PREAMBLE_DETECTED. -/
def execPreambleDetected (n : Berth) (j : Nat) (lp floor : Int) (s : State) : Host.Outcome State Fault Refusal :=
  act (doPreambleDetected n.val j lp floor) s

/-- The start of the slot that contains an instant at most one slot before or in the current slot (R67). -/
def slotStartAt (s : State) (t : Instant) : Option Instant :=
  if !slotsOn s then none
  else if instantDiff s.time.slotStart t < 0 then some (s.time.slotStart - nsStep (1000 * fget s 0 Fl.TIME_SLOT_LEN_LEN))
  else some s.time.slotStart

/-- From the ball to the antenna and through the receiver: TIME_PATH_RXn and the group delay of a mode (R78). -/
def rxDelay (s : State) (n m : Nat) : Instant := BitVec.ofInt 48 (pathRx s n) + BitVec.ofNat 48 (Config.groupDelay m)

/-- The record that an SFD opens (R112, R116, R118). -/
def newRecord (s : State) (n j : Nat) (m : SfdMeas) : RxRec :=
  let b := getBerth s n
  let sfd := nowNs s + BitVec.ofNat 48 m.ns.val - rxDelay s n (entryMode s n j)
  { psduLen := 0
    fcsOk := false
    fcs4 := false
    whitened := false
    coded := m.coded
    abort := none
    sfdTime := sfd
    rssi := level16 (m.rssi - rssiOfs s n)
    floor := level16 ((getDemod s n j).floor - rssiOfs s n)
    cfo := m.cfo
    name := slotAt s sfd
    slotStart := slotStartAt s sfd
    entry := j
    berth := n
    mode := entryMode s n j
    clip := false
    gainStep := false
    channel := entryChan s n j
    gain := b.gain
    decoder := none
    recapture := (getDemod s n j).recapture
    ackLate := false
    seq := b.recSeq
    endAt := sfd
    frame := none }

/-- The coded SFD is one that the entry matches (R104). -/
def sfdAccepted (s : State) (n j : Nat) (m : SfdMeas) : Bool := !m.coded || (n < 4 && bitAt 4 (chWord s n j))

/-- Symbols of an SFD (R109). -/
def sfdSymbols (m : Nat) : Nat := if m = 4 then 2 else 16

/-- Symbols of preamble pattern that a demodulator bears: 1,024 octets, or 32 symbols of O-QPSK (R109). -/
def preambleLimit (m : Nat) : Nat := if m = 4 then 32 else 8192

/-- R109: the SFD begins within SFD_WIN symbols after the preamble pattern, and that did not last too long. -/
def sfdInTime (s : State) (n j : Nat) (m : SfdMeas) : Bool :=
  m.gap ≤ fget s (berthBase n) Fl.BERTH_RX_DET_SFD_WIN && m.preamble ≤ preambleLimit (entryMode s n j)

/-- R107, R109: a demodulator in SYNC releases. -/
def releaseSync (n j : Nat) (s : State) : State :=
  match (getDemod s n j).st with
  | .sync => setDemod n j .search (bump (berthBase n) Ct.BERTH_RX_FALSE_SYNC s)
  | _ => s

/-- R107, R109, R112: a demodulator in SYNC matches an SFD and opens a record, which stalls in the berth's quay buffer while the pool has
no cell for it (R356); one that comes too late finds it released. (DEDUCED, log 74) -/
def doSfdMatched (n j : Nat) (m : SfdMeas) (s : State) : State :=
  match (getDemod s n j).st with
  | .sync =>
    if !sfdAccepted s n j m then s
    else if sfdInTime s n j m then
      let r := newRecord s n j m
      let s1 := modBerth n (fun b => { b with recSeq := b.recSeq + 1 }) (bump (berthBase n) Ct.BERTH_RX_SYNC s)
      modDemod n j (fun d => { d with st := .phr, record := some r }) (if cellFree s then s1 else poolStall n s1)
    else releaseSync n j s
  | _ => s

/-- Meaning of SFD_MATCHED. -/
def execSfdMatched (n : Berth) (j : Nat) (m : SfdMeas) (s : State) : Host.Outcome State Fault Refusal := act (doSfdMatched n.val j m) s

/-- R109: the SFD window has expired, or the preamble pattern lasts too long. -/
def mustRelease (s : State) (n j : Nat) : SyncEnd → Bool
  | .window k => fget s (berthBase n) Fl.BERTH_RX_DET_SFD_WIN + sfdSymbols (entryMode s n j) < k
  | .preamble k => preambleLimit (entryMode s n j) < k

/-- R109: a demodulator in SYNC releases when its SFD window expires or the preamble is too long. (DEDUCED, log 74) -/
def doSyncRelease (n j : Nat) (why : SyncEnd) (s : State) : State := if mustRelease s n j why then releaseSync n j s else s

/-- Meaning of SYNC_RELEASE. -/
def execSyncRelease (n : Berth) (j : Nat) (why : SyncEnd) (s : State) : Host.Outcome State Fault Refusal :=
  act (doSyncRelease n.val j why) s

/-- R110: the sustain check fails. -/
def doSustainFail (n j : Nat) (s : State) : State :=
  match (getDemod s n j).st with
  | .sync => releaseSync n j s
  | .phr | .payload => setDemod n j .search (abortRecord n j .sustain s)
  | .off | .search | .blanked => s

/-- Meaning of SUSTAIN_FAIL. -/
def execSustainFail (n : Berth) (j : Nat) (s : State) : Host.Outcome State Fault Refusal := act (doSustainFail n.val j) s

/-- R105: a PHR is valid for the frame of a record. -/
def phrOk (s : State) (r : RxRec) (p : Phr) : Bool :=
  let least := if r.mode = 4 then 5 else if p.fcs4 then 6 else 4
  p.valid && !(r.mode ≠ 4 && p.modeSwitch) && least ≤ p.len && airFits (tsMaxTx s) r.mode r.coded p.len

/-- R105, R107: the PHR of demodulator `j`'s frame is decoded. (DEDUCED, log 19) -/
def doPhrDecoded (n j : Nat) (p : Phr) (s : State) : State :=
  let d := getDemod s n j
  match d.st, d.record with
  | .phr, some r =>
    let r1 := { r with
      psduLen := p.len
      fcs4 := p.fcs4 && r.mode ≠ 4
      whitened := p.whitened && r.mode ≠ 4
      endAt := r.sfdTime + nsStep (bodyNs r.mode r.coded p.len) }
    let s1 := modDemod n j (fun x => { x with record := some r1 }) s
    if phrOk s r p then setDemod n j .payload s1
    else
      let s2 := setDemod n j .search (abortRecord n j .phrInvalid s1)
      if p.modeSwitch && r.mode ≠ 4 then bump (berthBase n) Ct.BERTH_RX_MODE_SWITCH s2 else s2
  | _, _ => s

/-- Meaning of PHR_DECODED. -/
def execPhrDecoded (n : Berth) (j : Nat) (p : Phr) (s : State) : Host.Outcome State Fault Refusal := act (doPhrDecoded n.val j p) s

/-- The level that a newcomer must exceed by CAPTURE_DB (R111), at the ball. (DEDUCED, log 19) -/
def captureRef (s : State) (n j : Nat) : Int :=
  let d := getDemod s n j
  match d.record with
  | some r => r.rssi + rssiOfs s n
  | none => d.lp

/-- R111: the watch correlator detects another preamble; it captures where the margin holds. (DEDUCED, log 74) -/
def doRecaptured (n j : Nat) (lp : Int) (s : State) : State :=
  match (getDemod s n j).st with
  | .sync | .phr | .payload =>
    if captureRef s n j + 4 * (fget s (berthBase n) Fl.BERTH_RX_DET_CAPTURE_DB : Int) ≤ lp && detects s n lp (getDemod s n j).floor then
      modDemod n j (fun d => { d with st := .sync, lp := lp, recapture := true })
        (bump (berthBase n) Ct.BERTH_RX_RECAPTURE (abortRecord n j .recaptured s))
    else s
  | .off | .search | .blanked => s

/-- Meaning of RECAPTURED. -/
def execRecaptured (n : Berth) (j : Nat) (lp : Int) (s : State) : Host.Outcome State Fault Refusal := act (doRecaptured n.val j lp) s

/-- R26: the berth's quay buffer is full, and the frame of demodulator `j` is abandoned. -/
def doQuayOverflow (n j : Nat) (s : State) : State :=
  match (getDemod s n j).st with
  | .phr | .payload => raise 182 0 (bump 0 Ct.FABRIC_QUAY_DROP (setDemod n j .search (abortRecord n j .quayFull s)))
  | .off | .search | .sync | .blanked => s

/-- Meaning of QUAY_OVERFLOW. -/
def execQuayOverflow (n : Berth) (j : Nat) (s : State) : Host.Outcome State Fault Refusal := act (doQuayOverflow n.val j) s

/-- The TX synthesiser starts a retune to a frequency, where it differs (R123). -/
def retune (n khz : Nat) (s : State) : State :=
  modBerth n (fun b => if b.synKhz = khz then b else { b with synKhz := khz, txLock := false }) s

/-- T_go of the Enh-ACK of a record's frame (R121, R163). -/
def ackGo (s : State) (r : RxRec) : Instant :=
  r.endAt + nsStep (1000 * bitsOf 16 0 (rd s Reg.MAC_TS_TX_ACK_DELAY)) - BitVec.ofInt 48 (pathTx s r.berth) -
    nsStep (1000 * rampUs s r.berth + 150000)

/-- R123: the synthesiser turns to the channel of a possible Enh-ACK, and away from it 50 µs before T_go where none is requested. -/
def ackRetune (n : Nat) (r : RxRec) (s : State) : State :=
  modBerth n (fun b => { b with retuneDue := some (ackGo s r - nsStep 50000, true) }) (retune n (txKhz s n r.mode r.channel) s)

/-- A record closes with what its PSDU spells (R107, R113, R115). -/
def closeBody (r : RxRec) (body : RxBody) (s : State) : State :=
  if body.poisoned then closeRecord { r with abort := some .poisoned, fcsOk := false } s
  else closeRecord { r with fcsOk := body.fcsOk, frame := body.frame } s

/-- R107, R113, R123: the last symbol of demodulator `j`'s frame. -/
def doLastSymbolReceived (n j : Nat) (body : RxBody) (s : State) : State :=
  let d := getDemod s n j
  match d.st, d.record with
  | .payload, some r =>
    let s1 := elapseToNs (r.endAt + rxDelay s n r.mode) s
    let s2 := modDemod n j (fun x => { x with st := .search, record := none }) s1
    let due := (getBerth s n).ackMask.contains j
    let s3 := if due ∧ (getBerth s n).onAir.isNone then ackRetune n r s2 else s2
    if r.coded then { s3 with dec := { s3.dec with queue := s3.dec.queue ++ [⟨r, due⟩] } } else closeBody r body s3
  | _, _ => s

/-- Meaning of LAST_SYMBOL_RECEIVED. -/
def execLastSymbolReceived (n : Berth) (j : Nat) (body : RxBody) (s : State) : Host.Outcome State Fault Refusal :=
  act (doLastSymbolReceived n.val j body) s

/-! ### The decoder pool -/

/-- Frame `a` comes before frame `b` (R114): the earlier end, then the lower berth, then the lower entry. -/
def codedBefore (a b : Coded) : Bool :=
  let d := instantDiff a.record.endAt b.record.endAt
  0 < d || (d = 0 && (a.record.berth < b.record.berth || (a.record.berth = b.record.berth && a.record.entry < b.record.entry)))

/-- The first frame of a class in the queue (R114). -/
def firstCoded (due : Bool) (q : List Coded) : Option Coded :=
  (q.filter fun c => c.ackDue = due).foldl (fun acc c => match acc with
    | none => some c
    | some x => if codedBefore c x then some c else some x) none

/-- R114: a free engine takes the oldest ACK_DUE frame, else the oldest OTHER frame. -/
def doDecoderEngineFree (e : Nat) (s : State) : State :=
  if (s.dec.engines.getD e none).isSome || unitOut s (20 + e) then s
  else
    match (firstCoded true s.dec.queue).orElse fun _ => firstCoded false s.dec.queue with
    | some c => { s with dec := ⟨s.dec.queue.erase c, s.dec.engines.set e (some c)⟩ }
    | none => s

/-- Meaning of DECODER_ENGINE_FREE. -/
def execDecoderEngineFree (e : Fin 8) (s : State) : Host.Outcome State Fault Refusal := engine (doDecoderEngineFree e.val) s

/-- R113, R114: an engine finishes its frame. -/
def doDecodeDone (e : Nat) (body : RxBody) (s : State) : State :=
  match s.dec.engines.getD e none with
  | none => s
  | some c =>
    let s1 := { s with dec := { s.dec with engines := s.dec.engines.set e none } }
    let late := c.ackDue && 600000 < instantDiff c.record.endAt (nowNs s)
    let s2 := if late then bump (berthBase c.record.berth) Ct.BERTH_RX_DEC_LATE s1 else s1
    closeBody { c.record with decoder := some e, ackLate := late } body s2

/-- Meaning of DECODE_DONE. -/
def execDecodeDone (e : Fin 8) (body : RxBody) (s : State) : Host.Outcome State Fault Refusal := engine (doDecodeDone e.val body) s

/-- R28, R115: the frame that a decoder holds goes back to the pool with its original end instant. (DEDUCED, log 20) -/
def requeueDecoder (e : Nat) (s : State) : State :=
  match s.dec.engines.getD e none with
  | some c => { s with dec := ⟨c :: s.dec.queue, s.dec.engines.set e none⟩ }
  | none => s

/-! ### The RX LO, clips and calibration -/

/-- R95: the RX LO locks, and the demodulators search again. -/
def doRxLoLocked (n : Nat) (s : State) : State :=
  if berthPresent s n then
    restAll n (modBerth n (fun b => { b with loLock := true }) s)
  else s

/-- Meaning of RX_LO_LOCKED. -/
def execRxLoLocked (n : Berth) (s : State) : Host.Outcome State Fault Refusal := act (doRxLoLocked n.val) s

/-- R95: the RX LO loses lock. -/
def doRxLoUnlock (n : Nat) (s : State) : State :=
  if (getBerth s n).loLock then
    let s1 := modBerth n (fun b => { b with loLock := false }) (demodsOff n s)
    if rxOn s n then raise (8 * n + 2) 0 (bump (berthBase n) Ct.BERTH_RX_CONFIG_ABORT s1) else s1
  else s

/-- Meaning of RX_LO_UNLOCK. -/
def execRxLoUnlock (n : Berth) (s : State) : Host.Outcome State Fault Refusal := act (doRxLoUnlock n.val) s

/-- The slot in AUX of the state's present slot (R120, R148, R185). -/
def auxNow (s : State) : Nat := auxSlot s.time.name

/-- R102: an ADC clip, with the peak of that instant in dB below full scale. The AGC ignores a blanked interval (R103), in which no
record is open. -/
def doRxClip (n peak : Nat) (s : State) : State :=
  if rxOn s n && (getBerth s n).blankEnd.isNone then
    let first := !(getBerth s n).clipNow
    let s1 := modBerth n (fun b => { b with
      clipNow := true
      peakNow := some (min peak (b.peakNow.getD peak))
      demods := b.demods.map fun d => { d with record := d.record.map fun r => { r with clip := true } } }) s
    if first then raiseAux (8 * n) (getBerth s n).gain (auxNow s) (bump (berthBase n) Ct.BERTH_RX_CLIP s1) else s1
  else s

/-- Meaning of RX_CLIP. -/
def execRxClip (n : Berth) (peak : Nat) (s : State) : Host.Outcome State Fault Refusal := act (doRxClip n.val peak) s

/-- R98, R99, R124: the tables of a full calibration are in force, with at least 35 dB of image rejection; TRACK_LIMIT clears and the
refresh measures start anew. (DEDUCED, log 19) (DESIGN CHOICE, log 73) -/
def calInstalled (n dcRes imageRej : Nat) (s : State) : State :=
  modBerth n (fun b => { b with
    calValid := true
    trackLimit := false
    trackLatched := false
    dcRes := dcRes
    imageRej := max 35 imageRej
    refreshDue := none
    refreshOverdue := false
    refreshMono := monoNs s
    refreshTemp := b.temp }) s

/-- R99: a calibration ends. -/
def doRxCalDone (n dcRes imageRej : Nat) (ok : Bool) (s : State) : State :=
  if (getBerth s n).calBusy then
    let s1 := modBerth n (fun b => { b with calBusy := false }) s
    let s2 := if ok then calInstalled n dcRes imageRej s1 else fset (berthBase n) Fl.BERTH_STATUS_CAL_FAIL 1 s1
    raise (8 * n + 1) (if ok then 0 else 1) (restAll n s2)
  else s

/-- Meaning of RX_CAL_DONE. -/
def execRxCalDone (n : Berth) (dcRes imageRej : Nat) (ok : Bool) (s : State) : Host.Outcome State Fault Refusal :=
  act (doRxCalDone n.val dcRes imageRej ok) s

end Sys2Proof.Machine
end

