-- ==== Sys2Proof/Machine/MacTx.lean ====
section
/-!
DEFINITION. The MAC engine's transmissions: the plan of a slot (R175, R178, R181, R182, R327), block-ack frames (R168 to R172),
the start of a frame by the crypto pool (R79, R322, R323), and what an outcome does to its frame (R164, R169, R175, R183).
-/

namespace Sys2Proof.Machine

/-! ### What a frame's end means -/

/-- A queued frame changed. -/
def modQueued (id : Nat) (g : TxFrame → TxFrame) (s : State) : State :=
  modMac (fun m => { m with queue := m.queue.map fun q => if q.id = id then g q else q }) s

/-- The queued frame of an id. -/
def findQueued (s : State) (id : Nat) : Option TxFrame := s.mac.queue.find? fun q => q.id = id

/-- The node of a frame's destination (R148, R185). -/
def TxDest.node : TxDest → Handle
  | .unicast h _ => h
  | .broadcast _ | .band _ => noNode

/-- R183: a frame exhausted its attempts or deferrals. (DEDUCED, log 27) -/
def linkFailed (q : TxFrame) (o : TxOutcome) (s : State) : State :=
  let s1 := raiseFull 74 0 q.dst.node (auxNow s) (bump 0 Ct.MAC_LINK_FAIL s)
  let up (x : Nat) : Nat := min 65535 (x + 1)
  let s2 := match q.dst with
    | .unicast h e =>
      let t := dirMod h (fun d => { d with txFail := up d.txFail }) s1
      match homeOf t e with
      | some p => nbrMod p.1 (fun x => { x with txFail := up x.txFail }) t
      | none => t
    | .broadcast _ | .band _ => s1
  frameEnded q o (0 < q.attempts) .linkFail s2

/-- R183: an attempt of a frame failed. -/
def attemptFailed (q : TxFrame) (o : TxOutcome) (s : State) : State :=
  let q1 := { q with attempts := q.attempts + 1 }
  let s1 := modQueued q.id (fun _ => q1) s
  if fget s 0 Fl.MAC_TX_CFG_MAX_RETRIES < q1.attempts then linkFailed q1 o s1 else s1

/-- R183: a frame did not start, or was not prepared for want of a key (R323). -/
def deferred (q : TxFrame) (o : TxOutcome) (s : State) : State :=
  let q1 := { q with deferrals := q.deferrals + 1 }
  let s1 := modQueued q.id (fun _ => q1) s
  if fget s 0 Fl.MAC_TX_CFG_DEFER_MAX ≤ q1.deferrals then linkFailed q1 o s1 else s1

/-- R323: a frame has no usable key. -/
def keyGone (q : TxFrame) (o : TxOutcome) (s : State) : State := frameEnded q o (0 < q.attempts) .stale (keyStale q.dst.node s)

/-- R169: a block-ack frame did not start. -/
def baSuppressed (code : Nat) (n : SlotName) (s : State) : State :=
  raiseAux 67 code (auxSlot n) (bump 0 Ct.MAC_BA_SUPPRESS s)

/-- R175: an EB of a berth was sent. -/
def ebSent (b : Nat) (s : State) : State :=
  let s1 := modMac (fun m => { m with ebs := m.ebs.set b ⟨false, 0, false⟩ }) (bump 0 Ct.MAC_EB_TX s)
  wr Reg.MAC_STATUS (setBitAt (8 + b) (rd s1 Reg.MAC_STATUS) false) s1

/-! ### Block acknowledgement -/

/-- Block acknowledgement of a band. -/
def getBa (s : State) (q : Nat) : BaS := s.mac.ba.getD q ⟨[], []⟩

/-- Block acknowledgement of a band changed. -/
def modBa (q : Nat) (g : BaS → BaS) (s : State) : State := modMac (fun m => { m with ba := m.ba.modify q g }) s

/-- The channel offsets of a slot that one of these IEs covers: base and count (R170). -/
def baCovers (ies : List Ie) (count : Nat) : Option (Nat × Nat) :=
  ies.findSome? fun i => match i with
    | .blockAck asn16 slots base n _ _ => if (count + 65536 - asn16) % 65536 < slots then some (base, n) else none
    | _ => none

/-- What is left of a slot's coverage after a frame with these IEs was sent (R172). -/
def baLeft (n : Nat) (ies : List Ie) (x : BaSlot) : Option BaSlot :=
  match baCovers ies x.count with
  | none => some x
  | some (b, c) => if n ≤ b + c then none else some { x with base := b + c }

/-- R172: a block-ack frame of a band was sent; what it covered is done. -/
def baSent (q : Nat) (ies : List Ie) (s : State) : State :=
  modBa q (fun a =>
    ⟨a.slots.filterMap (baLeft (hopLen s q) ies), a.bits.filter fun x => match baCovers ies x.count with
      | some (b, c) => !(b ≤ x.offset && x.offset < b + c)
      | none => true⟩) (bump 0 Ct.MAC_BA_TX s)

/-- The slots that the block-ack frame of slot `a` covers, oldest first (R168). -/
def baDue (s : State) (q a : Nat) : List BaSlot := (getBa s q).slots.filter fun x => x.count + 2 ≤ a

/-- R168: slots beyond 255 are dropped from coverage. -/
def baTrim (q a : Nat) (s : State) : State :=
  let n := (baDue s q a).length
  if n ≤ 255 then s
  else raiseAux 69 (n - 255) (auxNow s) (modBa q (fun x => { x with slots := x.slots.drop (n - 255) }) s)

/-- R168: the coverage of slot `a` holds no wide slot, and all of it is taken as covered. (DEDUCED, log 29) -/
def baClear (q a : Nat) (s : State) : State :=
  modBa q (fun x =>
    ⟨x.slots.filter fun y => !(y.count + 2 ≤ a), x.bits.filter fun y => !(y.count + 2 ≤ a)⟩) s

/-- Consecutive slots with one base: first slot, number and base. -/
def baRuns : List BaSlot → List (Nat × Nat × Nat)
  | [] => []
  | x :: rest =>
    match baRuns rest with
    | [] => [(x.count, 1, x.base)]
    | (c, k, b) :: rs => if c = x.count + 1 ∧ b = x.base then (x.count, k + 1, b) :: rs else (x.count, 1, x.base) :: (c, k, b) :: rs

/-- The IE of a run that covers `width` offsets from `base` (R170, R171). -/
def baIe (bits : List BaBit) (first k base width : Nat) : Ie :=
  let l := (List.range (k * width)).filterMap fun i =>
    (bits.find? fun x => x.count = first + i / width ∧ x.offset = base + i % width).map fun x => (i, x.hash)
  .blockAck (first % 65536) k base width (l.map Prod.fst) (l.map Prod.snd)

/-- The IEs that cover these slots whole (R170). -/
def baIes (s : State) (q : Nat) (l : List BaSlot) : List Ie :=
  (baRuns l).map fun r => baIe (getBa s q).bits r.1 r.2.1 r.2.2 (hopLen s q - r.2.2)

/-- The block-ack frame of a band with these IEs (R169). -/
def baFrame (s : State) (refAt : Instant) (ies : List Ie) : Frame :=
  { dataFrame s Addr.broadcast none false .none with
    ies := (if fbit s 0 Fl.MAC_CTRL_QT_BA then [Ie.quayTime (quayFlags s) refAt] else []) ++ ies }

/-- A block-ack frame with these IEs fits its mode (R172). -/
def baFits (s : State) (b m : Nat) (ies : List Ie) : Bool :=
  airFits (tsMaxTx s) m (txCoded s b m) (macLen (baFrame s 0 ies) (fget s 0 Fl.MAC_CTRL_BA_SEC) (fcsLen s b m))

/-- R172: the IEs of the block-ack frame of slot `a`: the longest run of the oldest slots that fits, else the lowest offsets of
the oldest slot; none where not one offset fits. -/
def composeBa (s : State) (q b m a : Nat) : Option (List Ie) :=
  let due := baDue s q a
  let whole := (List.range due.length).reverse.findSome? fun k =>
    let ies := baIes s q (due.take (k + 1))
    if baFits s b m ies then some ies else none
  match whole, due with
  | some ies, _ => some ies
  | none, x :: _ =>
    (List.range (hopLen s q - x.base)).reverse.findSome? fun w =>
      let ies := [baIe (getBa s q).bits x.count 1 x.base (w + 1)]
      if baFits s b m ies then some ies else none
  | none, [] => none

/-! ### Planning -/

/-- The predicted offset of a neighbour at an instant, ns (R177). (DEDUCED, log 27) -/
def oPred (x : Nbr) (t : Instant) : Int :=
  x.oLast + Int.tdiv ((if x.hasDrift then x.d else 0) * instantDiff x.tLast t) 16000000

/-- The name of the slot that PLAN_SLOT plans: the next slot, or the one that a pending load will name (R68, R182). -/
def plannedName (s : State) : SlotName :=
  let next := (advanceSlot s).time.name
  if loadPending s then
    match Rsn.ofWord (nextVal s Reg.TIME_RSN_LOAD) with
    | some r => ⟨BitVec.ofNat 16 (nextVal s Reg.TIME_EPOCH_LOAD).toNat, r⟩
    | none => next
  else next

/-- A frame offered to a slot's plan: how it would be sent, and the destination that only one frame of the plan may have. -/
structure Pick where
  spec : TxSpec
  dest : Option TxDest
  deriving DecidableEq, Repr

/-- The slot being planned: its name, its start, and the reference instant of its cells (R121). -/
structure PlanSlot where
  name : SlotName
  start : Instant
  refAt : Instant
  deriving DecidableEq, Repr

/-- A frame is on its way: planned, on air or waiting for its Enh-ACK. -/
def inFlight (s : State) (id : Nat) : Bool :=
  (s.mac.awaiting.any fun a => a.queued.id = id) ||
    s.berths.any fun b => (b.requests ++ b.onAir.toList).any fun t => (t.queued.any fun q => q.id = id) && !t.done

/-- How a frame goes from berth `b` in a slot. -/
def specFor (s : State) (b : Nat) (p : PlanSlot) (cls : TxClass) (f : Frame) (q : Option TxFrame) (len chan mode : Nat) : TxSpec where
  berth := b
  cls := cls
  frame := f
  queued := q
  len := len
  chan := chan
  mode := mode
  coded := txCoded s b mode
  fcs4 := txFcs4 s b mode
  whitened := txWhitened s b mode
  power := q.bind TxFrame.power
  refAt := p.refAt
  slotStart := p.start
  name := p.name
  node := (q.map fun x => x.dst.node).getD noNode
  shared := false

/-- The channel of the cell in which berth `b` may send to a neighbour, and whether the cell is shared (R181). -/
def unicastCell (s : State) (b : Nat) (n : SlotName) (h : Nat) (x : Nbr) : Option (Nat × Bool) :=
  let q := bandOfBerth b
  let cells := txCellsAt s b n
  let sf := fget s 0 Fl.MAC_AUTO_CFG_SF
  match cells.find? fun c => c.dedicated && c.nbr = h with
  | some c => some (hopChan s q n c.chOfs, false)
  | none =>
    match if sfHas s sf b && sfSeq s sf = q then autoAt s x.eui n else none with
    | some o => some (hopChan s q n o, false)
    | none => if x.backoff = 0 then (cells.find? Cell.sharedTx).map fun c => (hopChan s q n c.chOfs, true) else none

/-- The packet is flooded: a broadcast of what is addressed to one node (R208). -/
def Upper.flooded : Upper → Bool
  | .packet p | .fragment _ _ _ _ _ p => !p.dst.isMulticast
  | .none | .octets _ => false

/-- A broadcast cell of berth `b` in a slot, or for a flooded frame a shared one (R181, R208). -/
def bcastCell (s : State) (b : Nat) (n : SlotName) (flooded : Bool) : Option Cell :=
  let cells := txCellsAt s b n
  (cells.find? Cell.bcast).orElse fun _ => if flooded then cells.find? Cell.sharedTx else none

/-- A queued frame as berth `b` could send it in a slot, where it is eligible (R181, R243, R257, R305): not before the earlier frames
of its message (R226). -/
def pickQueued (s : State) (b : Nat) (p : PlanSlot) (q : TxFrame) : Option Pick :=
  let guarded := q.guardSlot.any fun g => 0 ≤ slotDist g p.name
  let broad (on : Bool) : Option Pick :=
    if !on then none
    else
      (bcastCell s b p.name q.frame.upper.flooded).map fun c =>
        ⟨specFor s b p q.cls q.frame (some q) q.len (hopChan s (bandOfBerth b) p.name c.chOfs) (q.mode.getD (sfMode s c.sf)), some q.dst⟩
  let after := (s.mac.queue.takeWhile fun x => x.id ≠ q.id).any fun x => x.sameMessage q
  if guarded || after || inFlight s q.id then none
  else
    match q.rawAt with
    | some (n, ch) =>
      if n = p.name ∧ q.dst = .broadcast b then
        some ⟨specFor s b p q.cls q.frame (some q) q.len ch (q.mode.getD (berthMode s b)), some q.dst⟩
      else none
    | none =>
      match q.dst with
      | .broadcast x => broad (x = b)
      | .band g => broad (bandOfBerth b = g && (fget s 0 Fl.CAMP_CFG_BERTHS).testBit b)
      | .unicast _ e =>
        match homeOf s e with
        | none => none
        | some (h, x) =>
          if h / 2048 ≠ b ∨ x.held then none
          else
            (unicastCell s b p.name h x).map fun c =>
              let t := specFor s b p q.cls q.frame (some q) q.len c.1 (q.mode.getD (berthMode s b))
              ⟨{ t with refAt := p.refAt + BitVec.ofInt 48 (oPred x p.start), shared := c.2 }, some q.dst⟩

/-- The EB of berth `b`, where one is due, in the slot at the latest, and the slot holds an advertising cell (R174). -/
def pickEb (s : State) (b : Nat) (p : PlanSlot) : List Pick :=
  if !(s.mac.ebs.getD b ⟨false, 0, false⟩).due && !(ebDueIn s p.name && (ebBerths s).contains b) then []
  else
    match (txCellsAt s b p.name).find? Cell.adv with
    | none => []
    | some c =>
      let m := sfMode s c.sf
      let q := bandOfBerth b
      [⟨specFor s b p .eb (ebFrame s q p.name p.refAt) none (ebLen s b m p.name) (hopChan s q p.name c.chOfs) m, none⟩]

/-- The berth that sends a band's block-ack frames, and their mode (R169). -/
def baBerth (s : State) (q : Nat) : Nat × Nat :=
  if q = 0 then (fget s 0 Fl.MAC_BA_CFG_BERTH_SUB, fget s 0 Fl.MAC_BA_CFG_MODE) else (fget s 0 Fl.MAC_BA_CFG_BERTH_24, 4)

/-- The block-ack frame that berth `b` has to send in a slot (R168, R169). -/
def pickBa (s : State) (b : Nat) (p : PlanSlot) : List Pick :=
  let q := bandOfBerth b
  let m := (baBerth s q).2
  if isBaSlot s p.name && (baBerth s q).1 = b && (baDue s q p.name.count).any BaSlot.wide then
    match composeBa s q b m p.name.count with
    | none => []
    | some ies =>
      let f := baFrame s p.refAt ies
      let len := macLen f (fget s 0 Fl.MAC_CTRL_BA_SEC) (fcsLen s b m)
      [⟨specFor s b p .ba f none len (hopChan s q p.name (fget s 0 Fl.MAC_BA_CFG_CHOFS)) m, none⟩]
  else []

/-- The frames eligible on berth `b` in a slot up to its class limit, in the order of R181 and R182. -/
def eligible (s : State) (b : Nat) (p : PlanSlot) : List Pick :=
  let lim := classLimit s b p.name
  let of (c : TxClass) : List Pick := if c.code ≤ lim then (s.mac.queue.filter fun q => q.cls = c).filterMap (pickQueued s b p) else []
  pickEb s b p ++ (if 1 ≤ lim then pickBa s b p else []) ++ of .urgent ++ of .bulk ++ of .campaign

/-- The security level of a frame (R322). -/
def secLevel (s : State) (cls : TxClass) (q : Option TxFrame) : Nat :=
  match q with
  | none => match cls with
    | .eb => fget s 0 Fl.MAC_CTRL_EB_SEC
    | .ba => fget s 0 Fl.MAC_CTRL_BA_SEC
    | .urgent | .bulk | .campaign | .ack => 0
  | some x =>
    if x.rawAt.isSome then 0
    else
      match x.dst with
      | .unicast _ _ => fget s 0 Fl.KEY_LINK_CFG_LEVEL
      | .broadcast _ | .band _ =>
        if x.cls = .campaign then fget s 0 Fl.CAMP_CFG_SEC else fget s 0 Fl.KEY_LINK_CFG_BCAST_LEVEL

/-- The key of a frame of berth `b` and its key index (R319, R322). -/
def secKey (s : State) (b : Nat) (q : Option TxFrame) : Option (CastKey × Nat) :=
  match q.map TxFrame.dst with
  | some (.unicast _ e) => (linkKey s e).map fun k => (k, fget s 0 Fl.KEY_LINK_CFG_SLOT + 1)
  | _ => (bcastKey s b).map fun k => (k, bcastSlot s b + 1)

/-- The frame is a broadcast (R322). -/
def TxSpec.isBroadcast (x : TxSpec) : Bool := (x.queued.map fun q => q.dst.isBroadcast).getD true

/-- R182 coupling_preview: a DEFER pair with a berth that is not in the plan and has a receive cell in the slot would fail. -/
def couplingPreview (s : State) (b : Nat) (n : SlotName) (planned : List Nat) (power : Int) : Bool :=
  !(List.range 6).any fun j =>
    j ≠ b && !planned.contains j && (wideHere s j n || classicHere s j n) && (coupleOf s b j).2 = 2 && (coupleExcess s b j power).isSome

/-- What planning has settled so far: the transmissions by berth, and the destinations taken. -/
structure Plan where
  txs : List (Nat × Tx)
  dests : List TxDest
  /-- Berths whose forced EB is planned (R175). -/
  forced : List Nat
  /-- Bands whose block-ack frame was refused, and counted, in this slot (R169). -/
  refusedBa : List Nat
  deriving DecidableEq, Repr

/-- A frame that fails its preparation (R133, R169, R175). -/
def prepFailed (x : Pick) (o : TxOutcome) (s : State) : State :=
  match x.spec.queued with
  | some q => frameEnded q o (0 < q.attempts) .refused s
  | none => if x.spec.cls = .ba then baSuppressed o.code x.spec.name s else s

/-- R323: a frame without its key is not planned. -/
def planKeyless (x : Pick) (s : State) : State :=
  match x.spec.queued with
  | some q => if x.spec.isBroadcast then deferred q .underrun s else keyGone q .underrun s
  | none => if x.spec.cls = .ba then baSuppressed TxOutcome.underrun.code x.spec.name s else s

/-- A frame may still be planned: its destination is free, and it is still queued. -/
def stillOpen (s : State) (pl : Plan) (x : Pick) : Bool :=
  !(x.dest.any fun d => pl.dests.contains d) && (x.spec.queued.all fun q => (findQueued s q.id).isSome)

/-- A frame is refused: a block-ack frame is so once in a slot (R169). -/
def Plan.refuse (pl : Plan) (x : Pick) : Plan :=
  if x.spec.cls = .ba then { pl with refusedBa := bandOfBerth x.spec.berth :: pl.refusedBa } else pl

/-- R182 for one frame on berth `b`: it is prepared, previewed and planned, or not; `ahead` is a forced EB, which is planned without
the previews (R175). -/
def planOne (ahead : Bool) (b : Nat) (x : Pick) (pl : Plan) (s : State) : Bool × Plan × State :=
  if !stillOpen s pl x then (false, pl, s)
  else
    let level := secLevel s x.spec.cls x.spec.queued
    let key := secKey s b x.spec.queued
    if level ≠ 0 ∧ key.isNone then (false, pl.refuse x, planKeyless x s)
    else if level ≠ 0 ∧ x.spec.isBroadcast ∧ (key.any fun k => nonceUsed s k.1 x.spec.name) then (false, pl, s)
    else
      match prepareTx x.spec s with
      | (.inl o, s1) => (false, pl.refuse x, prepFailed x o s1)
      | (.inr t, s1) =>
        let clash := pl.forced.any fun j => (couplePair s1 b j t.power).isNone
        let fits := dutyFits s1 t.band t.airtimeUs t.cls && couplingPreview s1 b x.spec.name (pl.txs.map Prod.fst) t.power && !clash
        if ahead || fits then
          let s2 := if level = 0 then s1 else match key with
            | some k => noteNonce k.1 x.spec.name s1
            | none => s1
          (true, { pl with txs := pl.txs ++ [(b, t)], dests := x.dest.toList ++ pl.dests }, s2)
        else (false, pl, s1)

/-- The first frame of a list that can be planned for berth `b`. -/
def planFirst (ahead : Bool) (b : Nat) : List Pick → Plan → State → Plan × State
  | [], pl, s => (pl, s)
  | x :: rest, pl, s =>
    match planOne ahead b x pl s with
    | (true, pl1, s1) => (pl1, s1)
    | (false, pl1, s1) => planFirst ahead b rest pl1 s1

/-- R175, R182: the forced EB of berth `b` is planned ahead of everything else. -/
def planForced (p : PlanSlot) (b : Nat) (a : Plan × State) : Plan × State :=
  if (a.2.mac.ebs.getD b ⟨false, 0, false⟩).forced then
    let r := planFirst true b (pickEb a.2 b p) a.1 a.2
    if r.1.txs.length = a.1.txs.length then r else ({ r.1 with forced := b :: r.1.forced }, r.2)
  else a

/-- R182: berth `b` gets at most one frame, while BCOM_TX_MAXCONC allows one more. -/
def planBerth (p : PlanSlot) (b : Nat) (a : Plan × State) : Plan × State :=
  if (a.1.txs.any fun x => x.1 = b) || fget a.2 0 Fl.BCOM_TX_MAXCONC_MAX ≤ a.1.txs.length then a
  else planFirst false b (eligible a.2 b p) a.1 a.2

/-- R178: a neighbour whose predicted offset exceeds GUARD_US at the start of the planned slot is held. -/
def holdOne (p : PlanSlot) (h : Nat) (s : State) : State :=
  match nbrGet s h with
  | none => s
  | some x =>
    let o := oPred x p.start
    if x.home ∧ !x.held ∧ 1000 * fget s 0 Fl.MAC_DRIFT_CFG_GUARD_US < o.natAbs then
      raiseFull 70 0 x.node (auxOf o + p.name.epoch.toNat * 2 ^ 32) (bump 0 Ct.MAC_HOLD (nbrPut h { x with held := true } s))
    else s

/-- R178: every home entry is looked at. (DEDUCED, log 27) -/
def holdAll (p : PlanSlot) (s : State) : State := s.tables.nbrs.keys.foldl (fun t h => holdOne p h t) s

/-- The block-ack duties of the planned slot that no frame meets: coverage beyond 255 slots, coverage without a wide slot
(R168), and coverage of which not one offset fits (R172). (DEDUCED, log 29) -/
def planBa (p : PlanSlot) (q : Nat) (s : State) : State :=
  let a := p.name.count
  if !isBaSlot s p.name || !berthPresent s (baBerth s q).1 then s
  else
    let s1 := baTrim q a s
    if !(baDue s1 q a).any BaSlot.wide then baClear q a s1
    else if (composeBa s1 q (baBerth s1 q).1 (baBerth s1 q).2 a).isNone then baSuppressed TxOutcome.tooLong.code p.name s1
    else s1

/-- A wide coverage whose frame was not planned counts as a frame not started (R169). (DEDUCED, log 29) -/
def baUnplanned (p : PlanSlot) (pl : Plan) (q : Nat) (s : State) : State :=
  let b := (baBerth s q).1
  if isBaSlot s p.name && berthPresent s b && (composeBa s q b (baBerth s q).2 p.name.count).isSome &&
      (baDue s q p.name.count).any BaSlot.wide && !(pl.txs.any fun x => x.2.cls = .ba ∧ bandOfBerth x.1 = q) && !pl.refusedBa.contains q then
    baSuppressed TxOutcome.berthUnavailable.code p.name s
  else s

/-- The backoff of a neighbour passes one shared cell of its home berth (R181, IEEE 802.15.4-2020). (PRESUMED, log 26) -/
def backoffStep (n : SlotName) (s : State) : State :=
  let live := (List.range 6).filter fun b => (txCellsAt s b n).any Cell.sharedTx
  s.tables.nbrs.foldl (fun t p =>
    if p.2.home ∧ 0 < p.2.backoff ∧ live.contains (p.1 / 2048) then nbrMod p.1 (fun x => { x with backoff := x.backoff - 1 }) t
    else t) s

/-- EN of a berth's coexistence group (R138). -/
def coexOn (s : State) (n : Nat) : Bool := fbit s (4 * coexGroup n) Fl.BCOM_COEX_CFG_EN

/-- The instant at which a transmission asserts its group's request (R138). -/
def coexLead (s : State) (n : Nat) (t : Tx) : Instant :=
  t.goAt - nsStep (1000 * fget s (4 * coexGroup n) Fl.BCOM_COEX_CFG_REQ_LEAD_US)

/-- A transmission joins its berth's requests, earliest go instant first; it holds the coexistence request at once where its go
instant is fixed less than REQ_LEAD_US ahead (R138). (DEDUCED, log 21) -/
def addRequest (b : Nat) (t : Tx) (s : State) : State :=
  let t1 := if coexOn s b && !instantLater (nowNs s) (coexLead s b t) then { t with coexHeld := true } else t
  modBerth b (fun x =>
    let before := x.requests.takeWhile fun r => !instantLater t.goAt r.goAt
    { x with requests := before ++ [t1] ++ x.requests.drop before.length }) s

/-- R25: a command that crosses after the slot's start is not used; its frame stays queued. -/
def commandLate (s : State) : State := raise 183 0 (bump 0 Ct.FABRIC_QUAY_LATE s)

/-- A request whose command crossed too late, or whose go instant passed, is not evaluated (R25, R126): an Enh-ACK is not sent (R163), a
block-ack frame did not start (R169), another frame stays queued. (DEDUCED, log 28) -/
def lateReq (t : Tx) (s : State) : State :=
  match t.cls with
  | .ack => raiseFull 75 0 t.node (auxSlot t.name) (bump 0 Ct.MAC_ACK_LATE s)
  | .ba => baSuppressed TxOutcome.berthUnavailable.code t.name (commandLate s)
  | .eb | .urgent | .bulk | .campaign => commandLate s

/-- R182: the plan of a slot. (DEDUCED, log 28) -/
def planSlot (p : PlanSlot) (s : State) : State :=
  let s1 := holdAll p s
  let s2 := planBa p 1 (planBa p 0 s1)
  let bs := txBerths s2
  let a1 := bs.foldl (fun a b => planForced p b a) (⟨[], [], [], []⟩, s2)
  let a2 := bs.foldl (fun a b => planBerth p b a) a1
  let s3 := baUnplanned p a2.1 1 (baUnplanned p a2.1 0 (backoffStep p.name a2.2))
  let late := !instantLater (nowNs s3) p.start
  a2.1.txs.foldl (fun t x => if late then lateReq x.2 t else addRequest x.1 x.2 t) s3

/-- PLAN_SLOT: the next slot is planned once, while slot timing runs, the mesh is enabled (R157) and the gate is open (R372). -/
def doPlanSlot (s : State) : State :=
  let n := plannedName s
  let start := nextSlotStart s
  if slotsOn s && meshOn s && gateOpen s && s.time.slots = .running && s.mac.planned ≠ some n then
    let s1 := planSlot ⟨n, start, start + nsStep (1000 * bitsOf 16 0 (rd s Reg.MAC_TS_TX_OFS))⟩ s
    modMac (fun m => { m with planned := some n }) s1
  else s

/-- Meaning of PLAN_SLOT. -/
def execPlanSlot (s : State) : Host.Outcome State Fault Refusal := engine doPlanSlot s

/-! ### The crypto pool -/

/-- The AES engines that are not fenced (R28). -/
def aesUnits (s : State) : List Nat := (List.range 8).filter fun k => !unitOut s (12 + k)

/-- A number below `n` that the spec leaves open. -/
def openBelow (s : State) (n : Nat) : Nat := (Config.freeValue s.draws).toNat % n

/-- One free value was drawn. -/
def drawFree (s : State) : State := { s with draws := s.draws + 1 }

/-- A transmission that keeps its start with a frame of a new length. -/
def Tx.resized (t : Tx) (s : State) (b : Nat) (f : Frame) (len : Nat) : Tx :=
  let ball := t.preAt + nsStep (shrNs s b t.mode)
  let last := ball + nsStep (bodyNs t.mode t.coded len)
  let ramp := 1000 * rampUs s b
  { t with
    frame := f
    len := len
    lastAt := last
    endAt := last + nsStep (ramp + 150000)
    airtimeUs := (2 * ramp + shrNs s b t.mode + bodyNs t.mode t.coded len + 999) / 1000 }

/-- The frame as the pool begins it (R79, R172, R174): EBs and block-ack frames are composed now. -/
def compose (b : Nat) (t : Tx) (s : State) : Option Tx :=
  let q := bandOfBerth b
  match t.cls with
  | .eb => let f := ebFrame s q t.name t.refAt
           some (t.resized s b f (macLen f (fget s 0 Fl.MAC_CTRL_EB_SEC) (fcsLen s b t.mode)))
  | .ba => (composeBa s q b t.mode t.name.count).map fun ies =>
      let f := baFrame s t.refAt ies
      t.resized s b f (macLen f (fget s 0 Fl.MAC_CTRL_BA_SEC) (fcsLen s b t.mode))
  | .ack =>
    some (if fbit s 0 Fl.MAC_CTRL_QT_ACK then
        { t with frame := { t.frame with ies := Ie.quayTime (quayFlags s) t.refAt :: t.frame.ies } }
      else t)
  | .urgent | .bulk | .campaign => some t

/-- R322, R323: a transmission is secured under the key of this moment; without one it stays without data. -/
def secured (s : State) (b : Nat) (t : Tx) : Tx :=
  if t.cls = .ack then { t with begun := true }
  else
    let level := secLevel s t.cls t.queued
    if level = 0 then { t with begun := true }
    else
      match secKey s b t.queued with
      | none => { t with begun := true, stale := true }
      | some (k, i) =>
        let f := t.frame
        { t with frame := { f with sec := some ⟨level, 1, i, true, true, k, t.name, true⟩ }, begun := true }

/-- R79: the pool begins the next frame of berth `b`. -/
def beginFrame (b : Nat) (s : State) : State :=
  match (getBerth s b).requests.findIdx? fun t => !t.begun with
  | none => s
  | some i =>
    match (getBerth s b).requests[i]? with
    | none => s
    | some t =>
      let l := aesUnits s
      let at0 (t1 : Tx) (u : State) : State := modBerth b (fun x => { x with requests := x.requests.set i t1 }) u
      match compose b t s with
      | none => baSuppressed TxOutcome.tooLong.code t.name (modBerth b (fun x => { x with requests := x.requests.eraseIdx i }) s)
      | some t1 =>
        let t2 := secured s b t1
        let s1 := match t2.frame.sec with
          | some c => noteNonce c.key c.slot (if t2.cls = .ack then s else useCast (c.keyIndex - 1) false c.key.eui c.key.gen s)
          | none => s
        drawFree (at0 { t2 with aes := l.getD (openBelow s l.length) 0 } s1)

/-- CRYPTO_BEGIN_FRAME, with what reading the hold met (R319, R352). -/
def doCryptoBeginFrame (b : Nat) (m : HoldRead) (what : Struct) (s : State) : State := beginFrame b (structMet m what s)

/-- Meaning of CRYPTO_BEGIN_FRAME. -/
def execCryptoBeginFrame (b : Berth) (m : HoldRead) (what : Struct) (s : State) : Host.Outcome State Fault Refusal :=
  engine (doCryptoBeginFrame b.val m what) s

/-! ### Outcomes -/

/-- An outcome that aborts on air, where the transmission had started (R133). -/
def TxOutcome.final : TxOutcome → Option FrameEnd
  | .poisoned => some .poisoned
  | .maskTrip | .regRefused | .tooLong => some .refused
  | _ => none

/-- R164: an Enh-ACK is awaited after a unicast frame with AR 1. -/
def awaitAck (t : Tx) (q : TxFrame) (e : Eui) (s : State) : State :=
  let opens := t.lastAt + nsStep (1000 * bitsOf 16 0 (rd s Reg.MAC_TS_RX_ACK_DELAY))
  let a : AwaitAck := ⟨q, t.khz, e, q.frame.dsn, t.shared, opens, opens + nsStep (1000 * bitsOf 16 0 (rd s Reg.MAC_TS_ACK_WAIT))⟩
  modMac (fun m => { m with awaiting := m.awaiting ++ [a] }) s

/-- R183: a frame of the queue was sent completely. -/
def queuedSent (t : Tx) (q : TxFrame) (s : State) : State :=
  match q.dst with
  | .unicast _ e => if q.frame.ar then awaitAck t q e s else frameEnded q .sent true .sent s
  | .broadcast _ | .band _ => frameEnded q .sent true .sent s

/-- R183, R257, R323: a frame of the queue was not sent completely; a broadcast frame fails only by deferrals. -/
def queuedFailed (t : Tx) (q : TxFrame) (o : TxOutcome) (onAir : Bool) (s : State) : State :=
  match o.final with
  | some e => frameEnded q o onAir e s
  | none =>
    if q.rawAt.isSome then frameEnded q o onAir .linkFail s
    else if t.stale ∧ o = .underrun ∧ !q.dst.isBroadcast then keyGone q o s
    else if onAir then
      if q.dst.isBroadcast then modQueued q.id (fun x => { x with attempts := x.attempts + 1 }) s else attemptFailed q o s
    else deferred q o s

/-- R176: an Enh-ACK with its Time Correction IE went to a neighbour at depth 1. -/
def ackSent (b : Nat) (t : Tx) (s : State) : State :=
  if (dirGet s t.node).any fun d => d.depth = 1 then
    match s.tables.nbrs.find? fun p => p.1 / 2048 = b && p.2.node = t.node with
    | some p => nbrMod p.1 (fun x => { x with oLast := 0 }) s
    | none => s
  else s

/-- A transmission of berth `b` has its outcome (R133, R169, R175, R183). (DEDUCED, log 27) -/
def txOutcome (b : Nat) (t : Tx) (o : TxOutcome) (onAir : Bool) (s : State) : State :=
  match t.cls with
  | .ack => if o = .sent then ackSent b t s else s
  | .eb => if o = .sent then ebSent b s else s
  | .ba => if o = .sent then baSent (bandOfBerth b) t.frame.ies s else if onAir then s else baSuppressed o.code t.name s
  | .urgent | .bulk | .campaign =>
    match t.queued.bind fun q => findQueued s q.id with
    | none => s
    | some q => if o = .sent then queuedSent t q s else queuedFailed t q o onAir s

/-- The next backoff of a neighbour: a draw below 2^BE (R183, IEEE 802.15.4-2020). (DEDUCED, log 37) -/
def backoffDraw (s : State) (be : Nat) : Nat := (drawn s).toNat % 2 ^ be

/-- R183: a missed Enh-ACK in a shared cell advances the neighbour's backoff exponent. -/
def sharedMiss (h : Nat) (s : State) : State :=
  match nbrGet s h with
  | none => s
  | some x =>
    let be := max (fget s 0 Fl.MAC_TX_CFG_MIN_BE) (min (fget s 0 Fl.MAC_TX_CFG_MAX_BE) (x.be + 1))
    advanceDraws (nbrPut h { x with be := be, backoff := backoffDraw s be } s)

/-- R179, R180: the neighbour is lost. -/
def nbrLost (h : Nat) (x : Nbr) (s : State) : State :=
  let s1 := raiseFull 77 0 x.node (auxNow s) s
  let s2 := modMac (fun m => { m with lost := h :: m.lost.filter (· ≠ h) }) s1
  returnFrames x.eui (removeNbr h 1 s2)

/-- R164, R179, R183, R189: an expected Enh-ACK was missed. -/
def ackMissed (a : AwaitAck) (s : State) : State :=
  let s1 := bump 0 Ct.MAC_ACK_MISS (modMac (fun m => { m with awaiting := m.awaiting.filter fun x => x.queued.id ≠ a.queued.id }) s)
  let s2 := match homeOf s1 a.eui with
    | none => s1
    | some (h, x) =>
      let pen : Int := (fget s 0 Fl.ROUTE_NBR_CFG_MISS_PENALTY : Nat)
      let y := { x with misses := min 15 (x.misses + 1), lqm := max (-32768) (x.lqm - pen) }
      let t1 := arbEvent h a.closes (nbrPut h y s1)
      let t2 := if a.shared then sharedMiss h t1 else t1
      if fget s 0 Fl.MAC_NBR_CFG_LOST_MISSES ≤ y.misses then nbrLost h y t2 else t2
  match findQueued s2 a.queued.id with
  | some q => attemptFailed q .sent s2
  | none => s2

/-- ACK_WINDOW_END (R164): the window of a frame closes without a credited Enh-ACK. -/
def doAckWindowEnd (id : Nat) (s : State) : State :=
  match s.mac.awaiting.find? fun a => a.queued.id = id with
  | none => s
  | some a => ackMissed a (elapseToNs a.closes s)

/-- Meaning of ACK_WINDOW_END. -/
def execAckWindowEnd (id : Nat) (s : State) : Host.Outcome State Fault Refusal := engine (doAckWindowEnd id) s

end Sys2Proof.Machine
end

