-- ==== Sys2Proof/Machine/TxGo.lean ====
section
/-!
DEFINITION. The berth's transmissions from the go instant on (R121 to R138, R144, R145): synthesiser lock, coexistence, the
checks of the go instant, blanking, aborts on air, and the VCO band refresh.
-/

namespace Sys2Proof.Machine

/-! ### Synthesiser and coexistence -/

/-- The request of a berth with the earliest go instant. -/
def firstReq (s : State) (n : Nat) : Option Tx := (getBerth s n).requests.head?

/-- The earliest request of a berth is gone. -/
def dropReq (n : Nat) (s : State) : State := modBerth n (fun b => { b with requests := b.requests.drop 1 }) s

/-- The berth's transmission on air changed. -/
def modAir (n : Nat) (g : Tx → Tx) (s : State) : State := modBerth n (fun b => { b with onAir := b.onAir.map g }) s

/-- R123: the earliest request of the present slot takes the synthesiser, where no frame of the berth is on air. -/
def retuneNext (n : Nat) (s : State) : State :=
  match firstReq s n with
  | some t => if t.name = s.time.name ∧ ((getBerth s n).onAir.all Tx.done) then retune n t.khz s else s
  | none => s

/-- R123: a retune whose instant has come starts; one away from an Enh-ACK only where none is requested. (DEDUCED, log 21)
(DEDUCED, log 75) -/
def runRetune (n : Nat) (s : State) : State :=
  match (getBerth s n).retuneDue with
  | none => s
  | some (t, ack) =>
    if instantLater (nowNs s) t then s
    else
      let s1 := modBerth n (fun b => { b with retuneDue := none }) s
      if ack && (getBerth s n).requests.any fun x => x.cls = .ack then s1 else retuneNext n s1

/-- The synthesiser as it comes to lock (R123): where it stands locked, it is the retune still to come that locks. (DEDUCED, log 21)
(DEDUCED, log 75) -/
def toLock (n : Nat) (s : State) : State :=
  match (getBerth s n).retuneDue with
  | some (t, _) => runRetune n (if (getBerth s n).txLock then elapseToNs t s else s)
  | none => s

/-- The frequency that the synthesiser locks on (R123). (DEDUCED, log 21) -/
def lockKhz (s : State) (n : Nat) : Nat := (getBerth (toLock n s) n).synKhz

/-- R123: the TX synthesiser reaches lock; which VCO band it takes is open. (DEDUCED, log 21) -/
def doTxSynthLocked (n : Nat) (s : State) : State :=
  if berthPresent s n && !(getBerth s n).synCal then
    drawFree (modBerth n (fun b => { b with txLock := true, vcoBand := openBelow s 64 }) (toLock n s))
  else s

/-- Meaning of TX_SYNTH_LOCKED. -/
def execTxSynthLocked (n : Berth) (s : State) : Host.Outcome State Fault Refusal := act (doTxSynthLocked n.val) s

/-- The earliest request of a berth that does not hold its group's request yet (R138). -/
def coexNext (s : State) (n : Nat) : Option Nat := (getBerth s n).requests.findIdx? fun t => !t.coexHeld

/-- R138: COEX_REQ_g is asserted REQ_LEAD_US before the go instant of each planned transmission. -/
def doCoexRequest (n : Nat) (s : State) : State :=
  match coexNext s n with
  | some i =>
    match (getBerth s n).requests[i]? with
    | some t =>
      if coexOn s n then
        modBerth n (fun b => { b with requests := b.requests.set i { t with coexHeld := true } }) (elapseToNs (coexLead s n t) s)
      else s
    | none => s
  | none => s

/-- Meaning of COEX_REQUEST. -/
def execCoexRequest (n : Berth) (s : State) : Host.Outcome State Fault Refusal := act (doCoexRequest n.val) s

/-! ### The checks of the go instant -/

/-- Berths with an open blank interval (R125, R136). -/
def openBlanks (s : State) : Nat := ((List.range 6).filter (blankOpen s)).length

/-- R125: the berth cannot start a transmission. -/
def unavailable (s : State) (n : Nat) : Bool :=
  blankOpen s n || !fbit s (berthBase n) Fl.BERTH_TX_CTRL_TX_EN || (getBerth s n).calBusy || inDock s n || !gateOpen s ||
    fget s 0 Fl.BCOM_TX_MAXCONC_MAX ≤ openBlanks s

/-- R144: berth `j` qualifies to measure at a frequency over an interval that began at `t`. -/
def measures (s : State) (khz : Nat) (t : Instant) (j : Nat) : Bool :=
  berthPresent s j && (entryAt s j khz).isSome && rxOn s j && !blankOpen s j &&
    (getBerth s j).lastBlank.all fun e => 0 ≤ instantDiff e t

/-- R144: the measuring berth: the transmitting one where it qualifies, else the lowest that does. -/
def measuringBerth (s : State) (n khz : Nat) (t : Instant) : Option Nat :=
  if measures s khz t n then some n else (List.range 6).find? (measures s khz t)

/-- R144: the channel is clear for a transmission. (DEDUCED, log 22) -/
def lbtClear (s : State) (n : Nat) (t : Tx) (cca : Cca) : Bool :=
  match bandOf s t.band with
  | none => true
  | some e =>
    !needsCca e t.cls ||
      match measuringBerth s n t.khz (t.goAt - nsStep (ccaNs s e)), cca with
      | some j, .level q => q - rssiOfs s j < 4 * e.lbtDbm
      | _, _ => false

/-- R131: CUT_THRESHOLD octets of the protected frame, or all of a shorter one, crossed the quay; none of a frame that the pool has
not begun or found no key for. -/
def dataReady (s : State) (t : Tx) (crossed : Nat) : Bool :=
  t.begun && !t.stale && min (fget s 0 Fl.HOLD_CUT_CFG_THRESHOLD) t.len ≤ crossed

/-- A level of COEX_GNT_g is the active one (R137). (DEDUCED, log 75) -/
def grantActive (s : State) (g : Nat) (level : Bool) : Bool := level != fbit s (4 * g) Fl.BCOM_COEX_CFG_GNT_POL

/-- R126, R131: the first check that fails at the go instant, or the final power; `gnt` is the level of the grant's ball.
(DEDUCED, log 22) -/
def goCheck (s : State) (n : Nat) (t : Tx) (cca : Cca) (crossed : Nat) (gnt : Bool) : TxOutcome ⊕ Int :=
  let b := getBerth s n
  if unavailable s n then .inl .berthUnavailable
  else if !b.txLock || b.synCal || b.synKhz ≠ t.khz then .inl .lockMiss
  else
    match coupleCheck s n t.power with
    | none => .inl .coupling
    | some p =>
      if !dutyFits s t.band t.airtimeUs t.cls then .inl .duty
      else if !lbtClear s n t cca then .inl .lbtBusy
      else if coexOn s n && !grantActive s (coexGroup n) gnt then .inl .coexDenied
      else if !dataReady s t crossed then .inl .underrun
      else .inr p

/-- The counter of an outcome (R146). -/
def TxOutcome.counter : TxOutcome → Option Cnt
  | .sent => none
  | .lockMiss | .unlocked => some Ct.BERTH_TX_LOCK_MISS
  | .duty => some Ct.BERTH_TX_DUTY_DEFER
  | .lbtBusy => some Ct.BERTH_TX_LBT_BUSY
  | .coexDenied | .coexRevoked => some Ct.BERTH_TX_COEX_DENY
  | .coupling => some Ct.BERTH_TX_COUPLE_DEFER
  | .berthUnavailable | .gateClosed => some Ct.BERTH_TX_UNAVAIL
  | .underrun => some Ct.BERTH_TX_UNDERRUN
  | .fenced => some Ct.BERTH_TX_FENCE_ABORT
  | .poisoned => some Ct.BERTH_TX_POISON
  | .maskTrip => some Ct.BERTH_TX_MASK_VIOL
  | .regRefused | .tooLong => some Ct.BERTH_TX_REG_REFUSE

/-- An outcome is counted on its berth. -/
def countOutcome (n : Nat) (o : TxOutcome) (s : State) : State :=
  match o.counter with
  | some c => bump (berthBase n) c s
  | none => s

/-- A transmit event of a berth about a transmission (R148). -/
def txEvent (n code result : Nat) (t : Tx) (aux : Nat) (s : State) : State :=
  raiseFull (8 * n + code) result t.node (auxSlot t.name + aux) s

/-- The event of an outcome that did not start (R123, R131, R145). -/
def notStartedEvent (n : Nat) (t : Tx) (o : TxOutcome) (s : State) : State :=
  match o with
  | .lockMiss => txEvent n 5 0 t 0 s
  | .duty => txEvent n 7 2 t (t.band * 2 ^ 56) s
  | .underrun => txEvent n 4 o.code t 0 s
  | _ => s

/-- R126: the earliest request does not start; its coexistence request is released. -/
def notStarted (n : Nat) (t : Tx) (o : TxOutcome) (s : State) : State :=
  txOutcome n t o false (notStartedEvent n t o (countOutcome n o (dropReq n s)))

/-- R126, R127: the earliest request starts with its final power. -/
def startTx (n : Nat) (t : Tx) (p : Int) (s : State) : State :=
  let k := bucketNow s
  let t1 := { t with power := p, chargedBucket := k }
  let s1 := modBerth n (fun b => { b with onAir := some t1, blankEnd := some t1.endAt, airSent := false }) (dropReq n s)
  let s2 := dutyMod t.band k (fun u => u + t.airtimeUs) (blankAll n s1)
  let s3 := bump (berthBase n) Ct.BERTH_TX_FRAME s2
  let s4 := if t.cls = .ack then bump (berthBase n) Ct.BERTH_TX_ACK s3 else s3
  emit (.air n t.khz t.preAt p t.mode t.coded t.whitened t.frame (t.frame.psdu s.otp.oui s.otp.eui t.fcs4)) s4

/-- The level of a coexistence group's grant ball as sampled. -/
def setGnt (g : Nat) (on : Bool) (s : State) : State := { s with bcom := { s.bcom with gnt := s.bcom.gnt.set g on } }

/-- TX_GO (R126): the go instant of the berth's earliest request. -/
def doTxGo (n : Nat) (cca : Cca) (crossed : Nat) (gnt : Bool) (s : State) : State :=
  match firstReq s n with
  | none => s
  | some t0 =>
    let s1 := setGnt (coexGroup n) gnt (runRetune n (elapseToNs t0.goAt s))
    let t := { t0 with coexHeld := coexOn s1 n }
    match goCheck s1 n t cca crossed gnt with
    | .inl o => notStarted n t o s1
    | .inr p => startTx n t p s1

/-- Meaning of TX_GO. -/
def execTxGo (n : Berth) (cca : Cca) (crossed : Nat) (gnt : Bool) (s : State) : Host.Outcome State Fault Refusal :=
  act (doTxGo n.val cca crossed gnt) s

/-! ### The end of a transmission -/

/-- R123: the synthesiser may retune when the ramp-down that begins now has ended. -/
def retuneAfterRamp (n ramp : Nat) (s : State) : State :=
  modBerth n (fun b => { b with retuneDue := some (nowNs s + nsStep ramp, false) }) s

/-- R127, R133, R145: the last symbol of the frame on air. The airtime charged at the go instant was the actual one. -/
def lastSymbol (n : Nat) (s : State) : State :=
  match (getBerth s n).onAir with
  | some t =>
    if t.done then s
    else
      let s1 := modBerth n (fun b => { b with onAir := some { t with done := true }, airSent := true }) (elapseToNs t.lastAt s)
      txOutcome n t .sent true (retuneAfterRamp n (1000 * rampUs s n) s1)
  | none => s

/-- Meaning of TX_LAST_SYMBOL. -/
def execTxLastSymbol (n : Berth) (s : State) : Host.Outcome State Fault Refusal := act (lastSymbol n.val) s

/-- BLANK_END (R127): the blank closes at T_end and the demodulators search again. -/
def doBlankEnd (n : Nat) (s : State) : State :=
  let s1 := lastSymbol n s
  match (getBerth s1 n).blankEnd with
  | some e =>
    runRetune n (restAll n (modBerth n (fun b => { b with onAir := none, blankEnd := none, lastBlank := some e, airSent := false })
      (elapseToNs e s1)))
  | none => s

/-- Meaning of BLANK_END. -/
def execBlankEnd (n : Berth) (s : State) : Host.Outcome State Fault Refusal := act (doBlankEnd n.val) s

/-- The airtime in µs of a transmission that ends at an instant (R145). (DEDUCED, log 22) -/
def airtimeTo (s : State) (n : Nat) (t : Tx) (now : Instant) : Nat :=
  (2000 * rampUs s n + (instantDiff t.preAt now).toNat + 999) / 1000

/-- R131, R132, R145: the frame on air aborts now, with a ramp or, when the gate cuts it, without; the outcome is counted, told
with event 8n + 4 and handed to the MAC engine. -/
def abortAir (n : Nat) (o : TxOutcome) (s : State) : State :=
  match (getBerth s n).onAir with
  | none => s
  | some t =>
    if t.done then s
    else
      let now := nowNs s
      let ramp := if o = .gateClosed then 0 else 1000 * rampUs s n
      let fin := now + nsStep (ramp + 150000)
      let us := airtimeTo s n t now
      let t1 := { t with lastAt := now, endAt := fin, airtimeUs := us, done := true }
      let s1 := retuneAfterRamp n ramp (modBerth n (fun b => { b with onAir := some t1, blankEnd := some fin, airSent := false }) s)
      let s2 := dutyMod t.band t.chargedBucket (fun u => u - t.airtimeUs + us) s1
      let s3 := txEvent n 4 o.code t 0 (countOutcome n o s2)
      txOutcome n t o true (emit (.airEnd n o) s3)

/-- R99: the island takes RX_CAL.GO; a calibrating berth neither receives nor goes on transmitting. (DESIGN CHOICE, log 73) -/
def takeRxCal (n : Nat) (v : Word) (s : State) : State :=
  if !bitAt 0 v then s
  else if (getBerth s n).calBusy || !(!rxOn s n || inDock s n) then reject (berthBase n) s
  else modBerth n (fun b => { b with calBusy := true }) (abortAir n .berthUnavailable (demodsOff n s))

/-- Meaning of RX_CAL: the island takes a posted GO. -/
def execRxCal (n : Berth) (s : State) : Host.Outcome State Fault Refusal :=
  act (fun t => if berthPresent t n.val then takeRxCal n.val 1 t else t) s

/-- Meaning of TX_UNDERRUN (R131). -/
def execTxUnderrun (n : Berth) (s : State) : Host.Outcome State Fault Refusal := act (abortAir n.val .underrun) s

/-- Meaning of TX_POISONED (R132, R350). -/
def execTxPoisoned (n : Berth) (s : State) : Host.Outcome State Fault Refusal := act (abortAir n.val .poisoned) s

/-- A frame of the berth is on air and not ended. -/
def airing (s : State) (n : Nat) : Option Tx := (getBerth s n).onAir.filter fun t => !t.done

/-- The attempt of a frame that waits for its Enh-ACK fails after all; other frames ended with their last symbol (R123, R183). -/
def unsend (t : Tx) (s : State) : State :=
  match t.queued.bind fun q => s.mac.awaiting.find? fun a => a.queued.id = q.id with
  | none => s
  | some a =>
    let s1 := modMac (fun m => { m with awaiting := m.awaiting.filter fun x => x.queued.id ≠ a.queued.id }) s
    match findQueued s1 a.queued.id with
    | some q => queuedFailed t q .unlocked true s1
    | none => s1

/-- R123: lock is lost after the last symbol and before T_end: the frame is UNLOCKED with its events and count. (DEDUCED, log 75) -/
def unlockedLate (n : Nat) (t : Tx) (s : State) : State :=
  let s1 := modBerth n (fun b => { b with airSent := false }) (txEvent n 5 1 t 0 s)
  unsend t (emit (.airEnd n .unlocked) (txEvent n 4 TxOutcome.unlocked.code t 0 (countOutcome n .unlocked s1)))

/-- R123: the TX synthesiser loses lock. (DEDUCED, log 21) -/
def doTxLockLost (n : Nat) (s : State) : State :=
  let s1 := modBerth n (fun b => { b with txLock := false }) s
  match (getBerth s n).onAir with
  | some t =>
    if !t.done then abortAir n .unlocked (txEvent n 5 1 t 0 s1)
    else if (getBerth s n).airSent then unlockedLate n t s1
    else s1
  | none => s1

/-- Meaning of TX_LOCK_LOST. -/
def execTxLockLost (n : Berth) (s : State) : Host.Outcome State Fault Refusal := act (doTxLockLost n.val) s

/-- R138: COEX_GNT_g goes inactive. -/
def doCoexRevoked (g : Nat) (s : State) : State :=
  let s1 := setGnt g (fbit s (4 * g) Fl.BCOM_COEX_CFG_GNT_POL) s
  if fbit s (4 * g) Fl.BCOM_COEX_CFG_EN && fbit s (4 * g) Fl.BCOM_COEX_CFG_REVOKE_ABORT then
    forBelow 6 (fun n t => if coexGroup n = g then abortAir n .coexRevoked t else t) s1
  else s1

/-- Meaning of COEX_REVOKED. -/
def execCoexRevoked (g : Fin 2) (s : State) : Host.Outcome State Fault Refusal := act (doCoexRevoked g.val) s

/-- R135: the spectral-mask monitor trips. The ratio that it measured is open. (DEDUCED, log 22) -/
def doMaskTrip (n : Nat) (s : State) : State :=
  match airing s n with
  | none => s
  | some t =>
    match t.mask with
    | none => s
    | some j =>
      let s0 := elapseToNs (t.preAt + nsStep 64000) s
      let s1 := fset (berthBase n + 4 * j) Fl.BERTH_TX_MASK_EN 0 s0
      let s2 := fset (berthBase n) Fl.BERTH_STATUS_MASK_TRIP 1 s1
      let s3 := txEvent n 6 j t (openBelow s 256 * 2 ^ 48) s2
      drawFree (abortAir n .maskTrip s3)

/-- Meaning of MASK_TRIP. -/
def execMaskTrip (n : Berth) (s : State) : Host.Outcome State Fault Refusal := act (doMaskTrip n.val) s

/-- R28, R132: an AES engine is fenced; the frames on air that it feeds abort. -/
def fenceAir (k : Nat) (s : State) : State :=
  forBelow 6 (fun n t => if (airing t n).any fun x => x.aes = k then abortAir n .fenced t else t) s

/-- R132, R372: the output gate closes and cuts every frame on air. -/
def closeGate (s : State) : State :=
  forBelow 6 (fun n t => abortAir n .gateClosed t) { s with claim := { s.claim with gate := false } }

/-! ### The VCO band refresh -/

/-- R124: the refresh becomes due, by temperature or by time. -/
def doBandRefreshTrigger (n : Nat) (temp : Int) (s : State) : State :=
  let s0 := modBerth n (fun b => { b with temp := temp }) s
  let b := getBerth s0 n
  if !berthPresent s n || !b.calValid || b.refreshDue.isSome then s0
  else
    let moved := 4 * fget s (berthBase n) Fl.BERTH_TX_SYN_CFG_RECAL_DT < (temp - b.refreshTemp).natAbs
    let due := b.refreshMono + 1000000000 * fget s (berthBase n) Fl.BERTH_TX_SYN_CFG_RECAL_S
    let s1 := if moved then s0 else elapseToMono due s0
    modBerth n (fun x => { x with refreshDue := some (monoNs s1) }) s1

/-- Meaning of BAND_REFRESH_TRIGGER. -/
def execBandRefreshTrigger (n : Berth) (temp : Int) (s : State) : Host.Outcome State Fault Refusal :=
  act (doBandRefreshTrigger n.val temp) s

/-- A synthesiser event of a berth about no frame (R148). -/
def synthEvent (n result : Nat) (s : State) : State := raiseAux (8 * n + 5) result (auxNow s) s

/-- R124: a refresh ends, 220 µs after its start; a failed one keeps the old table. (DEDUCED, log 31) -/
def doBandRefreshDone (n band : Nat) (ok : Bool) (s : State) : State :=
  if (getBerth s n).synCal then
    let s0 := elapseToMono ((getBerth s n).synCalMono + 220000) s
    let s1 := modBerth n (fun b => { b with synCal := false, refreshDue := none, refreshOverdue := false }) s0
    if ok then modBerth n (fun b => { b with vcoBand := band % 64, refreshMono := monoNs s0, refreshTemp := b.temp }) s1
    else synthEvent n 3 s1
  else s

/-- Meaning of BAND_REFRESH_DONE. -/
def execBandRefreshDone (n : Berth) (band : Nat) (ok : Bool) (s : State) : Host.Outcome State Fault Refusal :=
  act (doBandRefreshDone n.val band ok) s

/-- R124: at a slot start at or after 60 s from the trigger, event 8n + 5 is raised once. -/
def refreshLate (n : Nat) (s : State) : State :=
  let b := getBerth s n
  match b.refreshDue with
  | some t =>
    if !b.refreshOverdue && !b.synCal && t + 60000000000 ≤ monoNs s then
      synthEvent n 2 (modBerth n (fun x => { x with refreshOverdue := true }) s)
    else s
  | none => s

/-- BAND_REFRESH_OVERDUE: the slot start at which a due refresh turns overdue. (DEDUCED, log 31) -/
def doBandRefreshOverdue (n : Nat) (s : State) : State :=
  match (getBerth s n).refreshDue with
  | some t => refreshLate n (elapseToMono (t + 60000000000) s)
  | none => s

/-- Meaning of BAND_REFRESH_OVERDUE. -/
def execBandRefreshOverdue (n : Berth) (s : State) : Host.Outcome State Fault Refusal := act (doBandRefreshOverdue n.val) s

/-! ### Filter taps -/

/-- The reset value of a tap (R134). -/
def tapReset (a : Nat) : BitVec 16 := if a % 64 = 32 then 16384 else 0

/-- The addressed tap, as a read of TAP_DATA returns it (R146). -/
def tapShown (s : State) (n : Nat) : BitVec 16 :=
  let a := fget s (berthBase n) Fl.BERTH_TX_TAP_ADDR_ADDR
  ((getBerth s n).taps.find a).getD (tapReset a)

/-- R134, R146: the island takes a tap. -/
def takeTap (n : Nat) (v : Word) (s : State) : State :=
  let a := fget s (berthBase n) Fl.BERTH_TX_TAP_ADDR_ADDR
  if fbit s (berthBase n + 4 * (a / 64)) Fl.BERTH_TX_MASK_EN then reject (berthBase n) s
  else
    let x : BitVec 16 := BitVec.ofNat 16 (bitsOf 15 0 v)
    let s1 := modBerth n (fun b => { b with taps := if x = tapReset a then b.taps.del a else b.taps.put a x }) s
    fset (berthBase n) Fl.BERTH_TX_TAP_ADDR_ADDR (a + 1) s1

/-- Meaning of TAP_DATA_WRITE. -/
def execTapDataWrite (f : Fn) (n : Berth) (v : Word) (s : State) : Host.Outcome State Fault Refusal :=
  act (rowWrite f.val (berthBase n.val + Reg.BERTH_TX_TAP_DATA) v true (takeTap n.val v)) s

end Sys2Proof.Machine
end

