-- ==== Sys2Proof/Machine/RxMac.lean ====
section
/-!
DEFINITION. RECEIVE_RECORD (R160 to R164, R171, R172, R176, R178, R187, R189, R325, R327): what the MAC engine does with a closed
receive record.
-/

namespace Sys2Proof.Machine

/-! ### Steps 1 and 2 -/

/-- The record was received whole (R160 step 1). -/
def RxRec.whole (r : RxRec) : Bool := r.abort.isNone && r.fcsOk

/-- The frequency of a record, kHz. -/
def recKhz (s : State) (r : RxRec) : Nat := rxKhz s r.berth r.channel

/-- What identifies the reception of a record, where it was received whole (R161). -/
def receptionOf (s : State) (r : RxRec) : Option Reception :=
  if r.whole then r.frame.map fun f => ⟨recKhz s r, f.src, f.dsn, r.sfdTime, true⟩ else none

/-- Two receptions are one (R161). (DEDUCED, log 25) -/
def Reception.same (a b : Reception) : Bool :=
  a.khz = b.khz && a.src = b.src && a.dsn = b.dsn && (instantDiff a.sfdTime b.sfdTime).natAbs ≤ 1000

/-- Two records are one reception (R161). (DEDUCED, log 25) -/
def sameReception (s : State) (a b : RxRec) : Bool :=
  match receptionOf s a, receptionOf s b with
  | some x, some y => x.same y
  | _, _ => false

/-- The records waiting that are one reception with a record, itself among them (R161). -/
def copiesOf (s : State) (r : RxRec) : List RxRec := s.mac.records.filter fun x => x = r || sameReception s r x

/-- The record that is kept of the receptions waiting (R161): the higher RSSI, then the lower berth. -/
def bestCopy (s : State) (r : RxRec) : RxRec :=
  (copiesOf s r).foldl (fun acc x =>
    if acc.rssi < x.rssi ∨ (acc.rssi = x.rssi ∧ x.berth < acc.berth) then x else acc) r

/-- The reception that a record belongs to was processed already (R161). -/
def recentOf (s : State) (r : RxRec) : Option Reception :=
  (receptionOf s r).bind fun x => s.mac.recent.find? fun y => x.same y

/-- The frame is addressed to the device by unicast; SHORT 0xFFFE is no short address (R184). -/
def toDevice (s : State) (f : Frame) : Bool :=
  f.dst = .eui s.otp.eui || (f.dst = .short (BitVec.ofNat 16 (fget s 0 Fl.MAC_PAN_SHORT)) && f.dst ≠ Addr.broadcast &&
    fget s 0 Fl.MAC_PAN_SHORT ≠ 0xFFFE)

/-- The frame passes step 2 of R160, and is of a kind that the device implements (R149, R150). -/
def frameOurs (s : State) (f : Frame) : Bool :=
  f.version = 2 && (f.pan.all fun p => p.toNat = fget s 0 Fl.MAC_PAN_PAN_ID) && (toDevice s f || f.dst = Addr.broadcast) &&
    f.kind ≠ .other && f.sec.all fun c => (c.level = 0 || c.level = 5 || c.level = 6) && (c.level = 0 || c.keyMode = 1)

/-- The sender's EUI-64 (R171, R187): its own, or the one that a table holds for its short address. (PRESUMED, log 26) -/
def srcEui (s : State) (f : Frame) : Option Eui :=
  match f.src with
  | .eui e => some e
  | .short a => (s.tables.nbrs.find? fun p => p.2.short = a && a ≠ 0xFFFE).map fun p => p.2.eui
  | .none => none

/-- The handle of a sender, none without one (R187). -/
def srcNode (s : State) (e : Option Eui) : Handle := (e.map (nodeOf s)).getD noNode

/-! ### Step 4 -/

/-- NACK of an Enh-ACK (R163, R164). -/
def Frame.nack (f : Frame) : Bool := f.ies.any fun i => match i with
  | .timeCorrection _ n => n
  | _ => false

/-- The Enh-ACK that a frame is, by its tag and its window (R164). -/
def expectedAck (s : State) (r : RxRec) (f : Frame) (e : Option Eui) : Option AwaitAck :=
  if f.kind ≠ .ack then none
  else
    let pre := r.sfdTime - nsStep (shrNs s r.berth r.mode)
    s.mac.awaiting.find? fun a =>
      a.khz = recKhz s r && e = some a.eui && a.dsn = f.dsn && 0 ≤ instantDiff a.opens pre && 0 ≤ instantDiff pre a.closes

/-- SFD_TIME lies in the receive window of its slot (R160 step 4). -/
def inWindow (s : State) (r : RxRec) : Bool :=
  match r.slotStart with
  | none => false
  | some k =>
    let at0 := instantDiff k r.sfdTime
    let ofs := 1000 * bitsOf 16 0 (rd s Reg.MAC_TS_RX_OFS)
    slotsOn s && (ofs : Int) ≤ at0 && at0 ≤ ofs + 1000 * bitsOf 16 0 (rd s Reg.MAC_TS_RX_WAIT)

/-! ### Step 5 -/

/-- What security processing finds (R160 step 5, R325): a failure, with the slot where it is retired without grace; a frame without
security; or the candidate that authenticates the frame, with its slot. -/
inductive SecRes where
  | fail (retired : Option Nat)
  | unsecured
  | auth (c : Candidate) (slot : Nat)
  deriving DecidableEq, Repr

/-- R325: the key index names a slot, Frame Counter Suppression and ASN in Nonce are set, and the slot's candidates are tried in order under the ASN of the record's slot.
(DEDUCED, log 25) -/
def secCheck (s : State) (r : RxRec) (f : Frame) (e : Option Eui) (unsecOk : Bool) : SecRes :=
  let open' : SecRes := if unsecOk then .unsecured else .fail none
  match f.sec with
  | none => open'
  | some c =>
    if c.level = 0 then open'
    else if c.keyIndex < 1 ∨ 16 < c.keyIndex ∨ !c.suppressed ∨ !c.asnNonce then .fail none
    else
      let slot := c.keyIndex - 1
      if slotRetired s slot then .fail (some slot)
      else
        match e with
        | none => .fail none
        | some x =>
          match (inboundCandidates s slot x).find? fun k => k.key = c.key && c.intact && c.slot.asn = r.name.asn with
          | some k => .auth k slot
          | none => .fail none

/-- Security processing fails (R160, R325). -/
def secFailed (retired : Option Nat) (node : Handle) (s : State) : State :=
  let s1 := bump 0 Ct.MAC_RX_SEC_FAIL s
  match retired with
  | some slot => raiseNode 148 slot node (bump 0 Ct.KEY_GRACE_REJECT s1)
  | none => s1

/-- A candidate was used (R321, R325). -/
def secUsed (c : SecRes) (s : State) : State :=
  match c with
  | .auth k slot =>
    let s1 := if k.grace then bump 0 Ct.KEY_GRACE_RX s else s
    if k.grace && !k.fromPrior then s1 else useCast slot k.fromPrior k.key.eui k.key.gen s1
  | .fail _ | .unsecured => s

/-! ### Learning and the neighbour's entry -/

/-- The sample of a record (R189). -/
def RxRec.sample (r : RxRec) : Int := level16 (r.rssi - r.floor)

/-- R190: a frame with a neighbour's short address as its source was received. -/
def shortHeard (f : Frame) (e : Option Eui) (s : State) : State :=
  match f.src, e with
  | .short a, some x => nbrsMod x (fun y => if y.short = a then { y with shortSeen := true } else y) s
  | _, _ => s

/-- R200: learning would look up a directory entry that is SUSPECT. -/
def learnsSuspect (s : State) (r : RxRec) (f : Frame) (e : Option Eui) : Option Handle :=
  match e, f.src with
  | some x, .eui _ => if (nbrAt s r.berth x).isSome then none else (lookup s x).filter fun h => (dirUsable s h).isNone
  | _, _ => none

/-- R187, R191: a record that passed step 5 renews its berth's entry of the sender, or makes one for an EUI-64 source. -/
def heard (r : RxRec) (f : Frame) (e : Option Eui) (s0 : State) : State :=
  let s := shortHeard f e s0
  match e with
  | none => s
  | some x =>
    match nbrAt s r.berth x with
    | some p => nbrMod p.1 (fun y => { y with heardMono := monoNs s }) s
    | none =>
      match f.src with
      | .eui _ =>
        let s1 := learn r.berth x (fget s 0 Fl.MAC_TX_CFG_MIN_BE) r.sample r.rssi r.name r.sfdTime s
        modMac (fun m => { m with lost := m.lost.filter fun h => (nbrGet s1 h).isNone }) s1
      | .short _ | .none => s

/-- A value follows a sample by an arithmetic shift (R189). -/
def follow (v sample : Int) (shift : Nat) : Int := v + Int.fdiv (sample - v) (2 ^ shift)

/-- R189: a sample of a berth's own entry, and its LQM event (R192). -/
def noteLqm (r : RxRec) (e : Option Eui) (s : State) : State :=
  match e.bind (nbrAt s r.berth) with
  | none => s
  | some p =>
    let k := fget s 0 Fl.ROUTE_NBR_CFG_LQM_SHIFT
    arbEvent p.1 r.sfdTime (nbrPut p.1 { p.2 with
      lqm := follow p.2.lqm r.sample k
      rssiAvg := follow p.2.rssiAvg r.rssi k } s)

/-- The offset of a record from its expected reference instant, ns (R176). -/
def offsetOf (s : State) (r : RxRec) : Int :=
  match r.slotStart with
  | some k => instantDiff (k + nsStep (1000 * bitsOf 16 0 (rd s Reg.MAC_TS_TX_OFS))) r.sfdTime
  | none => 0

/-- R176: the drift sample of a record for an entry, where one is due. -/
def driftSample (x : Nbr) (o : Int) (r : RxRec) : Option Int :=
  let dt := instantDiff x.tLast r.sfdTime
  if x.accepted ∧ 1000000000 ≤ dt then some (Int.tdiv ((o - x.oLast) * 16000000) dt) else none

/-- R176: an entry takes a record's offset and its drift sample. -/
def driftTaken (s : State) (x : Nbr) (o : Int) (r : RxRec) : Nbr :=
  let y : Nbr := match driftSample x o r with
    | none => x
    | some v =>
      if 16 * fget s 0 Fl.MAC_DRIFT_CFG_MAX_PPM < v.natAbs then x
      else if x.hasDrift then { x with d := follow x.d v (fget s 0 Fl.MAC_DRIFT_CFG_SHIFT) }
      else { x with d := v, hasDrift := true }
  { y with oLast := o, tLast := r.sfdTime, accepted := true }

/-- R162: the neighbour's last slot becomes the record's, and its pairs keep their ages; a new pair comes first. (DEDUCED, log 27) -/
def pairsTaken (x : Nbr) (r : RxRec) (new : Option Byte) : Nbr :=
  let by' := if x.seen then (slotDist x.last r.name).toNat else 0
  let aged := x.dup.map fun p => (p.1, min 255 (p.2 + by'))
  { x with seen := true, last := r.name, dup := ((new.map fun d => (d, 0)).toList ++ aged).take 4 }

/-- R162: a frame of a slot in which another frame of the neighbour was accepted. (DEDUCED, log 25) -/
def isReplay (s : State) (e : Eui) (r : RxRec) : Bool := (nbrsOf s e).any fun p => p.2.seen && p.2.last = r.name

/-- R162: the DSN of a pair whose slot lies less than DUP_SLOTS slots before. -/
def dsnSeen (s : State) (e : Eui) (r : RxRec) (f : Frame) : Bool :=
  (nbrsOf s e).any fun p =>
    let back := slotDist p.2.last r.name
    p.2.dup.any fun d => f.dsn = some d.1 && 0 ≤ back + d.2 && back + d.2 < fget s 0 Fl.MAC_NBR_CFG_DUP_SLOTS

/-- R178, R179: any accepted frame ends the neighbour's hold and its misses. -/
def homeHeard (e : Eui) (r : RxRec) (s : State) : State :=
  match homeOf s e with
  | none => s
  | some (h, x) =>
    let s1 := nbrPut h { x with misses := 0, held := false } s
    if x.held then raiseFull 71 0 x.node (auxSlot r.name) s1 else s1

/-- Steps 6 and 7 of R160: what R162 keeps of the neighbour, in all its entries, and the receiving berth's entry (R176). -/
def entryTaken (e : Eui) (r : RxRec) (f : Frame) (new : Bool) (s : State) : State :=
  let s0 := nbrsMod e (fun x => pairsTaken x r (if new then f.dsn else none)) s
  match nbrAt s0 r.berth e with
  | none => s0
  | some (k, x) =>
    let o := offsetOf s0 r
    let y := driftTaken s0 x o r
    let s1 := nbrPut k { y with rxCnt := if new then min 65535 (y.rxCnt + 1) else y.rxCnt } s0
    match driftSample x o r with
    | some v =>
      if 16 * fget s 0 Fl.MAC_DRIFT_CFG_MAX_PPM < v.natAbs then raiseFull 72 0 x.node (auxOf v + r.name.epoch.toNat * 2 ^ 32)
        (bump 0 Ct.MAC_DRIFT_OUTLIER s1)
      else s1
    | none => s1

/-! ### Step 8 -/

/-- hash4 of R171. -/
def hash4 (e : Eui) (dsn : Byte) : Nat := (fcs16 (leBytes 8 e.toNat) ^^^ dsn.zeroExtend 16).toNat % 16

/-- The channel offset that a channel has in a slot (R172). -/
def offsetOn (s : State) (q : Nat) (n : SlotName) (c : Nat) : Option Nat :=
  (List.range (hopLen s q)).find? fun o => hopChan s q n o = c

/-- A block-ack frame that the crypto pool has begun covers a slot's offset (R172). -/
def baComposed (s : State) (q count o : Nat) : Bool :=
  s.berths.zipIdx.any fun p => bandOfBerth p.2 = q && (p.1.requests ++ p.1.onAir.toList).any fun t =>
    t.cls = .ba && t.begun && (baCovers t.frame.ies count).any fun x => x.1 ≤ o && o < x.1 + x.2

/-- R172: a wide-cell frame sets its bit. (DEDUCED, log 29) -/
def setBaBit (e : Option Eui) (r : RxRec) (f : Frame) (o : Nat) (s : State) : State :=
  let q := bandOfBerth r.berth
  let a := r.name.count
  match e, f.dsn with
  | some x, some d =>
    let awaited := (getBa s q).slots.any fun y => y.count = a && y.base ≤ o
    if !awaited || baComposed s q a o || (getBa s q).bits.any fun y => y.count = a && y.offset = o then s
    else bump 0 Ct.MAC_BA_BITS (modBa q (fun y => { y with bits := y.bits ++ [⟨a, o, hash4 x d⟩] }) s)
  | _, _ => s

/-- The Time Correction IE of an Enh-ACK, µs (R163). (PRESUMED, log 26) -/
def timeCorr (o : Int) : Int :=
  let half := Int.tdiv (2 * o.natAbs + 1000) 2000
  clampInt (-2047) 2047 (if o < 0 then half else -half)

/-- The Enh-ACK of a frame (R163, R322); its Quay Time IE is added when the pool begins it. (PRESUMED, log 26) -/
def ackFrame (s : State) (r : RxRec) (f : Frame) (c : SecRes) (nack : Bool) : Frame where
  kind := .ack
  version := 2
  pan := some (BitVec.ofNat 16 (fget s 0 Fl.MAC_PAN_PAN_ID))
  dst := f.src
  src := .eui s.otp.eui
  dsn := f.dsn
  ar := false
  sec := match c, f.sec with
    | .auth k slot, some x => some ⟨x.level, 1, slot + 1, true, true, k.key, r.name, true⟩
    | _, _ => none
  ies := [.timeCorrection (timeCorr (offsetOf s r)) nack]
  upper := .none

/-- How an Enh-ACK is to be sent (R163). -/
def ackSpec (s : State) (r : RxRec) (f : Frame) (c : SecRes) (nack : Bool) (node : Handle) : TxSpec :=
  let a := ackFrame s r f c nack
  let whole : Frame := if fbit s 0 Fl.MAC_CTRL_QT_ACK then { a with ies := Ie.quayTime 0 0 :: a.ies } else a
  { berth := r.berth
    cls := .ack
    frame := a
    queued := none
    len := macLen whole ((a.sec.map FrameSec.level).getD 0) (if r.fcs4 then 4 else 2)
    chan := r.channel
    mode := r.mode
    coded := r.coded
    fcs4 := r.fcs4
    whitened := r.whitened
    power := none
    refAt := r.endAt + nsStep (1000 * bitsOf 16 0 (rd s Reg.MAC_TS_TX_ACK_DELAY) + shrNs s r.berth r.mode)
    slotStart := r.slotStart.getD r.sfdTime
    name := r.name
    node := node
    shared := false }

/-- What becomes of the Enh-ACK of a frame (R163, R327). -/
inductive AckPlan where
  | none
  | late
  | guarded
  | send
  deriving DecidableEq, Repr

/-- R163, R327: whether an Enh-ACK is due for a frame, comes too late, or is withheld. -/
def ackPlan (s : State) (r : RxRec) (f : Frame) (c : SecRes) (classic : Bool) : AckPlan :=
  let due := classic && toDevice s f && f.ar && f.kind = .data && meshOn s
  let x := ackSpec s r f c false noNode
  let go := (placeTx s x 0 0 none 0).goAt
  if !due then .none
  else if r.ackLate ∨ instantLater (nowNs s) (go - nsStep 50000) then .late
  else
    match c with
    | .auth k _ => if nonceUsed s k.key r.name then .guarded else .send
    | .fail _ | .unsecured => .send

/-- R163: the Enh-ACK is requested. -/
def requestAck (r : RxRec) (f : Frame) (c : SecRes) (nack : Bool) (node : Handle) (s : State) : State :=
  match prepareTx (ackSpec s r f c nack node) s with
  | (.inl _, s1) => s1
  | (.inr t, s1) =>
    let s2 := bump 0 Ct.MAC_ACK_TX (addRequest r.berth t s1)
    let s3 := match c with
      | .auth k _ => noteNonce k.key r.name s2
      | .fail _ | .unsecured => s2
    if nack then raiseFull 76 0 node (auxSlot r.name) (bump 0 Ct.MAC_NACK s3) else s3

/-- R163: the Enh-ACK of a frame as planned. -/
def doAck (p : AckPlan) (r : RxRec) (f : Frame) (c : SecRes) (nack : Bool) (node : Handle) (s : State) : State :=
  match p with
  | .none => s
  | .late => raiseFull 75 0 node (auxSlot r.name) (bump 0 Ct.MAC_ACK_LATE s)
  | .guarded => raiseFull 149 0 node 0 (bump 0 Ct.KEY_NONCE_GUARD s)
  | .send => requestAck r f c nack node s

/-- The service engine has no room for a frame (R163, R356). -/
def serviceFull (s : State) : Bool := !cellFree s

/-! ### Step 9 -/

/-- R160 step 9: a data frame goes to the service engine. -/
def deliver (e : Option Eui) (r : RxRec) (f : Frame) (c : SecRes) (s : State) : State :=
  if f.kind = .data then
    let u : UpPkt := ⟨e.getD 0, f.upper, r.sfdTime, r.name, r.berth, c = .unsecured, false⟩
    modSvc (fun v => { v with upq := v.upq ++ [u] }) (bump 0 Ct.MAC_RX_ACCEPT s)
  else s

/-- Steps 8 and 9 of R160, while the gate is open: `inCell` is a receive cell of the armature, `o` the offset of a block-ack bit. -/
def acknowledge (e : Option Eui) (dup nack : Bool) (p : AckPlan) (inCell : Bool) (o : Option Nat) (r : RxRec) (f : Frame) (c : SecRes)
    (s : State) : State :=
  let s0 := if inCell then s else bump 0 Ct.MAC_RX_OFFCELL s
  let s1 := match o with
    | some x => setBaBit e r f x s0
    | none => s0
  let s2 := doAck p r f c nack (srcNode s e) s1
  if dup then bump 0 Ct.MAC_RX_DUP s2 else if nack then s2 else deliver e r f c s2

/-- Steps 6 to 9 of R160 for a frame that is no expected Enh-ACK; whether it passed step 6. A frame with AR 1 outside a classic cell gets
no acknowledgement of any kind (R150). -/
def accept (e : Option Eui) (fresh : Bool) (r : RxRec) (f : Frame) (c : SecRes) (s : State) : Bool × State :=
  if e.any fun x => isReplay s x r then (false, raiseFull 73 0 (srcNode s e) (auxSlot r.name) (bump 0 Ct.MAC_REPLAY s))
  else
    let q := bandOfBerth r.berth
    let dup := e.any fun x => dsnSeen s x r f
    let classic := (classicChans s q r.name).contains r.channel
    let wide := if isWide s q r.name && f.kind = .data then offsetOn s q r.name r.channel else none
    let o := if f.ar && !classic then none else wide
    let p := if gateOpen s then ackPlan s r f c classic else .none
    let nack := p = .send && !dup && serviceFull s && (prepFault s (ackSpec s r f c true noNode)).isNone
    let s1 := if fresh then s else noteLqm r e s
    let s2 := match e with
      | some x => homeHeard x r (entryTaken x r f (!dup && !nack) s1)
      | none => s1
    (true, if gateOpen s then acknowledge e dup nack p (classic || wide.isSome) o r f c s2 else bump 0 Ct.CLAIM_SHADOW_RX s2)

/-! ### The record -/

/-- R164, R183: an expected Enh-ACK. (DEDUCED, log 27) -/
def ackCredited (f : Frame) (a : AwaitAck) (s : State) : State :=
  if f.nack then ackMissed a s
  else
    let s1 := modMac (fun m => { m with awaiting := m.awaiting.filter fun x => x.queued.id ≠ a.queued.id }) s
    let s2 := match homeOf s1 a.eui with
      | none => s1
      | some (h, x) =>
        let y : Nbr := { x with misses := 0 }
        nbrPut h (if a.shared then { y with be := fget s 0 Fl.MAC_TX_CFG_MIN_BE, backoff := 0 } else y) s1
    match findQueued s2 a.queued.id with
    | some q => frameEnded q .sent true .sent s2
    | none => s2

/-- What processing a record came to: one of the steps 2 to 5 of R160, or R200, dropped it; or it passed step 6; and the state. -/
structure RecRes where
  dropped : Bool
  passed : Bool
  st : State

/-- R200: a record whose directory entry is SUSPECT is dropped. -/
def suspectDrop (h : Handle) (s : State) : RecRes := ⟨true, false, raiseNode 101 0 h s⟩

/-- Step 3 of R160: an EB. -/
def ebRecord (r : RxRec) (f : Frame) (s : State) : RecRes :=
  let e := srcEui s f
  match secCheck s r f e (fbit s 0 Fl.MAC_CTRL_RX_UNSEC) with
  | .fail x => ⟨true, false, secFailed x (srcNode s e) s⟩
  | c =>
    match learnsSuspect s r f e with
    | some h => suspectDrop h (secUsed c s)
    | none => ⟨false, true, heard r f e (secUsed c s)⟩

/-- Steps 4 to 9 of R160; while SLOTS is 0 no slot has a window, and every frame is discarded. -/
def dataRecord (r : RxRec) (f : Frame) (s : State) : RecRes :=
  let e := srcEui s f
  let exp := expectedAck s r f e
  if !slotsOn s || (exp.isNone && !inWindow s r) then ⟨true, false, bump 0 Ct.MAC_RX_OFFWIN s⟩
  else
    let open' := fbit s 0 Fl.MAC_CTRL_RX_UNSEC || exp.any fun a => secLevel s a.queued.cls (some a.queued) = 0
    match secCheck s r f e open' with
    | .fail x => ⟨true, false, secFailed x (srcNode s e) s⟩
    | c =>
      match learnsSuspect s r f e with
      | some h => suspectDrop h (secUsed c s)
      | none =>
        let fresh := (e.bind (nbrAt s r.berth)).isNone
        let s1 := heard r f e (secUsed c s)
        match exp with
        | some a => ⟨false, true, ackCredited f a s1⟩
        | none =>
          let x := accept e fresh r f c s1
          ⟨false, x.1, x.2⟩

/-- R160: a record is processed. (DEDUCED, log 25) -/
def runRecord (r : RxRec) (s : State) : RecRes :=
  if !r.whole then ⟨false, false, s⟩
  else
    match r.frame with
    | none => ⟨true, false, bump 0 Ct.MAC_RX_DROP s⟩
    | some f =>
      if !frameOurs s f then ⟨true, false, bump 0 Ct.MAC_RX_DROP s⟩
      else if f.kind = .beacon then ebRecord r f s
      else dataRecord r f s

/-- R161: a record of a reception that is processed once through another record serves its own berth's entry alone (R187, R189), where
the kept record passed step 6 and this one authenticates. (DEDUCED, log 25) -/
def copyRecord (r : RxRec) (s : State) : State :=
  match r.frame with
  | none => s
  | some f =>
    let e := srcEui s f
    match secCheck s r f e (fbit s 0 Fl.MAC_CTRL_RX_UNSEC || f.kind = .ack), learnsSuspect s r f e with
    | .fail _, _ => s
    | _, some h => raiseNode 101 0 h s
    | _, none =>
      let fresh := (e.bind (nbrAt s r.berth)).isNone
      let s1 := heard r f e s
      if fresh || f.kind ≠ .data then s1 else noteLqm r e s1

/-- R161: a reception was processed; its identity is kept for copies that close later. -/
def noteReception (r : RxRec) (passed : Bool) (s : State) : State :=
  match receptionOf s r with
  | none => s
  | some x => modMac (fun m => { m with
      recent := { x with passed := passed } :: m.recent.filter fun y => (instantDiff y.sfdTime x.sfdTime).natAbs ≤ 1000000000 }) s

/-- R200, R205: what the hold's read met makes the frame's lookup fail, and the frame is dropped. -/
def structDrops (m : HoldRead) : Struct → Bool
  | .dir _ _ | .bucket _ => m.badLoc.isSome
  | _ => false

/-- R257: the raw copy of a record that RX_MODE selects. -/
def rawDue (s : State) (r : RxRec) (dropped : Bool) : Bool :=
  let m := fget s 0 Fl.SVC_RAW_CFG_RX_MODE
  m = 3 || (m = 2 && r.whole) || (m = 1 && dropped)

/-- The raw copies of records (R257). -/
def rawCopies (dropped : Bool) (l : List RxRec) (s : State) : State :=
  l.foldl (fun t r => if rawDue s r dropped then rawCopy r t else t) s

/-- R161: records that are copies of a processed reception serve their own berths' entries. -/
def copyRecords (passed : Bool) (l : List RxRec) (s : State) : State :=
  if passed then l.foldl (fun t r => copyRecord r t) s else s

/-- RECEIVE_RECORD: the reception of the record at the head of the queue, through the best of its records (R161); a lookup that meets
an uncorrectable word drops the frame (R200, R205). -/
def doReceiveRecord (m : HoldRead) (what : Struct) (s : State) : State :=
  match s.mac.records with
  | [] => s
  | r0 :: _ =>
    let s0 := structMet m what s
    let all := copiesOf s0 r0
    let s1 := modMac (fun k => { k with records := k.records.filter fun x => !all.contains x }) s0
    match recentOf s0 r0 with
    | some y => rawCopies false all (copyRecords y.passed all s1)
    | none =>
      let r := bestCopy s0 r0
      let x : RecRes := if structDrops m what && r.whole then ⟨true, false, s1⟩ else runRecord r s1
      rawCopies x.dropped all (copyRecords x.passed (all.erase r) (noteReception r x.passed x.st))

/-- Meaning of RECEIVE_RECORD. -/
def execReceiveRecord (m : HoldRead) (what : Struct) (s : State) : Host.Outcome State Fault Refusal :=
  engine (doReceiveRecord m what) s

end Sys2Proof.Machine
end

