-- ==== Sys2Proof/Machine/Claim.lean ====
section
/-!
DEFINITION. The claim, its bus and the output gate (R363 to R377), and checkpoints (R378 to R380).
-/

namespace Sys2Proof.Machine

/-! ### Claim and bus -/

/-- AUX of events 192, 193, 198 and 199: OWN and BUS (R384). (DEDUCED, log 54) -/
def claimAux (s : State) : Nat := (ownClaim s).toNat + s.claim.bus.toNat * 16

/-- STATE changes (R384): event 192. A unit that enters STANDBY measures quiet from then on (R367). -/
def setClaim (st : ClaimState) (s : State) : State :=
  if s.claim.st = st then s
  else
    let s1 := modClaim (fun c => { c with
      st := st
      quiet := false
      quietFrom := if st = .standby then some (monoNs s) else none
      bus := busValue (ownClaim { s with claim := { c with st := st } }) c.others }) s
    raiseAux 192 st.code (claimAux s1) s1

/-- R367: the bus takes its settled value; an active claim that leaves it raises event 198 and starts the quiet, one that is
there ends it. (DEDUCED, log 54) -/
def rebus (s : State) : State :=
  let was := s.claim.bus.getLsbD 3
  let new := busValue (ownClaim s) s.claim.others
  let s1 := modClaim (fun c => { c with bus := new }) s
  if new.getLsbD 3 then modClaim (fun c => { c with quietFrom := none, quiet := false }) s1
  else if was then
    raiseAux 198 0 (claimAux s1)
      (modClaim (fun c => { c with quietFrom := if c.st = .standby then some (monoNs s) else none }) s1)
  else s1

/-- R378: a unit that leaves ACTIVE stops writing; its next checkpoint is full. -/
def stopCkpt (s : State) : State :=
  match s.claim.area, s.claim.writing with
  | some a, some _ => modClaim (fun c => { c with writing := none, nextFull := true }) (dropCkptJobs a s)
  | _, _ => s

/-- A new claim state, and the bus as it settles with the new claim. (DEDUCED, log 54) -/
def moveClaim (st : ClaimState) (s : State) : State :=
  let was := s.claim.bus
  let s1 := setClaim st (if s.claim.st = .active ∧ st ≠ .active then stopCkpt s else s)
  rebus (modClaim (fun c => { c with bus := was }) s1)

/-- The open work of the old run: function, ring and index of the descriptors that started it. -/
def runDescs (s : State) : List (Nat × Nat × Nat) :=
  let v := s.svc
  v.txns.map (fun t => (t.fn, t.ring, t.index)) ++ v.groups.map (fun g => (g.fn, g.ring, g.index)) ++
    v.mpls.map (fun j => (j.fn, j.ring, j.index)) ++ v.dgrams.map (fun d => (d.fn, d.ring, d.index)) ++
    v.raws.map (fun r => (r.fn, r.ring, r.index)) ++
    (s.camp.camps.filter fun c => c.phase = .starting).map fun c => (c.owner, c.ring, c.index)

/-- A frame of the old run. -/
def TxOwner.ofRun : TxOwner → Bool
  | .txn _ | .datagram _ | .raw _ | .mpl _ _ | .campaign _ => true
  | .mac | .rpl | .upAck => false

/-- R373: the transactions and campaigns of the old run end without entries, and every function gets its loss notice (R274). -/
def endOldRun (s : State) : State :=
  let descs := runDescs s
  let s1 := s.camp.camps.foldl (fun t c => dropCampJobs c true t) (withdraw (fun q => q.owner.ofRun) s)
  let s2 := modCampS (fun c => { c with camps := [], prepared := [], preparing := [], visit := none }) s1
  let s3 := modSvc (fun v => { v with txns := [], groups := [], mpls := [], dgrams := [], raws := [] }) s2
  let s4 := descs.foldl (fun t x => startRing x.1 x.2.1 (dropDesc x.1 x.2.1 x.2.2 t)) s3
  { s4 with fns := s4.fns.map fun x => { x with loss := some 0xFFFFFFFF } }

/-- R365: a unit in RISING or ACTIVE is outranked by a bus value above its claim. -/
def outranked (s : State) : State :=
  match s.claim.st with
  | .rising | .active =>
    if (ownClaim s).toNat < s.claim.bus.toNat then
      let wasActive := s.claim.st = .active
      let s1 := closeGate (moveClaim .standby (fset 0 Fl.CLAIM_CTRL_TAKEOVER 0 s))
      let s2 := raiseAux 199 0 (claimAux s1) s1
      if wasActive then endOldRun s2 else s2
    else s
  | _ => s

/-- R364: the highest claim of the other units changes. -/
def doBusChange (others : BitVec 4) (s : State) : State := outranked (rebus (modClaim (fun c => { c with others := others }) s))

/-- While the device is held in reset it presents no claim, and only the level of the bus changes. -/
def heldBusChange (others : BitVec 4) (s : State) : State := modClaim (fun c => { c with others := others, bus := others }) s

/-- Meaning of BOLLARD_BUS_CHANGE. -/
def execBollardBusChange (others : BitVec 4) (s : State) : Host.Outcome State Fault Refusal :=
  .next (settle (if s.start.held then heldBusChange others s else tapAll s (doBusChange others s)))

/-- The reason of event 195: the first condition of R368 beyond TAKEOVER and QUIET that fails. -/
def riseFault (s : State) : Option Nat :=
  if !s.claim.ckptLoaded && !fbit s 0 Fl.CLAIM_CTRL_FRESH then some 1
  else if !slotsOn s then some 2
  else if 2 ≤ s.fw.mode then some 3
  else none

/-- R367, R368: QUIET becomes 1; event 195 says once what a unit with TAKEOVER waits for. -/
def doQuietReached (s : State) : State :=
  match s.claim.quietFrom with
  | some t =>
    if s.claim.st = .standby && !s.claim.quiet then
      let s1 := modClaim (fun c => { c with quiet := true })
        (elapseToMono (t + 1000000 * fget s 0 Fl.CLAIM_CFG_QUIET_MS) s)
      match riseFault s1 with
      | some r =>
        if fbit s1 0 Fl.CLAIM_CTRL_TAKEOVER then raise 195 r s1 else s1
      | none => s1
    else s
  | none => s

/-- Meaning of QUIET_REACHED. -/
def execQuietReached (s : State) : Host.Outcome State Fault Refusal := act doQuietReached s

/-- R368: every condition of the rise holds; a checkpoint load that runs is waited for (R380). -/
def mayRise (s : State) : Bool :=
  s.claim.st = .standby && fbit s 0 Fl.CLAIM_CTRL_TAKEOVER && s.claim.quiet && (riseFault s).isNone && s.claim.loading.isNone

/-- R368: the unit rises to its active claim, and holds the bus from then on (R369). -/
def doRise (s : State) : State :=
  if mayRise s then
    outranked (moveClaim .rising (modClaim (fun c => { c with heldMono := some (monoNs s), probed := false, probeMono := none }) s))
  else s

/-- Meaning of CLAIM_RISE. -/
def execClaimRise (s : State) : Host.Outcome State Fault Refusal := act doRise s

/-- MONO at which the unit's next release probe is due (R366, R369): 10 µs after it came to hold the bus, then periodically. -/
def probeDue (s : State) : Option Nat :=
  match s.claim.st with
  | .rising => s.claim.probeMono.orElse fun _ => s.claim.heldMono.map (· + 10000)
  | .active => s.claim.probeMono
  | _ => none

/-- R366: an equal claim is seen: the unit drops to its standby claim. (DEDUCED, log 54) -/
def claimConflict (s : State) : State :=
  let s1 := raiseAux 193 0 (claimAux s)
    (bump 0 Ct.CLAIM_CONFLICT (fset 0 Fl.CLAIM_STATUS_CONFLICT 1 (fset 0 Fl.CLAIM_CTRL_TAKEOVER 0 s)))
  closeGate (moveClaim .standby s1)

/-- R366: a release probe, with the value that the other units show meanwhile. (DEDUCED, log 54) -/
def doProbe (others : BitVec 4) (s : State) : State :=
  match probeDue s with
  | none => s
  | some t =>
    let s1 := bump 0 Ct.CLAIM_PROBE (elapseToMono t s)
    let next := monoNs s1 + 1000000 * fget s1 0 Fl.CLAIM_CFG_PROBE_MS + 1000 * ((drawn s1).toNat % 256)
    if others = ownClaim s1 then claimConflict (modClaim (fun c => { c with others := others }) s1)
    else advanceDraws (modClaim (fun c => { c with probed := true, probeMono := some next }) s1)

/-- Meaning of RELEASE_PROBE. -/
def execReleaseProbe (others : BitVec 4) (s : State) : Host.Outcome State Fault Refusal := act (doProbe others) s

/-! ### Takeover -/

/-- A boot record write (R386): SEQ is one higher, and the copy without the latest SEQ is written. -/
def bootWrite (g : BootRec → BootRec) (s : State) : State :=
  let r : BootRec := { g s.flash.boot with seq := s.flash.boot.seq + 1 }
  { s with flash := { s.flash with boot := r, copies := writeCopy r s.flash.copies } }

/-- SEAL_TX_SEQ after a takeover (R373). -/
def sealBump (d : DirEnt) : DirEnt := { d with sealTxSeq := min 0xFFFFFF (d.sealTxSeq + 1048576) }

/-- R373: the takeover adjustments, from the header of the last checkpoint loaded. -/
def adjust (h : CkptHeader) (s : State) : State :=
  let s0 := bootWrite (fun b => { b with incarnation := h.incarnation + 1 }) s
  let fresh (x : FnS) : FnS := { x with tokenSeq := 0 }
  let s1 : State := { s0 with fns := s0.fns.map fresh }
  let s2 := s1.tables.dir.keys.foldl (fun t k => dirMod k sealBump t) s1
  let s3 := fset 0 Fl.SVC_MID_NEXT_MID ((h.mid.toNat + 0x1000) % 65536) s2
  let s4 := fset 0 Fl.SVC_FRAG_TAG ((h.frag.toNat + 0x1000) % 65536) s3
  let s5 := fset 0 Fl.SVC_FRAG_MPL_SEQ ((h.mplSeq.toNat + 128) % 256) s4
  let s6 := fset 0 Fl.ROUTE_RPL_INST_VERSION (seqNext h.rplVersion.toNat) s5
  fset 0 Fl.ROUTE_RPL_TRICKLE_DTSN (seqNext h.rplDtsn.toNat) s6

/-- R369 step 3: the gate opens and the unit is ACTIVE; the next checkpoint is full (R379) and EBs are due (R174). -/
def becomeActive (s : State) : State :=
  let s1 := fset 0 Fl.CLAIM_CTRL_TAKEOVER 0 (fset 0 Fl.CLAIM_CTRL_FRESH 0 (modClaim (fun c => { c with gate := true, nextFull := true }) s))
  let s2 := raise 194 s1.flash.boot.incarnation.toNat (moveClaim .active s1)
  if meshOn s2 then ebsDue s2 else s2

/-- R369: a rising unit that holds the bus and passed its probe takes over; the old run ends (R373). (DEDUCED, log 55) -/
def doTakeoverDone (s : State) : State :=
  if s.claim.st = .rising && s.claim.probed then
    let s1 := if fbit s 0 Fl.CLAIM_CTRL_FRESH then s
      else match s.claim.lastHeader with
        | some h => adjust h s
        | none => s
    endOldRun (becomeActive s1)
  else s

/-- Meaning of TAKEOVER_DONE. -/
def execTakeoverDone (s : State) : Host.Outcome State Fault Refusal := act doTakeoverDone s

/-! ### Self-diagnosis -/

/-- A bit of MGMT_ALERT is set (R431). -/
def setAlert (i : Nat) (s : State) : State := { s with mgmt := { s.mgmt with alert := setBitAt i s.mgmt.alert true } }

/-- R376: the unit enters self-diagnosis. -/
def enterDiag (cause detail : Nat) (s : State) : State :=
  if s.claim.st = .diag then s
  else
    let s1 := modClaim (fun c => { c with failoverOut := true }) (closeGate (moveClaim .diag s))
    let s2 := fset 0 Fl.CLAIM_DIAG_DETAIL detail (fset 0 Fl.CLAIM_DIAG_RESULT 0 (fset 0 Fl.CLAIM_DIAG_CAUSE cause s1))
    let s3 := { s2 with fabric := { s2.fabric with pilots := List.replicate 4 3 } }
    raise 196 cause (setAlert 1 s3)

/-- R376: the tests that follow finish. -/
def doSelfDiagDone (pass : Bool) (s : State) : State :=
  if s.claim.st = .diag && fget s 0 Fl.CLAIM_DIAG_RESULT = 0 then
    let r := if pass then 1 else 2
    raise 196 (fget s 0 Fl.CLAIM_DIAG_CAUSE + 256 * r) (fset 0 Fl.CLAIM_DIAG_RESULT r (setAlert 1 s))
  else s

/-- Meaning of SELF_DIAG_DONE. -/
def execSelfDiagDone (pass : Bool) (s : State) : Host.Outcome State Fault Refusal := act (doSelfDiagDone pass) s

/-- R377: FAILOVER_N falls, driven by another unit. (DEDUCED, log 56) -/
def doFailoverSeen (s : State) : State :=
  if s.claim.failoverOut then s else raise 197 0 (modClaim (fun c => { c with failoverIn := true }) s)

/-- Meaning of FAILOVER_SEEN. -/
def execFailoverSeen (s : State) : Host.Outcome State Fault Refusal := act doFailoverSeen s

/-! ### CLAIM_CTRL -/

/-- R371: an active unit yields. -/
def yield (s : State) : State :=
  if s.claim.st = .active then endOldRun (closeGate (moveClaim .standby s)) else s

/-- The CLAIM island takes a word of CLAIM_CTRL (R383); TAKEOVER 1 in DIAG or NONE is rejected. -/
def takeClaimCtrl (v : Word) (s : State) : State :=
  let out := s.claim.st = .diag ∨ s.claim.st = .none
  if bitAt 0 v ∧ out then reject Reg.CLAIM_STATUS s
  else
    let s1 := fset 0 Fl.CLAIM_CTRL_FRESH (bitsOf 1 1 v) (fset 0 Fl.CLAIM_CTRL_TAKEOVER (bitsOf 0 0 v) s)
    let s2 := if bitAt 4 v then modClaim (fun c => { c with nextFull := true }) s1 else s1
    let s3 := if bitAt 2 v then yield s2 else s2
    if bitAt 3 v then enterDiag 5 0 s3 else s3

/-- CLAIM_CTRL as it stands with one more bit set, written by the harbour master function. -/
def doClaimCtrl (bit : Nat) (s : State) : State :=
  let v := setBitAt bit (rd s Reg.CLAIM_CTRL) true
  rowWrite (hmFn s) Reg.CLAIM_CTRL v true (takeClaimCtrl v) s

/-- Meaning of YIELD. -/
def execYield (s : State) : Host.Outcome State Fault Refusal := act (doClaimCtrl 2) s

/-- Meaning of CLAIM_DIAG. -/
def execClaimDiag (s : State) : Host.Outcome State Fault Refusal := act (doClaimCtrl 3) s

/-- Meaning of CKPT_FULL. -/
def execCkptFull (s : State) : Host.Outcome State Fault Refusal := act (doClaimCtrl 4) s

/-! ### Checkpoint areas and writes -/

/-- The interval of an area in ns: INTERVAL_S, 0 meaning 60 s (R378). -/
def CkptArea.intervalNs (a : CkptArea) : Nat := (if a.intervalS = 0 then 60 else a.intervalS) * 1000000000

/-- The area as CKPT_AREA gives it (R271, R378). -/
def areaOf (f : Nat) (x : DescS) : CkptArea where
  fn := f
  ring := x.ring
  index := x.index
  tag := x.tag
  addr := x.bufAddr
  intervalS := x.num 20 2
  fullEach := (x.byte 22).testBit 0

/-- R378: CKPT_AREA opens an area; the previous one completes with OK. -/
def doCkptArea (f : Nat) (s : State) : State :=
  match readyDesc s f 2 (fun x => x.op = opCkptArea) with
  | none => s
  | some x =>
    let a := areaOf f x
    let s1 := closeArea { status := stOk } s
    modClaim (fun c => { c with area := some a, nextFull := true, dueMono := monoNs s + a.intervalNs }) (toEngine f x s1)

/-- Meaning of CKPT_AREA. -/
def execCkptArea (fn : Fn) (s : State) : Host.Outcome State Fault Refusal := engine (doCkptArea fn.val) s

/-- The header of the checkpoint that starts now (R378). -/
def headerNow (s : State) (full : Bool) : CkptHeader where
  full := full
  writing := true
  formatOk := true
  crcOk := true
  seq := s.claim.ckptSeq + 1
  prevSeq := if full then 0 else s.claim.ckptSeq
  srcEui := s.otp.eui
  incarnation := s.flash.boot.incarnation
  rplVersion := BitVec.ofNat 8 (fget s 0 Fl.ROUTE_RPL_INST_VERSION)
  rplDtsn := BitVec.ofNat 8 (fget s 0 Fl.ROUTE_RPL_TRICKLE_DTSN)
  name := s.time.name
  ns := nowNs s
  mid := BitVec.ofNat 16 (fget s 0 Fl.SVC_MID_NEXT_MID)
  frag := BitVec.ofNat 16 (fget s 0 Fl.SVC_FRAG_TAG)
  mplSeq := BitVec.ofNat 8 (fget s 0 Fl.SVC_FRAG_MPL_SEQ)
  dirMarked := if full then 262143 else s.claim.dirChanged.length
  nbrMarked := if full then 12288 else s.claim.nbrChanged.length

/-- A checkpoint write starts (R379): a class-2 job over its pieces. (DEDUCED, log 55) -/
def startCkpt (a : CkptArea) (s : State) : State :=
  let h := headerNow s (s.claim.nextFull || a.fullEach)
  let w : CkptWrite := ⟨h, if h.full then [] else s.claim.dirChanged.reverse, if h.full then [] else s.claim.nbrChanged.reverse⟩
  let s1 := modClaim (fun c => { c with
    writing := some w
    nextFull := false
    dirChanged := []
    nbrChanged := []
    ckptSeq := h.seq
    dueMono := c.dueMono + a.intervalNs }) s
  addJob ⟨a.fn, .ckptWrite, 2, a.addr, w.total, 0, true, [], false, false, none, false, 0⟩ s1

/-- R283: a checkpoint write that was aborted; the next one is full (R379). -/
def reapCkpt (s : State) : State :=
  let dead (j : Job) : Bool := (j.what = .ckptWrite ∨ j.what = .ckptBack) ∧ j.abort
  if s.landed.any dead then
    modClaim (fun c => { c with writing := none, nextFull := true }) { s with landed := s.landed.filter fun j => !dead j }
  else s

/-- R379: the interval expires, and a checkpoint starts; one that is still being written is waited for. -/
def doCheckpointDue (s : State) : State :=
  match s.claim.area with
  | some a =>
    let s1 := reapCkpt (elapseToMono s.claim.dueMono s)
    if s1.claim.st = .active && s1.claim.writing.isNone then startCkpt a s1 else s1
  | none => s

/-- Meaning of CHECKPOINT_DUE. -/
def execCheckpointDue (s : State) : Host.Outcome State Fault Refusal := engine doCheckpointDue s

/-- R378, R379: the read-back of the header's last octets completes, which confirms the checkpoint. -/
def doCkptWritten (s : State) : State :=
  match s.landed.find? (fun j => j.what = .ckptBack ∧ !j.abort), s.claim.writing, s.claim.area with
  | some _, some w, some a =>
    let h := w.header
    let s1 := { s with landed := s.landed.filter fun j => j.what ≠ .ckptBack }
    let s2 := modClaim (fun c => { c with writing := none }) (wr Reg.CLAIM_CKPT_OUT_SEQ h.seq (bump 0 Ct.CLAIM_CKPT_OUT s1))
    let d : Done := { status := stOk, result := h.seq.toNat
                      aux := (if h.full then 1 else 0) + h.dirMarked * 2 ^ 4 + h.nbrMarked * 2 ^ 24 }
    let s3 := raise 200 h.seq.toNat (produce a.fn 6 (d.entry a.tag opCkptArea true s2) s2)
    if s3.claim.st = .active && s3.claim.dueMono ≤ monoNs s3 then startCkpt a s3 else s3
  | _, _, _ => s

/-- Meaning of CKPT_WRITTEN. -/
def execCkptWritten (s : State) : Host.Outcome State Fault Refusal := engine doCkptWritten s

/-! ### Checkpoint loads -/

/-- CKPT_LOAD is refused (R380): event 202 with its RESULT, and the status of its row. (DEDUCED, log 55) -/
def loadRefused (f : Nat) (x : DescS) (status reason : Nat) (s : State) : State :=
  refuseLoad f x.ring x.index reason { status := status } s

/-- The class-2 read of a checkpoint image, or of its header alone (R277, R380). -/
def loadJob (f : Nat) (x : DescS) (total : Nat) : Job :=
  ⟨f, .ckptLoad x.ring x.index, 2, x.bufAddr, total, 0, false, [], false, false, none, false, 0⟩

/-- The header checks of R380 from the second row on: STATUS and RESULT of the first that fails. -/
def headerFault (s : State) (inc : Bool) (h : CkptHeader) : Option (Nat × Nat) :=
  if !h.formatOk || h.writing || !h.crcOk || (!h.full && !inc) then some (stBadDesc, 2)
  else if inc && (h.full || !s.claim.ckptLoaded || h.prevSeq ≠ rd s Reg.CLAIM_CKPT_IN_SEQ) then some (stRejected, 3)
  else if slotsOn s && 0 < slotDist s.time.name h.name then some (stRejected, 4)
  else none

/-- R380: CKPT_LOAD reads the header of its image and checks it, and the read of the rest begins; a fault of the header's read parks it
(R282). (DEDUCED, log 55) -/
def doCkptLoad (f : Nat) (r : CkptRead) (s : State) : State :=
  match readyDesc s f 2 (fun x => x.op = opCkptLoad) with
  | none => s
  | some x =>
    if s.claim.st ≠ .standby then loadRefused f x stRejected 1 s
    else if x.bufLen < ckptAreaLen then loadRefused f x stBadDesc 2 s
    else
      match r with
      | .fault timeout =>
        park f (loadJob f x 64) (if timeout then 4 else 3) false (modDesc f x.ring x.index (fun y => { y with phase := .gather }) s)
      | .poisoned => loadRefused f x stPoisoned 5 s
      | .ok image =>
        match headerFault s ((x.byte 20).testBit 0) image.header with
        | some e => loadRefused f x e.1 e.2 s
        | none =>
          if s.claim.loading.isSome then s
          else addJob (loadJob f x ckptAreaLen)
            (modClaim (fun c => { c with loading := some ⟨f, x.ring, x.index, x.tag, image⟩ }) (toEngine f x s))

/-- Meaning of CKPT_LOAD. -/
def execCkptLoad (fn : Fn) (r : CkptRead) (s : State) : Host.Outcome State Fault Refusal := engine (doCkptLoad fn.val r) s

/-- A directory entry leaves the tables and the index; its handle is free (R194). -/
def unloadDir (h : Handle) (s : State) : State :=
  match dirGet s h with
  | some d => modTab (fun t => { t with dirFreed := t.dirFreed ++ [h] }) (dirDel h (indexRemove h d.eui s))
  | none => s

/-- A neighbour entry leaves its table; its index is free (R187). -/
def unloadNbr (i : Nat) (s : State) : State :=
  match nbrGet s i with
  | some _ => modTab (fun t => { t with nbrFreed := t.nbrFreed.modify (i / 2048) (· ++ [i % 2048]) }) (nbrDel i s)
  | none => s

/-- A directory entry of the image is loaded, and inserted in the index under the unit's own seeds (R202, R206). -/
def loadDir (h : Handle) (d : DirEnt) (s : State) : State :=
  let r := dirInsert h d s
  match r.1 with
  | some _ => r.2
  | none => insertFailed 3 d.eui r.2

/-- A neighbour entry of the image is loaded; one of an absent berth is ignored, and ageing starts now. -/
def loadNbr (i : Nat) (x : Nbr) (s : State) : State :=
  if berthPresent s (i / 2048) then nbrPut i { x with heardMono := monoNs s } (takeNbr (i / 2048) (i % 2048) s) else s

/-- NBR of a directory entry names a home entry that stands (R192, R195). -/
def fixNbr (h : Handle) (s : State) : State :=
  dirMod h (fun d =>
    if d.nbrValid && !((nbrGet s d.nbr).any fun x => x.eui = d.eui && x.home) then { d with nbrValid := false, nbr := 0 } else d) s

/-- The entries of an image replace those of the tables: all of them, or the marked ones (R380). (DEDUCED, log 55) -/
def loadTables (im : CkptImage) (s : State) : State :=
  let full := im.header.full
  let s1 := (if full then s.tables.dir.keys else im.dirMarks).foldl (fun t h => unloadDir h t) s
  let s2 := (if full then s1.tables.nbrs.keys else im.nbrMarks).foldl (fun t i => unloadNbr i t) s1
  let s3 := (im.dir.filter fun p => full || im.dirMarks.contains p.1).foldl (fun t p => loadDir p.1 p.2 t) s2
  let s4 := (im.nbrs.filter fun p => full || im.nbrMarks.contains p.1).foldl (fun t p => loadNbr p.1 p.2 t) s3
  s4.tables.dir.keys.foldl (fun t h => fixNbr h t) s4

/-- The read that a load depends on. -/
def CkptLoad.reads (l : CkptLoad) (j : Job) : Bool := j.fn = l.fn && j.what = .ckptLoad l.ring l.index

/-- R380: the load finishes, where its read is not parked; poison that it brought refuses it. (DEDUCED, log 55) -/
def doCkptLoaded (s : State) : State :=
  match s.claim.loading with
  | some l =>
    if (parkedJobs s l.fn).any l.reads then s
    else
      let s0 := { s with
        jobs := s.jobs.filter fun j => !l.reads j
        stevs := s.stevs.map fun o => o.filter fun j => !l.reads j }
      if atWork s l.fn fun j => l.reads j && j.poisoned then
        refuseLoad l.fn l.ring l.index 5 { status := stPoisoned } s0
      else loadDone l s0
  | none => s
where
  /-- The image replaces the entries of the tables. -/
  loadDone (l : CkptLoad) (s : State) : State :=
    let s1 := rehomeAll (loadTables l.image s)
    let s2 := modClaim (fun c => { c with loading := none, ckptLoaded := true, lastHeader := some l.image.header }) s1
    let s3 := bump 0 Ct.CLAIM_CKPT_IN (wr Reg.CLAIM_CKPT_IN_SEQ l.image.header.seq s2)
    finishDesc l.fn l.ring l.index { status := stOk } (raise 201 l.image.header.seq.toNat s3)

/-- Meaning of CKPT_LOADED. -/
def execCkptLoaded (s : State) : Host.Outcome State Fault Refusal := engine doCkptLoaded s

end Sys2Proof.Machine
end

