-- ==== Sys2Proof/Machine/Restart.lean ====
section
/-!
DEFINITION. A reset that re-runs start-up (R400, R401, R416): what it keeps, and phase FUSES that follows.
-/

namespace Sys2Proof.Machine

/-- IDENT_DEVICE (R52). -/
def deviceWord (s : State) : Word := if s.otp.is2614 then 0x53012614 else 0x53012618

/-- The octets that an unfinished or failed profile fuse left in OTP, which no rule says (R416). (DEDUCED, log 23) -/
def brokenProfile (s : State) : List Byte := (List.range 480).map fun i => BitVec.ofNat 8 (Config.freeValue (s.draws + i)).toNat

/-- OTP after a reset: a fuse operation cut short leaves an unusable entry, and field repairs are in force (R359, R416). -/
def otpAfter (s : State) : Otp :=
  let o1 : Otp := if s.bcom.fusing then { s.otp with profile := some (brokenProfile s), profileBroken := true } else s.otp
  let o2 : Otp := if s.plinth.provisioning = some 2 then { o1 with imgKeys := o1.imgKeys ++ [(⟨0, 0, true⟩ : ImgKey)] } else o1
  let o3 := match s.hold.repairing with
    | some (b, r) => { o2 with repairs := o2.repairs ++ [(⟨b, r, true, false⟩ : Repair)] }
    | none => o2
  { o3 with repairs := o3.repairs.map fun x => { x with pending := false } }

/-- R400, R401: a reset that re-runs start-up begins. The plinth, OTP and flash keep their state, an outside level stays as it
is, and everything else takes its reset value; the SCUTTLE alert survives (R432). (DEDUCED, log 63) -/
def restart (cause : Nat) (power : Bool) (s : State) : State :=
  let r := State.reset
  { r with
    regs := s.regs.filter fun p => 0x7400 ≤ p.1 && p.1 < 0x7800
    otp := otpAfter s
    flash := s.flash
    plinth := { s.plinth with provisioning := none, scuttleMono := none }
    ports := s.ports.map fun p => ⟨false, p.perstHigh, [], []⟩
    claim := { r.claim with others := s.claim.others, bus := s.claim.others, failoverIn := s.claim.failoverIn }
    bcom := { r.bcom with gnt := s.bcom.gnt }
    berths := (List.range 6).map fun n => { BerthS.reset n with temp := (getBerth s n).temp }
    start := { r.start with
      straps := s.start.straps
      bankB33 := s.start.bankB33
      tap := s.start.tap
      porLow := s.start.porLow
      brownOut := s.start.brownOut
      cause := cause
      resets := if power then 0 else min 65535 (s.start.resets + 1) }
    mgmt := { r.mgmt with id := deviceWord s, alert := s.mgmt.alert &&& 4, state := if s.plinth.root.isNone then 0x600 else 0x200 }
    outs := s.outs
    draws := s.draws + 480
    pending := s.pending }

/-- TAP instructions that hold the device in reset (R417). -/
def TapInstr.holds : TapInstr → Bool
  | .extest | .extestPulse | .extestTrain | .clamp | .highz => true
  | .bypass | .idcode | .samplePreload => false

/-- Whether the device is held in reset: by POR_N, a brown-out or the TAP (R400, R403, R417). -/
def heldNow (x : StartS) : Bool := x.porLow || x.brownOut || x.tap.holds

/-- A cause of holding the device in reset comes or goes. -/
def holdBy (g : StartS → StartS) (s : State) : State :=
  let x := g s.start
  { s with start := { x with held := heldNow x } }

end Sys2Proof.Machine
end

