-- ==== Sys2Proof/Machine/Plinth.lean ====
section
/-!
DEFINITION. The plinth: tamper sources, scuttle, VBAT, provisioning and attestation statements (R329 to R336).
-/

namespace Sys2Proof.Machine

/-- The plinth changed by `g`. -/
def modPlinth (g : PlinthS → PlinthS) (s : State) : State := { s with plinth := g s.plinth }

/-- PLINTH_SECONDS: whole seconds since VBAT was applied, saturating (R338). -/
def plinthSeconds (s : State) : Nat := min 0xFFFFFFFF (s.plinth.ticks / 40000000)

/-! ### Tamper and scuttle -/

/-- What the scuttle line does in one step (R331): every key is zeroed and the record made. -/
def scuttleLine (cause : Nat) (s : State) : State :=
  let n := fget s 0 Fl.PLINTH_SCUTTLE_INFO_COUNT
  let s1 := modPlinth (fun p => { p with root := none }) { s with keys := { KeysS.reset with staging := s.keys.staging, entropyFail := s.keys.entropyFail } }
  let s2 := fset 0 Fl.PLINTH_SCUTTLE_INFO_COUNT (min 255 (n + 1)) (fset 0 Fl.PLINTH_SCUTTLE_INFO_CAUSE cause s1)
  fset 0 Fl.PLINTH_TAMPER_CFG_LOCK 0 (wr Reg.PLINTH_SCUTTLE_AT (BitVec.ofNat 32 (plinthSeconds s)) s2)

/-- A secured frame on air, which the crypto pool was ciphering (R331). (DEDUCED, log 50) -/
def cipheredAir (s : State) (n : Nat) : Bool := (airing s n).any fun t => t.frame.sec.isSome

/-- R331: a scuttle of a running device. (DEDUCED, log 50) -/
def scuttle (cause : Nat) (s : State) : State :=
  let s1 := scuttleLine cause s
  let s2 := forBelow 6 (fun n t => if cipheredAir t n then abortAir n .underrun t else t) s1
  let s3 := enterDiag 4 0 (raise 155 cause (setAlert 2 s2))
  modPlinth (fun p => { p with scuttleMono := some (p.scuttleMono.getD (monoNs s + 10000000)) }) s3

/-- ACTION of a tamper source (R330). -/
def tamperAction (s : State) (src : Nat) : Nat := bitsOf (2 * src + 1) (2 * src) (rd s Reg.PLINTH_TAMPER_CFG)

/-- A mesh's LFSR, x^15 + x^14 + 1, after one sample; bit 14 is the bit that it drives (R330). (DEDUCED, log 50) -/
def lfsrNext (x : BitVec 15) : BitVec 15 := BitVec.ofNat 15 (2 * x.toNat) ||| BitVec.ofNat 15 ((x.getLsbD 14 != x.getLsbD 13).toNat)

/-- The tamper source has shown its condition for this many samples, each of which advanced the meshes, and for none when the condition is
gone (R330). (DEDUCED, log 50) -/
def tamperSeen (src samples : Nat) (s : State) : Bool × State :=
  let s1 := wr Reg.PLINTH_TAMPER_NOW (setBitAt src (rd s Reg.PLINTH_TAMPER_NOW) (samples ≠ 0))
    (modPlinth (fun p => { p with lfsr := p.lfsr.map (Nat.repeat lfsrNext samples) }) s)
  if samples < fget s 0 Fl.PLINTH_TAMPER_CFG_FILTER || samples = 0 then (false, s1)
  else (true, fset 0 Fl.PLINTH_TAMPER_SEEN_SRC (fget s 0 Fl.PLINTH_TAMPER_SEEN_SRC ||| 2 ^ src) s1)

/-- R330: a tamper trip of a running device. (DEDUCED, log 50) -/
def doTamperTrip (src samples : Nat) (s : State) : State :=
  let r := tamperSeen src samples s
  let a := tamperAction s src
  if !s.plinth.vbat then s
  else if !r.1 || a = 0 then r.2
  else
    let s1 := raise 154 (src + 256 * a) r.2
    if a = 2 then scuttle (src + 1) s1 else s1

/-- R330: a tamper trip while the device is held in reset: the record and the scuttle only. -/
def heldTamperTrip (src samples : Nat) (s : State) : State :=
  let r := tamperSeen src samples s
  if !s.plinth.vbat then s
  else if r.1 && tamperAction s src = 2 then scuttleLine (src + 1) r.2
  else r.2

/-- Meaning of TAMPER_TRIP. -/
def execTamperTrip (src : Fin 4) (samples : Nat) (s : State) : Host.Outcome State Fault Refusal :=
  .next (settle (if s.start.held then heldTamperTrip src.val samples s else doTamperTrip src.val samples s))

/-- R331: who may scuttle, and with what word. -/
def scuttleOk (s : State) (f : Nat) (v : Word) : Bool := !bitAt 31 v || (f = hmFn s && bitsOf 15 0 v = 0xA5C7)

/-- The plinth takes a word of PLINTH_SCUTTLE (R331). -/
def takeScuttle (v : Word) (s : State) : State := if bitAt 31 v then scuttle 5 (fset 0 Fl.PLINTH_TAMPER_SEEN_HOST 1 s) else s

/-- Meaning of HOST_SCUTTLE. -/
def execHostScuttle (f : Fn) (v : Word) (s : State) : Host.Outcome State Fault Refusal :=
  act (rowWrite f.val Reg.PLINTH_SCUTTLE v (scuttleOk s f.val v) (takeScuttle v)) s

/-- R331: 10 ms after the decision the device resets. -/
def doScuttleReset (s : State) : State :=
  match s.plinth.scuttleMono with
  | some t => restart 3 false (elapseToMono t s)
  | none => s

/-- Meaning of SCUTTLE_RESET. -/
def execScuttleReset (s : State) : Host.Outcome State Fault Refusal := act doScuttleReset s

/-- The plinth takes a word of PLINTH_TAMPER_CFG (R330): read-only while LOCK is 1. -/
def takeTamperCfg (v : Word) (s : State) : State :=
  if fbit s 0 Fl.PLINTH_TAMPER_CFG_LOCK then s
  else fset 0 Fl.PLINTH_TAMPER_CFG_LOCK (bitsOf 31 31 v) (storeKey Reg.PLINTH_TAMPER_CFG v s)

/-- Meaning of TAMPER_LOCK. -/
def execTamperLock (f : Fn) (v : Word) (s : State) : Host.Outcome State Fault Refusal :=
  let w := v ||| 0x80000000
  act (rowWrite f.val Reg.PLINTH_TAMPER_CFG w true (takeTamperCfg w)) s

/-! ### VBAT -/

/-- The registers of the plinth are at their reset values. -/
def plinthRegsReset (s : State) : State := { s with regs := s.regs.filter fun p => !(0x7400 ≤ p.1 && p.1 < 0x7800) }

/-- R332: the plinth powers up without a root; an image-key entry in OTP tells a loss of VBAT from an unprovisioned part. -/
def vbatApplied (s : State) : State :=
  if s.plinth.vbat then s
  else
    let s1 := plinthRegsReset (modPlinth (fun p => { p with vbat := true, root := none, ticks := 0, imgStaging := List.replicate 8 none }) s)
    fset 0 Fl.PLINTH_SCUTTLE_INFO_CAUSE (if s.otp.imgKeys.isEmpty then 7 else 6) s1

/-- Meaning of VBAT_APPLIED. -/
def execVbatApplied (s : State) : Host.Outcome State Fault Refusal := .next (settle (vbatApplied s))

/-- R332: VBAT is removed: the root, the tamper configuration and the seconds count are lost, and with them an operation or a
scuttle record of the plinth. (DEDUCED, log 50) -/
def vbatLost (s : State) : State :=
  plinthRegsReset (modPlinth (fun p => { p with
    vbat := false
    root := none
    ticks := 0
    imgStaging := List.replicate 8 none
    provisioning := none }) s)

/-- Meaning of VBAT_LOSS. -/
def execVbatLoss (s : State) : Host.Outcome State Fault Refusal := .next (settle (vbatLost s))

/-! ### Provisioning -/

/-- The result of a provisioning operation (R333): shown, and event 156 raised. (DEDUCED, log 50) -/
def provResult (op result : Nat) (s : State) : State :=
  raise 156 (op + 256 * result) (fset 0 Fl.PLINTH_PROV_STATUS_OP op (fset 0 Fl.PLINTH_PROV_STATUS_RESULT result s))

/-- The staged 256-bit image key, all of it written by one function since the last operation (R333). -/
def stagedImgKey (s : State) (f : Nat) : Option (BitVec 256) :=
  if s.plinth.imgStaging.all fun x => x.any fun p => p.2 = f then
    some (BitVec.ofNat 256 ((s.plinth.imgStaging.filterMap fun x => x.map Prod.fst).foldl (fun n w => n * 2 ^ 32 + w.toNat) 0))
  else none

/-- R333: the operation is accepted. -/
def provAccepted (s : State) (f op : Nat) : Bool :=
  drbgOn s && (if op = 1 then s.plinth.root.isNone
    else s.plinth.root.isSome && (stagedImgKey s f).isSome && s.otp.imgKeys.length < 4)

/-- Who may provision, and which operations there are (R333). -/
def provOk (s : State) (f : Nat) (v : Word) : Bool := !bitAt 31 v || (f = hmFn s && (bitsOf 2 0 v = 1 ∨ bitsOf 2 0 v = 2))

/-- The plinth takes a word of PLINTH_PROV_CTRL (R333). -/
def takeProv (f : Nat) (v : Word) (s : State) : State :=
  let op := bitsOf 2 0 v
  let s1 := storeKey Reg.PLINTH_PROV_CTRL v s
  if !bitAt 31 v then s1
  else if provAccepted s f op then
    modPlinth (fun p => { p with provisioning := some op })
      (fset 0 Fl.PLINTH_PROV_STATUS_OP op (fset 0 Fl.PLINTH_PROV_STATUS_RESULT 0 s1))
  else provResult op 2 s1

/-- A write of PLINTH_PROV_CTRL with GO. -/
def doProv (f op : Nat) (s : State) : State :=
  let v : Word := BitVec.ofNat 32 (2 ^ 31 + op)
  rowWrite f Reg.PLINTH_PROV_CTRL v (provOk s f v) (takeProv f v) s

/-- Meaning of GENERATE. -/
def execGenerate (f : Fn) (s : State) : Host.Outcome State Fault Refusal := act (doProv f.val 1) s

/-- Meaning of FUSE_IMGKEY. -/
def execFuseImgkey (f : Fn) (s : State) : Host.Outcome State Fault Refusal := act (doProv f.val 2) s

/-- R333, R334: GENERATE ends: the root, the LFSR seeds and the identity key stand, and the scuttled state is over.
(DEDUCED, log 50) -/
def generated (s : State) : State :=
  let root := Config.draw256 s.draws
  let seeds := drawn s
  let s1 := modPlinth (fun p => { p with root := some root, lfsr := [seeds.truncate 15, (seeds >>> 15).truncate 15] }) s
  let s2 := { s1 with
    flash := { s1.flash with identity := some ⟨Config.modulus s.draws, root⟩ }
    fw := { s1.fw with idValid := true } }
  advanceDraws (fset 0 Fl.PLINTH_SCUTTLE_INFO_CAUSE 0 (wr Reg.PLINTH_TAMPER_CFG (regReset (hmFn s) Reg.PLINTH_TAMPER_CFG) s2))

/-- R333: FUSE_IMGKEY ends; a failed fuse leaves an entry that never unwraps. (DEDUCED, log 50) -/
def imgKeyFused (ok : Bool) (s : State) : State :=
  let key := (stagedImgKey s (hmFn s)).getD 0
  { s with otp := { s.otp with imgKeys := s.otp.imgKeys ++ [⟨key, s.plinth.root.getD 0, !ok⟩] } }

/-- R333: the operation that runs ends; every operation ends what was staged. -/
def doProvisioned (ok : Bool) (s : State) : State :=
  match s.plinth.provisioning with
  | none => s
  | some op =>
    let s1 := if op = 2 then imgKeyFused ok s else if ok then generated s else s
    provResult op (if ok then 1 else 3) (modPlinth (fun p => { p with provisioning := none, imgStaging := List.replicate 8 none }) s1)

/-- Meaning of PROVISIONED. -/
def execProvisioned (ok : Bool) (s : State) : Host.Outcome State Fault Refusal := act (doProvisioned ok) s

/-! ### Attestation -/

/-- ID_VALID: a copy of the blob verified, and the root still stands (R332, R334). -/
def idUsable (s : State) : Bool := s.fw.idValid && s.plinth.root.isSome

/-- The octets of the identity's modulus, most significant first (R334). -/
def modulusOctets (s : State) : List Byte := beBytes 384 ((s.flash.identity.map fun i => i.modulus.toNat).getD 0)

/-- KEY_ID (R334): SHA-256 over N and E. -/
def keyId (s : State) : BitVec 256 := if idUsable s then Config.sha256 (modulusOctets s ++ beBytes 4 65537) else 0

/-- IDENT_FW (R52): MODE, SCUTTLED, MINOR, MAJOR and MAQ. -/
def identFw (s : State) : Nat :=
  s.fw.mode + (if s.plinth.root.isNone then 8 else 0) + s.fw.minor.toNat * 2 ^ 8 + s.fw.major.toNat * 2 ^ 16 + s.otp.maquette.toNat * 2 ^ 24

/-- Bytes 0 to 223 of a statement (R336). (DEDUCED, log 51) -/
def statement (s : State) (x : DescS) : List Byte :=
  let b (c : Bool) (k : Nat) : Nat := if c then 2 ^ k else 0
  let signed := idUsable s
  let prof := (s.otp.profile.map fun bs => numAt bs 2 2).getD 0
  [0x01, BitVec.ofNat 8 (b signed 0 + b s.plinth.root.isNone 1 + b signed 2)] ++ leBytes 2 (if signed then 608 else 224) ++
  leBytes 8 s.otp.eui.toNat ++ leBytes 4 (deviceWord s).toNat ++ leBytes 4 (identFw s) ++
  [s.flash.boot.incarnation.zeroExtend 8,
   BitVec.ofNat 8 (b s.otp.profile.isSome 0 + b (fbit s 0 Fl.PLINTH_TAMPER_CFG_LOCK) 1 + s.otp.imgKeys.length * 4)] ++
  leBytes 2 prof ++
  [BitVec.ofNat 8 (fget s 0 Fl.PLINTH_SCUTTLE_INFO_CAUSE), BitVec.ofNat 8 (fget s 0 Fl.PLINTH_SCUTTLE_INFO_COUNT)] ++
  leBytes 2 ((rd s Reg.PLINTH_TAMPER_SEEN).toNat % 32) ++ leBytes 4 (plinthSeconds s) ++ (x.bytes.drop 20).take 32 ++
  (([Config.romMeasure] ++ s.fw.meas ++ [keyId s]).flatMap fun h => beBytes 32 h.toNat)

/-- The ATTEST_REQ that is served next: the oldest that still stands (R336). (DEDUCED, log 51) -/
def nextAttest (s : State) : Option (Nat × DescS) :=
  s.fw.attests.findSome? fun p => (readyDesc s p.1 2 fun x => x.op = opAttest && x.index = p.2).map fun x => (p.1, x)

/-- An ATTEST_REQ leaves the queue, and those before it, which no longer stand. -/
def popAttest (f i : Nat) (s : State) : State :=
  { s with fw := { s.fw with attests := (s.fw.attests.dropWhile (· ≠ (f, i))).drop 1 } }

/-- R28, R336: the ATTEST_REQ that is next is served, where it is the function's; one whose engine is fenced completes with FAULT, and
the DRBG is waited for (R328). (DEDUCED, log 51) -/
def doAttestReq (f : Nat) (s : State) : State :=
  match (nextAttest s).filter fun p => p.1 = f with
  | none => s
  | some (_, x) =>
    let t := popAttest f x.index s
    if x.bufLen < 608 then finishDesc f x.ring x.index { status := stBadDesc } t
    else if unitFenced s 28 || unitFenced s 29 then
      advanceDraws (finishDesc f x.ring x.index { status := stFault, aux := (Config.freeValue s.draws).toNat % 2 ^ 38 } t)
    else if !drbgOn s || unitOut s 28 || unitOut s 29 then s
    else
      let body := statement s x
      let signed := idUsable s
      let sig := match s.flash.identity with
        | some i => if signed then fitOctets 384 (Config.rsaPssSign i.modulus s.draws body) else []
        | none => []
      let d : Done := { status := stOk, result := if signed then 608 else 224, aux := if signed then 1 else 0 }
      respond f x.ring x.index x.bufAddr (body ++ sig) false d (advanceDraws (bump 0 Ct.KEY_ATTEST t))

/-- Meaning of ATTEST_REQ. -/
def execAttestReq (f : Fn) (s : State) : Host.Outcome State Fault Refusal := engine (doAttestReq f.val) s

end Sys2Proof.Machine
end

