-- ==== Sys2Proof/Machine/Fabric.lean ====
section
/-!
DEFINITION. The fabric: link faults, fences and unfences, the pilot watchdog, the token rate and the voltage request (R20, R21,
R27 to R32).
-/

namespace Sys2Proof.Machine

/-- The fabric changed by `g`. -/
def modFabric (g : FabricS → FabricS) (s : State) : State := { s with fabric := g s.fabric }

/-! ### Fences -/

/-- Unfenced units among [lo, lo + n), were unit `u` fenced. -/
def leftOf (s : State) (u lo n : Nat) : Nat := ((List.range n).filter fun k => lo + k ≠ u && !unitFenced s (lo + k)).length

/-- R30: fencing unit `u` would fence a second pilot core, or leave fewer than four stevedores, AES engines or decoders. -/
def breaksFloor (s : State) (u : Nat) : Bool :=
  if u < 4 then (List.range 4).any fun k => k ≠ u && unitFenced s k
  else if u < 12 then leftOf s u 4 8 < 4
  else if u < 20 then leftOf s u 12 8 < 4
  else if u < 28 then leftOf s u 20 8 < 4
  else false

/-- Bytes that a job has moved of its sling when a fence cuts it, less than the whole (R28, R277); writes made in one piece have moved
none. (DESIGN CHOICE, log 77) -/
def cutAt (s : State) (j : Job) : Nat :=
  match j.what with
  | .entry _ _ | .status | .deliver none => 0
  | _ => (Config.freeValue s.draws).toNat % max 1 (slingLen j)

/-- Octets of a read that came before a fence: the host's, of which the model knows nothing. (DESIGN CHOICE, log 77) -/
def cutOctets (s : State) (n : Nat) : List Byte :=
  (List.range n).map fun i => BitVec.ofNat 8 (Config.freeValue (s.draws + 1 + i)).toNat

/-- R28: a stevedore's job resumes on another one from the last byte acknowledged, inside its sling (R277). -/
def returnJob (k : Nat) (s : State) : State :=
  match s.stevs.getD k none with
  | some j =>
    let n := cutAt s j
    let s1 := if j.write then sendWrite j.fn (jobAt s j) ((jobData s j).take n) j.poisoned s else s
    slingOver j.fn (addJob { j with moved := j.moved + n, octets := j.gains (cutOctets s n) }
      { s1 with stevs := s1.stevs.set k none, draws := s1.draws + 1 + n })
  | none => s

/-- R28: what the AES engine worked on restarts on another one, and what it feeds on air aborts. -/
def returnAes (k : Nat) (s : State) : State :=
  let other := (aesUnits s).headD k
  let move (t : Tx) : Tx := if t.aes = k then { t with aes := other } else t
  let s1 := fenceAir k s
  { s1 with berths := s1.berths.map fun b => { b with requests := b.requests.map move } }

/-- R28, R29: unit `u` is fenced. -/
def fence (u : Nat) (s : State) : State :=
  let s1 := raise 177 u (wr Reg.FABRIC_FENCED (setBitAt u (rd s Reg.FABRIC_FENCED) true) s)
  if u < 4 then raise 184 0 (modFabric (fun f => { f with pilots := f.pilots.set u 2 }) s1)
  else if u < 12 then returnJob (u - 4) s1
  else if u < 20 then returnAes (u - 12) s1
  else if u < 28 then requeueDecoder (u - 20) s1
  else s1

/-- R30: unit `u` is fenced unless a floor forbids it; then self-diagnosis follows. -/
def fenceOrDiag (u : Nat) (s : State) : State :=
  if unitFenced s u then s
  else if breaksFloor s u then enterDiag 3 u (raise 187 0 s)
  else fence u s

/-- R27, R28, R30: a link fault. -/
def linkFault (l : Link) (s : State) : State :=
  match l with
  | .unit u => fenceOrDiag u.val (raise 176 0 (wr Reg.FABRIC_LINK_FAULT (setBitAt u.val (rd s Reg.FABRIC_LINK_FAULT) true) s))
  | .core b =>
    let s1 := raise 186 0 (wr Reg.FABRIC_CORE_FAULT (setBitAt b.val (rd s Reg.FABRIC_CORE_FAULT) true) s)
    enterDiag 2 (bitsOf 15 0 (rd s1 Reg.FABRIC_CORE_FAULT)) s1

/-- R27: a token is replayed; event 179 when the last second comes to hold more than 64 replays. (DESIGN CHOICE, log 64) -/
def replay (s : State) : State :=
  let recent := s.fabric.replays.filter fun t => monoNs s < t + 1000000000
  let s1 := bump 0 Ct.FABRIC_REPLAY (modFabric (fun f => { f with replays := monoNs s :: recent }) s)
  if recent.length = 64 then raise 179 0 s1 else s1

/-- Consecutive refusals of the token in a link's holding latch (R27). -/
def refusals (s : State) (l : Link) : Nat := ((s.fabric.refused.find? fun p => p.1 = l).map Prod.snd).getD 0

/-- The refusals of a link's token, set. -/
def setRefusals (l : Link) (n : Nat) (s : State) : State :=
  modFabric (fun f => { f with refused := (if n = 0 then [] else [(l, n)]) ++ f.refused.filter fun p => p.1 ≠ l }) s

/-- R27: a token is refused: the replay of the one that the link refused last, where `again`. The third consecutive refusal of
a token is a link fault, and each one before it is replayed. -/
def doParityFailure (l : Link) (again : Bool) (s : State) : State :=
  let run := if again then refusals s l + 1 else 1
  if run < 3 then replay (setRefusals l run s) else linkFault l (setRefusals l 0 s)

/-- Meaning of LINK_PARITY_FAILURE. -/
def execLinkParityFailure (l : Link) (again : Bool) (s : State) : Host.Outcome State Fault Refusal :=
  act (doParityFailure l again) s

/-- R18, R29: a running pilot core that last returned to the scheduler at `back`, MONO in ns, has not done so again within
10 ms. -/
def doPilotWatchdog (core back : Nat) (s : State) : State :=
  if s.fabric.pilots.getD core 0 = 1 ∧ back ≤ monoNs s then
    fenceOrDiag core (raise 185 0 (fireTimer (back + 10000000) s))
  else s

/-- Meaning of PILOT_WATCHDOG. -/
def execPilotWatchdog (core : Fin 4) (back : Nat) (s : State) : Host.Outcome State Fault Refusal :=
  act (doPilotWatchdog core.val back) s

/-! ### Unfence -/

/-- R31: an unfence request takes effect or is refused. (DESIGN CHOICE, log 64) -/
def takeUnfence (f : Nat) (v : Word) (s : State) : State :=
  let u := bitsOf 4 0 v
  if !bitAt 31 v then s
  else if f ≠ hmFn s ∨ u < 4 ∨ u = 31 ∨ s.fabric.unfencing.isSome then fset 0 Fl.FABRIC_STATUS_REFUSED 1 s
  else
    fset 0 Fl.FABRIC_STATUS_UNIT u (fset 0 Fl.FABRIC_STATUS_PASS 0 (modFabric (fun x => { x with unfencing := some u }) s))

/-- Meaning of FABRIC_UNFENCE. -/
def execFabricUnfence (f : Fn) (v : Word) (s : State) : Host.Outcome State Fault Refusal :=
  act (rowWrite f.val Reg.FABRIC_UNFENCE v true (takeUnfence f.val v)) s

/-- R31: the unfence test finishes. -/
def doUnfenceDone (pass : Bool) (s : State) : State :=
  match s.fabric.unfencing with
  | some u =>
    let s1 := modFabric (fun x => { x with unfencing := none }) (fset 0 Fl.FABRIC_STATUS_PASS (if pass then 1 else 0) s)
    raise 178 0 (if pass then wr Reg.FABRIC_FENCED (setBitAt u (rd s1 Reg.FABRIC_FENCED) false) s1 else s1)
  | none => s

/-- Meaning of FABRIC_UNFENCE_DONE. -/
def execFabricUnfenceDone (pass : Bool) (s : State) : Host.Outcome State Fault Refusal := act (doUnfenceDone pass) s

/-! ### Rate and voltage -/

/-- R21: VREQ_MV changes: event 181 and the alert. -/
def setVreq (mv : Nat) (s : State) : State :=
  if fget s 0 Fl.FABRIC_VREQ_VREQ_MV = mv then s else setAlert 0 (raise 181 0 (fset 0 Fl.FABRIC_VREQ_VREQ_MV mv s))

/-- TARGET_MTPS, at least 400 (R32). -/
def targetRate (s : State) : Nat := max 400 (fget s 0 Fl.FABRIC_VPOLICY_TARGET_MTPS)

/-- CEIL_MV; a value outside 720 to 900 acts as 900 (R32). -/
def ceilMv (s : State) : Nat :=
  let c := fget s 0 Fl.FABRIC_VPOLICY_CEIL_MV
  if 720 ≤ c ∧ c ≤ 900 then c else 900

/-- R21: one window of the voltage policy. (DESIGN CHOICE, log 64) -/
def voltagePolicy (rate : Nat) (s : State) : State :=
  let mv := fget s 0 Fl.FABRIC_VREQ_VREQ_MV
  if !fbit s 0 Fl.FABRIC_VPOLICY_ENABLE then modFabric (fun f => { f with lowRun := 0, highRun := 0 }) s
  else
    let low := if rate < targetRate s then s.fabric.lowRun + 1 else 0
    let high := if targetRate s + 80 < rate then s.fabric.highRun + 1 else 0
    let s1 := modFabric (fun f => { f with lowRun := low % 100, highRun := high % 10000 }) s
    if low = 100 ∧ mv + 10 ≤ ceilMv s then setVreq (mv + 10) s1
    else if high = 10000 ∧ 730 ≤ mv then setVreq (mv - 10) s1
    else s1

/-- R20, R21: a 1 ms window of the replica rings ends. (DESIGN CHOICE, log 64) -/
def doRateWindow (rate : Nat) (s : State) : State :=
  let warn := fget s 0 Fl.FABRIC_RATE_WARN_THRESHOLD
  let s1 := fset 0 Fl.FABRIC_RATE_LOW_WATER (min rate (fget s 0 Fl.FABRIC_RATE_LOW_WATER)) (fset 0 Fl.FABRIC_RATE_RATE rate s)
  let s2 :=
    if rate < warn ∧ !s.fabric.lowLatched then raise 180 0 (modFabric (fun f => { f with lowLatched := true }) s1)
    else if warn < rate then modFabric (fun f => { f with lowLatched := false }) s1
    else s1
  voltagePolicy rate s2

/-- Meaning of FABRIC_RATE_WINDOW. -/
def execFabricRateWindow (rate : BitVec 16) (s : State) : Host.Outcome State Fault Refusal := act (doRateWindow rate.toNat) s

/-- FABRIC_VPOLICY is written; with ENABLE 0, VREQ_MV holds 750 (R21). -/
def takeVpolicy (v : Word) (s : State) : State :=
  let s1 := storeKey Reg.FABRIC_VPOLICY v s
  if bitAt 0 v then s1 else setVreq 750 s1

/-- FABRIC_CTRL is written (R32). -/
def takeFabricCtrl (v : Word) (s : State) : State :=
  if bitAt 16 v && bitAt 0 v then fset 0 Fl.FABRIC_RATE_LOW_WATER 0xFFFF s else s

/-- Meaning of CLR_LOW_WATER. -/
def execClrLowWater (f : Fn) (v : Word) (s : State) : Host.Outcome State Fault Refusal :=
  act (rowWrite f.val Reg.FABRIC_CTRL v true (takeFabricCtrl v)) s

end Sys2Proof.Machine
end

