-- ==== Sys2Proof/Machine/HoldCmd.lean ====
section
/-!
DEFINITION. Bus faults, the queues of R353 with their resets and flushes, the CE log's clearing and field repair (R345, R349,
R353 to R361).
-/

namespace Sys2Proof.Machine

/-- R349: a running pilot core meets an uncorrectable fetch or load. -/
def doPilotBusFault (core : Nat) (fetch : Bool) (cls : UeClass) (loc : BitVec 26) (s : State) : State :=
  if s.fabric.pilots.getD core 0 = 1 then
    enterDiag 1 core (raise 168 core (metUe (if fetch then .fetch else .load) cls loc s))
  else s

/-- Meaning of PILOT_BUS_FAULT. -/
def execPilotBusFault (core : Fin 4) (fetch : Bool) (cls : UeClass) (loc : BitVec 26) (s : State) : Host.Outcome State Fault Refusal :=
  act (doPilotBusFault core.val fetch cls loc) s

/-! ### Queues -/

/-- What a discard takes of a queue: its first item, or all (R355, R357). -/
def taken {α : Type} (one : Bool) (l : List α) : List α := if one then l.take 1 else l
/-- What a discard leaves of a queue. -/
def left {α : Type} (one : Bool) (l : List α) : List α := if one then l.drop 1 else []

/-- Queued frames of MAC class `c` that are not with a berth (R181, R353). -/
def classFrames (s : State) (c : Nat) : List TxFrame := s.mac.queue.filter fun q => q.cls.code = c && !inFlight s q.id

/-- Descriptors of a function in a phase, oldest of each ring first. -/
def descsIn (s : State) (f : Nat) (p : DescPhase) : List DescS :=
  (getFn s f).rings.flatMap fun r => r.descs.filter fun x => x.phase = p

/-- TABLE_OP descriptors that wait for the table engine (R353). -/
def tableOps (s : State) : List (Nat × DescS) :=
  (List.range 8).flatMap fun f => ((descsIn s f .ready).filter fun x => x.op = opTable).map fun x => (f, x)

/-- The campaign of a slot 0 to 15: the slots are the places in the engine's list. -/
def campSlot (s : State) (i : Nat) : Option Nat := s.camp.camps[i]?.map Camp.id

/-- Descriptors and deliveries of a function that are lost (R353). -/
def loseDescs (f : Nat) (l : List DescS) (s : State) : State :=
  if l.isEmpty then s else fetchAll f (loseItems f l.length (l.foldl (fun t x => dropDesc f x.ring x.index t) s))

/-- Items of a function that are lost, with what leaves its lists. -/
def loseOf (f n : Nat) (g : FnS → FnS) (s : State) : State := if n = 0 then s else loseItems f n (modFn f g s)

/-- Items of the queues of R353 below 32, discarded with the effect of their row. -/
def discardLow (one : Bool) (q : Nat) (s : State) : State :=
  if q < 6 then
    let mine := s.mac.records.filter fun r => r.berth = q
    let gone := taken one mine
    modMac (fun m => { m with records := m.records.filter fun r => !gone.contains r }) s
  else if q < 12 then abortAir (q - 6) .underrun s
  else if q < 14 then
    let gone := taken one (s.dec.queue.filter fun c => c.ackDue = (q = 12 : Bool))
    { s with dec := { s.dec with queue := s.dec.queue.filter fun c => !gone.contains c } }
  else if q < 19 then (taken one (classFrames s (q - 14))).foldl (fun t x => returnFrame x t) s
  else if q = 20 then modSvc (fun x => { x with upq := left one x.upq }) s
  else if q < 29 ∧ 21 ≤ q then returnAes (q - 21) s
  else if q = 29 then
    (taken one (tableOps s)).foldl (fun t p => finishDesc p.1 p.2.ring p.2.index { status := stAborted } t) s
  else if q = 30 then modTab (fun t => { t with arb := left one t.arb }) s
  else s

/-- Items of the other queues of R353, discarded with the effect of their row. -/
def discardHigh (one : Bool) (q : Nat) (s : State) : State :=
  if q < 64 then
    let f := (q - 32) / 4
    let x := getFn s f
    if q % 4 = 0 then loseDescs f (taken one (descsIn s f .waiting)) s
    else if q % 4 = 1 then loseDescs f (taken one (descsIn s f .ready)) s
    else if q % 4 = 2 then loseOf f (taken one x.out).length (fun y => { y with out := left one y.out }) s
    else loseOf f (taken one x.ups).length (fun y => { y with ups := left one y.ups }) s
  else if q < 72 then
    let f := q - 64
    let n := (taken one (getFn s f).held).length
    if n = 0 then s else loseEntries f n (modFn f (fun y => { y with held := left one y.held }) s)
  else if q < 76 then s
  else if q < 79 then
    { s with jobs := s.jobs.map fun j => if j.cls = q - 76 then { j with moved := 0, octets := if j.write then j.octets else [] } else j }
  else if q = 79 then
    forBelow 8 (fun f t =>
      let gone := taken one (getFn t f).evq
      gone.foldl (fun u o => if c3On u f then loseEvent f o u else u) (modFn f (fun y => { y with evq := left one y.evq }) t)) s
  else
    match campSlot s (q - 80) with
    | some id => withdrawCamp id s
    | none => s

/-- The items of queue `q` are discarded, all or the first only, with the effect of the queue's row (R353). -/
def discardQueue (one : Bool) (q : Nat) (s : State) : State := if q < 32 then discardLow one q s else discardHigh one q s

/-- R355: a queue is reset. (DEDUCED, log 52) -/
def resetQueue (q : Nat) (s : State) : State :=
  if q < 96 then raise 164 q (bump 0 Ct.HOLD_QRESET (discardQueue false q s)) else s

/-- Meaning of QUEUE_RESET. -/
def execQueueReset (q : Nat) (s : State) : Host.Outcome State Fault Refusal := act (resetQueue q) s

/-- The records of a berth that are open, or in the decoder pool (R113, R116). -/
def openRecords (s : State) (n : Nat) : List RxRec :=
  (getBerth s n).demods.filterMap Demod.record ++
    ((s.dec.queue ++ s.dec.engines.filterMap id).map Coded.record).filter fun r => r.berth = n

/-- Items of queue `q` that a producer is in the middle of: receive records of a berth, or payload gathers (R354, R357).
(DEDUCED, log 52) -/
def openItems (s : State) (q : Nat) : List Nat :=
  if q < 6 then (openRecords s q).map fun r => r.seq.toNat
  else if 32 ≤ q ∧ q < 64 ∧ q % 4 = 1 then (descsIn s ((q - 32) / 4) .gather).map fun x => gatherKey x.ring x.index
  else []

/-- R357: complete items are discarded; the items in progress are waited for. (DEDUCED, log 52) -/
def flushQueue (q : Nat) (s : State) : State :=
  let s1 := discardQueue false q s
  let items := openItems s1 q
  if items = [] then s1
  else modHold (fun h => { h with flushing := some (q, monoNs s + 1000 * fget s 0 Fl.HOLD_FLUSH_CFG_WAIT_US, items) }) s1

/-- The rest of the item that is being delivered, or is next, is discarded: its delivery finds it truncated (R287). -/
def dropDelivery (f : Nat) (s : State) : State :=
  let cut (j : Job) : Job := match j.what with
    | .deliver (some (p, i)) => if j.fn = f then { j with what := .deliver (some (p, { i with abandoned := true })) } else j
    | _ => j
  if atWork s f Job.delivering then { s with jobs := s.jobs.map cut, stevs := s.stevs.map fun o => o.map cut }
  else modFn f (fun x => { x with ups := x.ups.modify 0 fun i => { i with abandoned := true } }) s

/-- R357: DROP_ITEM: the consumer discards the rest of its item; a delivery is then found truncated (R287). -/
def dropItem (q : Nat) (s : State) : State :=
  if 32 ≤ q ∧ q < 64 ∧ q % 4 = 3 then
    dropDelivery ((q - 32) / 4) s
  else discardQueue true q s

/-- HOLD_QCMD is accepted (R361): a queue id that is there, and an OP that is not 0. -/
def qcmdOk (v : Word) : Bool := !bitAt 31 v || (bitsOf 6 0 v < 96 && bitsOf 9 8 v ≠ 0)

/-- HOLD_QCMD is written (R355, R357). -/
def takeQcmd (v : Word) (s : State) : State :=
  let q := bitsOf 6 0 v
  let op := bitsOf 9 8 v
  if !bitAt 31 v then s
  else if op = 1 then flushQueue q s
  else if op = 2 then dropItem q s
  else resetQueue q s

/-- A write of HOLD_QCMD with GO and this OP. -/
def doQcmd (f op : Nat) (v : Word) (s : State) : State :=
  let w := setBitAt 31 (putBits 9 8 v op) true
  rowWrite f Reg.HOLD_QCMD w (qcmdOk w) (takeQcmd w) s

/-- Meaning of HOLD_QCMD_FLUSH. -/
def execHoldQcmdFlush (f : Fn) (v : Word) (s : State) : Host.Outcome State Fault Refusal := act (doQcmd f.val 1 v) s

/-- Meaning of HOLD_QCMD_DROP_ITEM. -/
def execHoldQcmdDropItem (f : Fn) (v : Word) (s : State) : Host.Outcome State Fault Refusal := act (doQcmd f.val 2 v) s

/-- Meaning of HOLD_QCMD_RESET. -/
def execHoldQcmdReset (f : Fn) (v : Word) (s : State) : Host.Outcome State Fault Refusal := act (doQcmd f.val 3 v) s

/-- The items in progress get ABORT in their length slots, and are discarded (R354, R357). -/
def forceAbort (q : Nat) (items : List Nat) (s : State) : State :=
  let of (r : RxRec) : Bool := r.berth = q && items.contains r.seq.toNat
  if q < 6 then
    forBelow (berthEntries q) (fun j t =>
      if (getDemod t q j).record.any of then rest q j (setDemod q j .search (modDemod q j (fun d => { d with record := none }) t))
      else t)
      { s with dec := { s.dec with
        queue := s.dec.queue.filter fun c => !of c.record
        engines := s.dec.engines.map fun o => o.filter fun c => !of c.record } }
  else
    let f := (q - 32) / 4
    let mine (j : Job) : Bool := j.fn = f && match j.what with
      | .gather r i => items.contains (gatherKey r i)
      | _ => false
    let s1 := { s with
      jobs := s.jobs.filter fun j => !mine j
      stevs := s.stevs.map fun o => o.filter fun j => !mine j }
    loseDescs f ((descsIn s f .gather).filter fun x => items.contains (gatherKey x.ring x.index)) s1

/-- R357: the wait of a flush is over: an item still in progress is aborted; items that entered later are kept. -/
def doFlushForced (s : State) : State :=
  match s.hold.flushing with
  | some (q, t, items) =>
    let s1 := modHold (fun h => { h with flushing := none }) s
    if (openItems s q).any items.contains then
      raise 165 q (bump 0 Ct.HOLD_FLUSH_FORCED (forceAbort q items (fireTimer t s1)))
    else s1
  | none => s

/-- Meaning of QUEUE_FLUSH_FORCED. -/
def execQueueFlushForced (s : State) : Host.Outcome State Fault Refusal := act doFlushForced s

/-- Items of a queue (R361 HOLD_QSTATE). (DEDUCED, log 52) -/
def queueItems (s : State) (q : Nat) : Nat :=
  let f := (q - 32) / 4
  let x := getFn s f
  if q < 6 then (s.mac.records.filter fun r => r.berth = q).length
  else if q < 12 then (getBerth s (q - 6)).requests.length
  else if q < 14 then (s.dec.queue.filter fun c => c.ackDue = (q = 12 : Bool)).length
  else if q < 19 then (classFrames s (q - 14)).length
  else if q = 20 then s.svc.upq.length
  else if q = 29 then (tableOps s).length
  else if q = 30 then s.tables.arb.length
  else if q < 32 then 0
  else if q < 64 then
    if q % 4 = 0 then (descsIn s f .waiting).length
    else if q % 4 = 1 then (descsIn s f .ready).length
    else if q % 4 = 2 then x.out.length
    else x.ups.length
  else if q < 72 then (getFn s (q - 64)).held.length
  else if q < 76 then 0
  else if q < 79 then (s.jobs.filter fun j => j.cls = q - 76).length
  else if q = 79 then (s.fns.map fun y => y.evq.length).sum
  else ((campSlot s (q - 80)).map fun id => (s.mac.queue.filter fun y => y.owner = .campaign id).length).getD 0

/-! ### Log and repair -/

/-- HOLD_LOG_SEL is written (R345, R361). -/
def takeLogSel (v : Word) (s : State) : State :=
  let s1 := storeKey Reg.HOLD_LOG_SEL v s
  if bitAt 31 v then fset 0 Fl.HOLD_STATUS_LOG_FULL 0 (modHold (fun h => { h with log := [] }) s1) else s1

/-- Meaning of HOLD_LOG_CLEAR. -/
def execHoldLogClear (f : Fn) (v : Word) (s : State) : Host.Outcome State Fault Refusal :=
  let w := setBitAt 31 v true
  act (rowWrite f.val Reg.HOLD_LOG_SEL w true (takeLogSel w)) s

/-- Field entries of a bank that are good (R359). -/
def fieldRows (s : State) (b : Nat) : List Repair := s.otp.repairs.filter fun r => r.bank = b && !r.void

/-- Spares of a bank that the factory map uses (R359). -/
def factoryRows (s : State) (b : Nat) : Nat := s.otp.factorySpares.getD b 0

/-- R360: a field repair is possible. (DEDUCED, log 52) -/
def repairable (s : State) (b row : Nat) : Bool :=
  s.otp.repairs.length < 32 && factoryRows s b + (fieldRows s b).length < 16 && !(fieldRows s b).any fun r => r.row = row

/-- The result of a field repair: shown, and event 169 raised (R360, R362). -/
def repairResult (b row result : Nat) (s : State) : State :=
  raiseAux 169 result (b * 4096 + row) (fset 0 Fl.HOLD_REPAIR_STATUS_RESULT result s)

/-- Who may repair (R360). -/
def repairOk (s : State) (f : Nat) (v : Word) : Bool := !bitAt 31 v || f = hmFn s

/-- HOLD_REPAIR_CTRL is written (R360). -/
def takeRepair (v : Word) (s : State) : State :=
  let b := bitsOf 15 12 v
  let row := bitsOf 10 0 v
  if !bitAt 31 v then s
  else if repairable s b row then modHold (fun h => { h with repairing := some (b, row) }) s
  else repairResult b row 2 s

/-- Meaning of FIELD_REPAIR. -/
def execFieldRepair (f : Fn) (v : Word) (s : State) : Host.Outcome State Fault Refusal :=
  let w := setBitAt 31 v true
  act (rowWrite f.val Reg.HOLD_REPAIR_CTRL w (repairOk s f.val w) (takeRepair w)) s

/-- R360: the entry is fused and read back. -/
def doRepairDone (ok : Bool) (s : State) : State :=
  match s.hold.repairing with
  | some (b, row) =>
    let s1 := { s with otp := { s.otp with repairs := s.otp.repairs ++ [(⟨b, row, !ok, ok⟩ : Repair)] } }
    repairResult b row (if ok then 1 else 3) (modHold (fun h => { h with repairing := none }) s1)
  | none => s

/-- Meaning of FIELD_REPAIR_DONE. -/
def execFieldRepairDone (ok : Bool) (s : State) : Host.Outcome State Fault Refusal := act (doRepairDone ok) s

end Sys2Proof.Machine
end

