-- ==== Sys2Proof/Machine/Fw.lean ====
section
/-!
DEFINITION. The device's own firmware and settings (R385 to R399): boot record, staging, boot, trial, signers and settings items.
-/

namespace Sys2Proof.Machine

/-- The own firmware changed by `g`. -/
def modFw (g : FwS → FwS) (s : State) : State := { s with fw := g s.fw }

/-! ### Slots and stores -/

/-- The state of a slot: B when `b`, else A (R387). -/
def BootRec.slot (r : BootRec) (b : Bool) : SlotSt := if b then r.slotB else r.slotA

/-- A slot's state set. -/
def BootRec.setSlot (b : Bool) (v : SlotSt) (r : BootRec) : BootRec := if b then { r with slotB := v } else { r with slotA := v }

/-- The slot in this state, if one is (R387). -/
def BootRec.findSlot (r : BootRec) (v : SlotSt) : Option Bool :=
  if r.slotA = v then some false else if r.slotB = v then some true else none

/-- Store roles mapped (R393). -/
def BootRec.mapStores (g : StoreRole → StoreRole) (r : BootRec) : BootRec := { r with store0 := g r.store0, store1 := g r.store1 }

/-- One role becomes another. -/
def StoreRole.swap (a b : StoreRole) (x : StoreRole) : StoreRole := if x = a then b else x

/-- The bytes of a slot. -/
def Flash.image (f : Flash) (b : Bool) : ImageBytes := if b then f.imageB else f.imageA

/-- The bytes of a slot set. -/
def setImage (b : Bool) (g : ImageBytes → ImageBytes) (s : State) : State :=
  { s with flash := if b then { s.flash with imageB := g s.flash.imageB } else { s.flash with imageA := g s.flash.imageA } }

/-- FALLBACKS reached its maximum (R42, R386): event 255, once. -/
def fallbackFull (s : State) : State :=
  if s.flash.boot.fallbacks < 0xFFFFFFFF || bitAt 2 (rd s Reg.FW_CNT_SAT) then s
  else raiseSaturated Reg.FW_FALLBACK_CNT (wr Reg.FW_CNT_SAT (setBitAt 2 (rd s Reg.FW_CNT_SAT) true) s)

/-- R391, R392: a slot falls back for a reason, in one boot record write. -/
def fallBack (b : Bool) (reason : Nat) (s : State) : State :=
  fallbackFull (bootWrite (fun r => { r.setSlot b .rejected with
    lastFallback := reason
    fallbacks := min 0xFFFFFFFF (r.fallbacks + 1) }) s)

/-- Settings store `k`. -/
def getStore (s : State) (k : Nat) : Store := s.flash.stores.getD k ⟨1, 0, [], []⟩

/-- Settings store `k` set. -/
def putStore (k : Nat) (v : Store) (s : State) : State := { s with flash := { s.flash with stores := s.flash.stores.set k v } }

/-- The reset value of a settings item (R394). -/
def itemReset (k : Nat) : Word := if k = 0 then 600 else 0

/-- An applied settings item of a store (R394). -/
def Store.item (t : Store) (k : Nat) : Word := (t.items.find k).getD (itemReset k)

/-- A settings item of the store in use (R394). -/
def setItem (s : State) (k : Nat) : Word := (getStore s s.fw.store).item k

/-- A store with its journal folded into its array, and written afresh (R393). -/
def Store.folded (t : Store) : Store :=
  ⟨t.format, t.seq + 1, t.journal.foldl (fun m p => m.put p.1 p.2) t.items, []⟩

/-- A store's array in another format (R395). -/
def Store.inFormat (n : Nat) (t : Store) : Store :=
  if t.format = n then t
  else { t with format := n, items := (List.range 1024).map fun k => (k, Config.convert t.format n k (t.item k)) }

/-- The octets of a store's header and array (R393). (DEDUCED, log 51) -/
def Store.octets (t : Store) : List Byte :=
  let items := (List.range 1024).flatMap fun k => leBytes 4 (t.item k).toNat
  [BitVec.ofNat 8 t.format] ++ leBytes 3 0 ++ leBytes 4 t.seq.toNat ++ leBytes 4 (crc32 items).toNat ++ leBytes 20 0 ++ items

/-! ### Staging -/

/-- The next staging descriptor of a function, where it has this opcode: they execute one at a time in the order they start
(R396). -/
def stageNext (s : State) (f op : Nat) : Option DescS :=
  ((getRing s f 2).descs.find? fun x => x.staging && x.phase ≠ .waiting).filter fun x => x.phase = .ready && x.op = op

/-- R396: a staging descriptor finds another function's lease. -/
def stageBusy (f : Nat) (x : DescS) (holder : Nat) (s : State) : State :=
  finishDesc f x.ring x.index { status := stBusy, aux := holder } (raiseAux 208 1 f (bump 0 Ct.FW_STAGE_BUSY s))

/-- A staging descriptor is refused. -/
def stageRefused (f : Nat) (x : DescS) (status : Nat) (s : State) : State := finishDesc f x.ring x.index { status := status } s

/-- The target slot (R397). -/
def targetSlot (s : State) : Bool := s.flash.boot.slotA = .confirmed

/-- The target slot becomes INCOMPLETE; the PREVIOUS store goes with a PREVIOUS image (R397). (DEDUCED, log 57) -/
def openTarget (s : State) : State :=
  let b := targetSlot s
  setImage b (fun _ => []) (bootWrite (fun r =>
    let r1 := if r.slot b = .previous then r.mapStores (StoreRole.swap .previous .spare) else r
    r1.setSlot b .incomplete) s)

/-- R397: FW_STAGE_OPEN; `ok`: the erase verifies. -/
def doStageOpen (f : Nat) (ok : Bool) (s : State) : State :=
  match stageNext s f opFwOpen with
  | none => s
  | some x =>
    let len := x.num 20 4
    match s.fw.lease with
    | some l => if l.holder = f then stageRefused f x stRejected s else stageBusy f x l.holder s
    | none =>
      if s.fw.mode = 1 then stageRefused f x stRejected s
      else if len < 1025 || 8388608 < len then stageRefused f x stBadDesc s
      else if ok then
        finishDesc f x.ring x.index { status := stOk }
          (raiseAux 208 0 f (modFw (fun w => { w with lease := some ⟨f, len, 0, 0⟩ }) (openTarget s)))
      else stageRefused f x stTimeout (openTarget s)

/-- Meaning of FW_STAGE_OPEN. -/
def execFwStageOpen (f : Fn) (ok : Bool) (s : State) : Host.Outcome State Fault Refusal := engine (doStageOpen f.val ok) s

/-- R397: the holder's chunk is programmed, compared or refused. -/
def chunkHeld (f : Nat) (x : DescS) (l : Lease) (ok : Bool) (s : State) : State :=
  let off := x.num 20 4
  let n := x.payload.length
  let b := targetSlot s
  if x.poisoned then stageRefused f x stPoisoned s
  else if l.len < off + n then stageRefused f x stBadDesc s
  else if off = l.staged then
    if ok then
      finishDesc f x.ring x.index { status := stOk }
        (modFw (fun w => { w with lease := some { l with staged := l.staged + n } }) (setImage b (fun im => im ++ x.payload) s))
    else stageRefused f x stTimeout (modFw (fun w => { w with lease := none }) s)
  else if off + n ≤ l.staged && ((s.flash.image b).drop off).take n = x.payload then stageRefused f x stOk s
  else stageRefused f x stBadDesc s

/-- R397: FW_STAGE_CHUNK; `ok`: the programming verifies. -/
def doStageChunk (f : Nat) (ok : Bool) (s : State) : State :=
  match stageNext s f opFwChunk with
  | none => s
  | some x =>
    match s.fw.lease with
    | none => stageRefused f x stRejected s
    | some l => if l.holder = f then chunkHeld f x l ok s else stageBusy f x l.holder s

/-- Meaning of FW_STAGE_CHUNK. -/
def execFwStageChunk (f : Fn) (ok : Bool) (s : State) : Host.Outcome State Fault Refusal := engine (doStageChunk f.val ok) s

/-- R397: the holder's CLOSE: commit or abandon. -/
def closeHeld (f : Nat) (x : DescS) (l : Lease) (abandon : Bool) (s : State) : State :=
  let free := modFw (fun w => { w with lease := none })
  if abandon then finishDesc f x.ring x.index { status := stOk } (raiseAux 209 1 f (free s))
  else if l.staged = l.len then
    finishDesc f x.ring x.index { status := stOk }
      (raiseAux 209 0 f (free (bootWrite (fun r => r.setSlot (targetSlot s) .staged) s)))
  else stageRefused f x stBadDesc s

/-- R397: FW_STAGE_CLOSE with this choice of commit or abandon. -/
def doStageClose (f : Nat) (abandon : Bool) (s : State) : State :=
  match (stageNext s f opFwClose).filter fun x => x.byte 20 = (if abandon then 1 else 0) with
  | none => s
  | some x =>
    match s.fw.lease with
    | none => stageRefused f x stRejected s
    | some l => if l.holder = f then closeHeld f x l abandon s else stageBusy f x l.holder s

/-- Meaning of FW_STAGE_CLOSE_COMMIT. -/
def execFwStageCloseCommit (f : Fn) (s : State) : Host.Outcome State Fault Refusal := engine (doStageClose f.val false) s

/-- Meaning of FW_STAGE_CLOSE_ABANDON. -/
def execFwStageCloseAbandon (f : Fn) (s : State) : Host.Outcome State Fault Refusal := engine (doStageClose f.val true) s

/-- R396: the lease ends otherwise than by CLOSE: 0 expiry, 1 BREAK, 2 FLR. -/
def endLease (result : Nat) (s : State) : State :=
  match s.fw.lease with
  | some l => raiseAux 210 result l.holder (bump 0 Ct.FW_LEASE_END (modFw (fun w => { w with lease := none }) s))
  | none => s

/-- A staging descriptor of a function is in progress (R396). -/
def stagingNow (s : State) (f : Nat) : Bool := (getRing s f 2).descs.any fun x => x.staging && x.phase ≠ .waiting

/-- R396: 120 s after the holder's last staging descriptor. -/
def doLeaseExpiry (s : State) : State :=
  match s.fw.lease with
  | some l => if stagingNow s l.holder then s else endLease 0 (fireTimer l.untilMono s)
  | none => s

/-- Meaning of FW_LEASE_EXPIRY. -/
def execFwLeaseExpiry (s : State) : Host.Outcome State Fault Refusal := engine doLeaseExpiry s

/-! ### Trial -/

/-- R392: the trial ends, and a fall-back reset follows 10 ms later. (DEDUCED, log 58) -/
def trialEnds (result cause : Nat) (s : State) : State :=
  raise 213 result (modFw (fun w => { w with trialMono := none, resetMono := some (monoNs s + 10000000, cause) }) s)

/-- R392: the host rejects the trial. (DEDUCED, log 58) -/
def rejectTrial (s : State) : State :=
  if s.fw.mode = 1 && s.fw.resetMono.isNone then trialEnds 1 5 (fallBack s.fw.slotB 7 s) else s

/-- The far side takes a word of FW_CTRL (R398). -/
def takeFwCtrl (f : Nat) (v : Word) (s : State) : State :=
  if (bitAt 0 v || bitAt 2 v) && f ≠ hmFn s then reject Reg.FW_STATUS s
  else
    let s1 := if bitAt 0 v then modFw (fun w => { w with vouched := true }) s else s
    let s2 := if bitAt 2 v then endLease 1 s1 else s1
    if bitAt 1 v then rejectTrial s2 else s2

/-- A write of FW_CTRL. -/
def doFwCtrl (f : Nat) (v : Word) (s : State) : State := rowWrite f Reg.FW_CTRL v true (takeFwCtrl f v) s

/-- Meaning of FW_BREAK. -/
def execFwBreak (f : Fn) (s : State) : Host.Outcome State Fault Refusal := act (doFwCtrl f.val 4) s

/-- Meaning of FW_VOUCH. -/
def execFwVouch (f : Fn) (s : State) : Host.Outcome State Fault Refusal := act (doFwCtrl f.val 1) s

/-- Meaning of FW_REJECT. -/
def execFwReject (f : Fn) (s : State) : Host.Outcome State Fault Refusal := act (doFwCtrl f.val 2) s

/-- R392: every condition of the confirmation holds. (DEDUCED, log 57) -/
def mayConfirm (s : State) : Bool :=
  s.fw.mode = 1 && s.fw.resetMono.isNone && s.start.selftestOk && rd s Reg.TEST_KAT_FAIL_CNT = 0 && s.claim.st ≠ .diag &&
    ((List.range 8).any fun f => ringEn s f 6) && (setItem s 1 ≠ 1 || s.fw.vouched)

/-- R392: the trial image is confirmed. -/
def confirmTrial (s : State) : State :=
  let confirm (v : SlotSt) : SlotSt := match v with
    | .trial => .confirmed
    | .confirmed => .previous
    | other => other
  let adopt (v : StoreRole) : StoreRole := match v with
    | .trial => .inUse
    | .inUse => .previous
    | other => other
  let s1 := bootWrite (fun r => { r.mapStores adopt with slotA := confirm r.slotA, slotB := confirm r.slotB }) s
  let s2 := { s1 with otp := { s1.otp with secver := max s1.otp.secver s.fw.secVersion } }
  raise 212 s2.otp.secver (modFw (fun w => { w with mode := 0, trialMono := none }) s2)

/-- R392: Epteuno's check, once per second. -/
def doConfirmCheck (s : State) : State := if mayConfirm s then confirmTrial s else s

/-- Meaning of TRIAL_CONFIRM_CHECK. -/
def execTrialConfirmCheck (s : State) : Host.Outcome State Fault Refusal := engine doConfirmCheck s

/-- R392: the trial window ends unconfirmed; the timer runs independently of the fabric. -/
def doWindowExpiry (s : State) : State :=
  match s.fw.trialMono with
  | some t => trialEnds 0 4 (elapseToMono t s)
  | none => s

/-- Meaning of TRIAL_WINDOW_EXPIRY. -/
def execTrialWindowExpiry (s : State) : Host.Outcome State Fault Refusal := act doWindowExpiry s

/-- R392: the fall-back reset. (DEDUCED, log 58) -/
def doTrialReset (s : State) : State :=
  match s.fw.resetMono with
  | some (t, cause) => restart cause false (elapseToMono t s)
  | none => s

/-- Meaning of TRIAL_RESET. -/
def execTrialReset (s : State) : Host.Outcome State Fault Refusal := act doTrialReset s

/-! ### Signers -/

/-- Signer entry `e` of OTP. -/
def getSigner (s : State) (e : Nat) : Signer := s.otp.signers.getD e ⟨false, 0, false, false⟩

/-- Signer entry `e` set. -/
def putSigner (e : Nat) (x : Signer) (s : State) : State := { s with otp := { s.otp with signers := s.otp.signers.set e x } }

/-- An entry that accepts a signer (R389). -/
def Signer.accepts (x : Signer) : Bool := x.fused && !x.revoked && !x.broken

/-- The staged hash, all of it written by one function since the last command (R389). -/
def stagedHash (s : State) (f : Nat) : Option (BitVec 256) :=
  if s.fw.signStaging.all fun x => x.any fun p => p.2 = f then
    some (BitVec.ofNat 256 ((s.fw.signStaging.filterMap fun x => x.map Prod.fst).foldl (fun n w => n * 2 ^ 32 + w.toNat) 0))
  else none

/-- FUSE of R389 of the staged hash; `ok`: the entry reads back. -/
def fuseSigner (h : BitVec 256) (e : Nat) (ok : Bool) (s : State) : State :=
  let s1 := putSigner e ⟨true, h, (getSigner s e).revoked, !ok⟩ s
  if ok then raise 214 (e + 256) s1 else raise 214 (e + 768) (fset 0 Fl.FW_STATUS_SIGN_FAIL 1 s1)

/-- REVOKE of R389. (DEDUCED, log 57) -/
def revokeSigner (e : Nat) (s : State) : State :=
  raise 214 (e + 512) (putSigner e { getSigner s e with revoked := true } s)

/-- The staging words of R389 are zeroed. -/
def clearSignStaging (s : State) : State := modFw (fun w => { w with signStaging := List.replicate 8 none }) s

/-- The stage-1 check of a word of FW_SIGNER_CTRL (R389, R460): a command comes from the harbour master function and names an
operation. -/
def signerWordOk (s : State) (f : Nat) (v : Word) : Bool := !bitAt 31 v || (f = hmFn s && (bitsOf 9 8 v = 1 || bitsOf 9 8 v = 2))

/-- What the command of a word of FW_SIGNER_CTRL does, where it is accepted (R389): REVOKE is refused where no entry would be left
that accepts a signer. (DEDUCED, log 57) -/
def signerEffect (s : State) (f : Nat) (v : Word) (ok : Bool) : Option (State → State) :=
  let e := bitsOf 1 0 v
  match bitsOf 9 8 v with
  | 1 =>
    match stagedHash s f with
    | some h => if (getSigner s e).fused then none else some (fuseSigner h e ok)
    | none => none
  | 2 => if (putSigner e { getSigner s e with revoked := true } s).otp.signers.any Signer.accepts then some (revokeSigner e) else none
  | _ => none

/-- The far side takes a word of FW_SIGNER_CTRL (R389); a rejected command leaves the register as it was (R37).
(DEDUCED, log 57) -/
def takeSigner (f : Nat) (v : Word) (ok : Bool) (s : State) : State :=
  let store := storeKey Reg.FW_SIGNER_CTRL v
  if !bitAt 31 v then store s
  else
    clearSignStaging (match (if f = hmFn s then signerEffect s f v ok else none) with
      | some g => g (store s)
      | none => reject Reg.FW_STATUS s)

/-- A write of FW_SIGNER_CTRL with GO and this OP. -/
def doSigner (f op : Nat) (v : Word) (ok : Bool) (s : State) : State :=
  let w := setBitAt 31 (putBits 9 8 v op) true
  rowWrite f Reg.FW_SIGNER_CTRL w true (takeSigner f w ok) s

/-- Meaning of FW_SIGNER_FUSE. -/
def execFwSignerFuse (f : Fn) (v : Word) (ok : Bool) (s : State) : Host.Outcome State Fault Refusal := act (doSigner f.val 1 v ok) s

/-- Meaning of FW_SIGNER_REVOKE. -/
def execFwSignerRevoke (f : Fn) (v : Word) (s : State) : Host.Outcome State Fault Refusal := act (doSigner f.val 2 v true) s

/-! ### Settings items -/

/-- Valid values of an item (R394). -/
def itemOk (k : Nat) (v : Word) : Bool :=
  if k = 0 then 60 ≤ v.toNat && v.toNat ≤ 3600 else if k = 1 then v.toNat ≤ 1 else 256 ≤ k

/-- Records that a store's journal has room for (R393): 1 MiB less header and array, by 8 bytes. -/
def journalRoom : Nat := 130556

/-- R394: FW_SET_VAL is written: a journal record for the next boot. -/
def takeSetVal (v : Word) (s : State) : State :=
  let k := fget s 0 Fl.FW_SET_SEL_ITEM
  let t := getStore s s.fw.store
  if !itemOk k v then reject Reg.FW_STATUS s
  else if journalRoom ≤ t.journal.length then reject Reg.FW_STATUS (modFw (fun w => { w with journalFull := true }) s)
  else putStore s.fw.store { t with journal := t.journal ++ [(k, v)] } s

/-- Meaning of FW_SET_WRITE. -/
def execFwSetWrite (f : Fn) (v : Word) (s : State) : Host.Outcome State Fault Refusal :=
  act (rowWrite f.val Reg.FW_SET_VAL v true (takeSetVal v)) s

/-- R398: FALLBACKS is set to 0 by a boot record write. -/
def clearFallbacks (s : State) : State :=
  bootWrite (fun r => { r with fallbacks := 0 }) (wr Reg.FW_CNT_SAT (setBitAt 2 (rd s Reg.FW_CNT_SAT) false) s)

/-- Meaning of FALLBACK_CLEAR. -/
def execFallbackClear (f : Fn) (s : State) : Host.Outcome State Fault Refusal :=
  act (rowWrite f.val Reg.FW_CNT_SAT 4 true clearFallbacks) s

/-! ### Boot -/

/-- The fleet image key, where the maquette can unwrap one (R333): the highest entry that opens under the root. -/
def imageKey (s : State) : Option (BitVec 256) :=
  match s.plinth.root with
  | some r => ((s.otp.imgKeys.filter fun k => !k.broken && k.wrappedBy = r).getLast?).map ImgKey.key
  | none => none

/-- The ciphertext of an image (R388), and what no chunk brought of it, which reads as no rule says. (DEDUCED, log 57) -/
def cipherText (s : State) (bs : List Byte) : List Byte :=
  let n := numAt bs 8 4
  let ct := (bs.drop 1024).take n
  ct ++ (List.range (n - ct.length)).map fun i => BitVec.ofNat 8 (Config.freeValue (s.draws + i)).toNat

/-- The octets that an image's signature covers (R388). -/
def signedOctets (s : State) (bs : List Byte) : List Byte := bs.take 512 ++ cipherText s bs

/-- The signer entry that an image names (R389). -/
def signerOf (s : State) (bs : List Byte) : Option Nat :=
  let h := Config.sha256 ((bs.drop 48).take 384 ++ beBytes 4 (numAt bs 44 4))
  s.otp.signers.findIdx? fun x => x.accepts && x.hash = h

/-- Reason 1 of R391 does not apply: FORMAT, reserved bytes, PARTS and CT_LEN. -/
def headerOk (s : State) (bs : List Byte) : Bool :=
  let zero (lo hi : Nat) : Bool := ((bs.drop lo).take (hi - lo)).all fun b => b = 0
  numAt bs 0 1 = 1 && zero 1 2 && zero 12 16 && zero 432 512 && zero 896 1024 && 1024 ≤ bs.length &&
    (numAt bs 2 2).testBit (if s.otp.is2614 then 1 else 0) && 1 ≤ numAt bs 8 4 && numAt bs 8 4 ≤ 8387584

/-- Reason 5 of R391 does not apply: the ciphertext opens. -/
def cipherOk (s : State) (bs : List Byte) : Bool :=
  match imageKey s with
  | some k => Config.gcmOpens k ((bs.drop 16).take 12) (bs.take 16) (cipherText s bs) ((bs.drop 28).take 16)
  | none => false

/-- verify() of R391: the reason of the first check that fails. (DEDUCED, log 57) -/
def verifyImage (s : State) (bs : List Byte) : Option Nat :=
  if !headerOk s bs then some 1
  else if (signerOf s bs).isNone then some 2
  else if numAt bs 6 1 < s.otp.secver || 63 < numAt bs 6 1 then some 3
  else if !Config.rsaPssOk ((bs.drop 48).take 384) (numAt bs 44 4) ((bs.drop 512).take 384) (signedOctets s bs) then some 4
  else if !cipherOk s bs then some 5
  else none

/-- The store that is IN_USE, if any. (DEDUCED, log 57) -/
def storeInUse (s : State) : Option Nat :=
  if s.flash.boot.store0 = .inUse then some 0 else if s.flash.boot.store1 = .inUse then some 1 else none

/-- R393: the store that a boot uses is folded and written afresh. -/
def useStore (k : Nat) (s : State) : State :=
  modFw (fun w => { w with store := k, journalFull := false }) (putStore k (getStore s k).folded s)

/-- R395: a trial's store: the one that is not IN_USE, filled from the one that is, in the image's format. (DEDUCED, log 57) -/
def trialStore (format : Nat) (s : State) : State :=
  let src := (getStore s ((storeInUse s).getD 1)).folded
  let k := if s.flash.boot.store0 = .inUse then 1 else 0
  let s1 := bootWrite (fun r => if k = 1 then { r with store1 := .trial } else { r with store0 := .trial }) s
  modFw (fun w => { w with store := k, journalFull := false }) (putStore k (src.inFormat format) s1)

/-- What the maquette leaves behind at every boot (R333 to R335, R391): measurements, the identity, the image key, event 211. -/
def booted (mode : Nat) (image : Option Bool) (s : State) : State :=
  let bs := image.map s.flash.image
  let byte (i : Nat) : Byte := BitVec.ofNat 8 ((bs.map fun b => numAt b i 1).getD 0)
  let m1 := (bs.map fun b => Config.sha256 (signedOctets s b)).getD 0
  let m3 := (s.otp.profile.map Config.sha256).getD 0
  let w := s.fw
  let s1 := modFw (fun w => { w with
    mode := mode
    minor := byte 4
    major := byte 5
    slotB := image.getD false
    lastSigner := ((bs.bind (signerOf s)).getD 0)
    secVersion := (byte 6).toNat
    imgKeyOk := (imageKey s).isSome
    idValid := match s.flash.identity, s.plinth.root with
      | some i, some r => i.wrappedBy = r
      | _, _ => false
    booted := true
    meas := [m1, Config.sha256 (getStore s s.fw.store).octets, m3] }) s
  raise 211 (mode + (if w.prevUsed then 4 else 0) + s.flash.boot.lastFallback * 16) s1

/-- R202, R370, R405: phase INIT: Epteuno draws the hash seeds, calibrates every present berth and enters STANDBY. -/
def enterInit (s : State) : State :=
  let s1 := { s with
    tables := { s.tables with seed0 := drawn s, seed1 := drawn (advanceDraws s) }
    start := { s.start with phase := .init } }
  let s2 := forBelow 6 (fun n t => if berthPresent t n then modBerth n (fun b => { b with calBusy := true }) t else t)
    (advanceDraws (advanceDraws s1))
  moveClaim .standby s2

/-- An image runs (R391): in MODE 1 the trial timer is armed (R392). -/
def runImage (mode : Nat) (b : Bool) (s : State) : State :=
  let s1 := booted mode (some b) s
  let s2 := if mode = 1 then
      modFw (fun w => { w with trialMono := some (monoNs s + (setItem s1 0).toNat * 1000000000), vouched := false }) s1
    else s1
  enterInit s2

/-- The maquette runs alone (R391). -/
def runMaquette (s : State) : State := booted 2 none (useStore ((storeInUse s).getD 0) s)

/-- A slot is in this state and verifies. -/
def goodSlot (s : State) (v : SlotSt) : Option Bool :=
  (s.flash.boot.findSlot v).filter fun b => (verifyImage s (s.flash.image b)).isNone

/-- R391: the CONFIRMED slot, then the PREVIOUS slot, then the maquette alone. -/
def bootConfirmed (s : State) : State :=
  match goodSlot s .confirmed with
  | some b => runImage 0 b (useStore ((storeInUse s).getD 0) s)
  | none =>
    match goodSlot s .previous with
    | some b =>
      let back (v : StoreRole) : StoreRole := match v with
        | .inUse => .spare
        | .previous => .inUse
        | other => other
      let s1 := bootWrite (fun r => (let r1 := r.mapStores back
        (if r.slot (!b) = .confirmed then r1.setSlot (!b) .rejected else r1).setSlot b .confirmed)) s
      runImage 0 b (useStore ((storeInUse s1).getD 0) (modFw (fun w => { w with prevUsed := true }) s1))
    | none => runMaquette s

/-- R391: a STAGED slot is written as TRIAL, verified, and runs or falls back. -/
def bootStaged (b : Bool) (s : State) : State :=
  let s1 := bootWrite (fun r => r.setSlot b .trial) s
  let bs := s1.flash.image b
  match verifyImage s1 bs with
  | none => runImage 1 b (trialStore (numAt bs 7 1) s1)
  | some reason => bootConfirmed (fallBack b reason s1)

/-- R391, R395: a trial that did not confirm falls back, and its store is SPARE. -/
def dropTrial (s : State) : State :=
  let s1 := match s.flash.boot.findSlot .trial with
    | some b => fallBack b 6 s
    | none => s
  let r := s1.flash.boot
  if r.store0 = .trial || r.store1 = .trial then bootWrite (BootRec.mapStores (StoreRole.swap .trial .spare)) s1 else s1

/-- boot() of R391, once in a start-up; it waits for the DRBG (R328). -/
def doFwBooted (s : State) : State :=
  if s.start.phase ≠ .maquette || s.fw.booted || !(s.keys.drbgReady && !s.keys.drbgBlocked) then s
  else if s.start.straps.boot = 1 then runMaquette s
  else
    let s1 := dropTrial s
    match s1.flash.boot.findSlot .staged with
    | some b => if s.start.straps.boot = 2 then bootConfirmed s1 else bootStaged b s1
    | none => bootConfirmed s1

/-- Meaning of FW_BOOTED. -/
def execFwBooted (s : State) : Host.Outcome State Fault Refusal := act doFwBooted s

end Sys2Proof.Machine
end

