-- ==== Sys2Proof/Machine/StartUp.lean ====
section
/-!
DEFINITION. The reset kinds of R400 and what each loses (R293, R401, R402), power and the TAP (R403, R417), and the phases of
start-up (R405 to R407).
-/

namespace Sys2Proof.Machine

/-- Start-up's state changed by `g`. -/
def modStart (g : StartS → StartS) (s : State) : State := { s with start := g s.start }

/-! ### Function-level and port resets -/

/-- A function has work that an FLR discards (R293). (DEDUCED, log 45) -/
def hasWork (s : State) (f : Nat) : Bool :=
  let x := getFn s f
  !x.held.isEmpty || !x.out.isEmpty || !x.ups.isEmpty || !x.posts.isEmpty || x.faults.any Option.isSome || (x.rings.any fun r => !r.descs.isEmpty) ||
    atWork s f (fun j => j.what ≠ .status) || s.svc.txns.any fun t => t.fn = f

/-- Work of function `f` in the service engine is freed, and its frames that have not started are withdrawn (R293).
(DEDUCED, log 45) -/
def freeWork (f : Nat) (s : State) : State :=
  let v := s.svc
  let mine (q : TxFrame) : Bool := match q.owner with
    | .txn t => v.txns.any fun x => x.fn = f && x.token.toNat = t
    | .datagram i => v.dgrams.any fun x => x.fn = f && x.id = i
    | .raw i => v.raws.any fun x => x.fn = f && x.id = i
    | .mpl i _ => v.mpls.any fun x => x.fn = f && x.id = i
    | .campaign _ | .mac | .rpl | .upAck => false
  modSvc (fun x => { x with
    txns := x.txns.filter fun t => t.fn ≠ f
    groups := x.groups.filter fun g => g.fn ≠ f
    mpls := x.mpls.filter fun m => m.fn ≠ f
    dgrams := x.dgrams.filter fun d => d.fn ≠ f
    raws := x.raws.filter fun r => r.fn ≠ f }) (withdraw mine s)

/-- The registers that an FLR of function `f` returns to reset: its RING, XLATE, EVT and TBL views, grants apart (R263, R293). -/
def flrKey (f k : Nat) : Bool :=
  let off := k % 0x10000
  k / 0x10000 = f && 0x100 ≤ off && off < 0x2000 && !(0x700 ≤ off && off < 0x720)

/-- The claims on device-wide state that an FLR ends: campaigns, checkpoint area and load, staging lease (R293, R312, R378). -/
def flrShared (f : Nat) (s : State) : State :=
  let s1 := ownerReset f s
  let s2 := if s1.claim.area.any fun a => a.fn = f then closeArea { status := stAborted } s1 else s1
  let s3 := if s2.claim.loading.any fun l => l.fn = f then modClaim (fun c => { c with loading := none }) s2 else s2
  if s3.fw.lease.any fun l => l.holder = f then endLease 2 s3 else s3

/-- R293: a Function Level Reset. -/
def flrFn (f : Nat) (s : State) : State :=
  let lost := hasWork s f || (getFn s f).loss.isSome
  let s1 := modPort (portOf f) (fun q => { q with invals := q.invals.filter fun r => r.fn ≠ f })
    (invalidateFn f (freeWork f (flrShared f s)))
  let mine (j : Job) : Bool := j.fn = f
  let s2 := { s1 with
    regs := s1.regs.filter fun p => !flrKey f p.1
    pend := s1.pend.filter fun p => !flrKey f p.1
    jobs := s1.jobs.filter fun j => !mine j
    landed := s1.landed.filter fun j => !mine j
    stevs := s1.stevs.map fun o => o.filter fun j => !mine j
    tables := { s1.tables with
      locks := s1.tables.locks.filter fun l => l.fn ≠ f
      cmdq := s1.tables.cmdq.filter fun c => c.fn ≠ f }
    fw := { s1.fw with attests := s1.fw.attests.filter fun p => p.1 ≠ f }
    start := { s1.start with ports := s1.start.ports.map fun p => { p with stalled := p.stalled.filter fun x => x.1 ≠ f } } }
  raise (219 + 4 * f) 3 (modFn f (fun x => { FnS.reset with
    rings := x.rings.map fun r => { RingS.reset with lap := r.lap + 1 }
    tokenSeq := x.tokenSeq
    liveMono := monoNs s
    loss := if lost then some 0xFFFFFFFF else none }) s2)

/-- An FLR reaches a function that is ready, over a link that is up (R406). (DEDUCED, log 45) -/
def doFlr (f : Nat) (s : State) : State :=
  if s.start.functionsReady && (getPort s (portOf f)).linkUp then flrFn f s else s

/-- Meaning of FLR. -/
def execFlr (f : Fn) (s : State) : Host.Outcome State Fault Refusal := act (doFlr f.val) s

/-- PERST_N of port `p` takes a level. -/
def setPerst (p : Nat) (high : Bool) (s : State) : State :=
  modPort p (fun q => { q with perstHigh := high }) s

/-- R402: PCIE_p_PERST_N falls. -/
def doPortResetAssert (p : Nat) (s : State) : State :=
  if (getPort s p).perstHigh then
    raise 253 (p + 256) (linkDown p (setPerst p false s))
  else s

/-- Meaning of PORT_RESET_ASSERT. -/
def execPortResetAssert (p : Fin 2) (s : State) : Host.Outcome State Fault Refusal :=
  .next (settle (if s.start.held then setPerst p.val false s else doPortResetAssert p.val s))

/-- R402: PCIE_p_PERST_N rises: an FLR of each of the port's functions, and an empty translation cache. -/
def doPortResetRelease (p : Nat) (s : State) : State :=
  if (getPort s p).perstHigh then s
  else
    let s1 := forBelow 4 (fun i t => flrFn (4 * p + i) t) s
    raise 253 p (setPerst p true (modPort p (fun q => { q with atc := [], invals := [] }) s1))

/-- Meaning of PORT_RESET_RELEASE. -/
def execPortResetRelease (p : Fin 2) (s : State) : Host.Outcome State Fault Refusal :=
  .next (settle (if s.start.held then setPerst p.val true s else doPortResetRelease p.val s))

/-! ### Power-on and device resets -/

/-- The straps are sampled (R405, R429, R439). (DESIGN CHOICE, log 6; DEDUCED, log 59) -/
def sampleStraps (straps : Straps) (b33 : Bool) (s : State) : State :=
  modStart (fun x => { x with straps := straps, bankB33 := b33 }) s

/-- R400, R403: POR_N rises: start-up runs from phase FUSES, once nothing else holds the device. -/
def doPowerOn (straps : Straps) (b33 : Bool) (s : State) : State :=
  holdBy (fun x => { x with porLow := false }) (sampleStraps straps b33 (restart 0 true s))

/-- Meaning of POWER_ON_RESET. -/
def execPowerOnReset (straps : Straps) (b33 : Bool) (s : State) : Host.Outcome State Fault Refusal :=
  .next (settle (doPowerOn straps b33 s))

/-- R403: POR_N goes low: every output takes its in-reset state. -/
def doPorLow (s : State) : State := holdBy (fun x => { x with porLow := true }) (restart 0 true s)

/-- Meaning of POR_N_ASSERT. -/
def execPorNAssert (s : State) : Host.Outcome State Fault Refusal := .next (settle (doPorLow s))

/-- R403: a brown-out acts as POR_N low. -/
def doBrownOut (s : State) : State := holdBy (fun x => { x with brownOut := true }) (restart 1 true s)

/-- Meaning of BROWN_OUT. -/
def execBrownOut (s : State) : Host.Outcome State Fault Refusal := .next (settle (doBrownOut s))

/-- R403: a brown-out ends; start-up records it. -/
def doBrownOutEnd (straps : Straps) (b33 : Bool) (s : State) : State :=
  if s.start.brownOut then
    holdBy (fun x => { x with brownOut := false }) (sampleStraps straps b33 (restart 1 true s))
  else s

/-- Meaning of BROWN_OUT_END. -/
def execBrownOutEnd (straps : Straps) (b33 : Bool) (s : State) : Host.Outcome State Fault Refusal :=
  .next (settle (doBrownOutEnd straps b33 s))

/-- TEST_RESET is accepted (R419). -/
def testResetOk (s : State) (f : Nat) (v : Word) : Bool := bitAt 31 v && bitsOf 15 0 v = 0x5EA1 && f = hmFn s

/-- Meaning of TEST_RESET. -/
def execTestReset (f : Fn) (v : Word) (s : State) : Host.Outcome State Fault Refusal :=
  act (rowWrite f.val Reg.TEST_RESET v (testResetOk s f.val v) (restart 2 false)) s

/-! ### JTAG -/

/-- IDCODE (R1, R417): the stepping, the part, the manufacturer identity from OTP, and 1. (PRESUMED, log 62) -/
def idcode (s : State) : Word :=
  BitVec.ofNat 32 (1 + 2 * s.otp.jtagId.toNat + 2 ^ 12 * bitsOf 15 0 (deviceWord s) + 2 ^ 28 * (bitsOf 23 16 (deviceWord s) % 16))

/-- R400, R417: the TAP's instruction becomes `i`: one that holds the device starts a device reset, and leaving it ends the hold;
IDCODE shifts out the part's identity. (PRESUMED, log 62) -/
def doTap (i : TapInstr) (s : State) : State :=
  let s1 := if i.holds && !s.start.held then restart 6 false s else s
  let s2 := holdBy (fun x => { x with tap := i }) s1
  if i = .idcode then emit (.idcode (idcode s2)) s2 else s2

/-- Meaning of TAP_INSTRUCTION. -/
def execTapInstruction (i : TapInstr) (s : State) : Host.Outcome State Fault Refusal := .next (settle (doTap i s))

/-- R400: Test-Logic-Reset selects IDCODE. (PRESUMED, log 62) -/
def doTapReset (s : State) : State := doTap .idcode s

/-- Meaning of TAP_RESET. -/
def execTapReset (s : State) : Host.Outcome State Fault Refusal := .next (settle (doTapReset s))

/-! ### Start-up -/

/-- Microseconds since the reset (R418): MONO counts from there (R60). (DEDUCED, log 59) -/
def sinceReset (s : State) : Word := BitVec.ofNat 32 (monoNs s / 1000)

/-- R346: fuses are loaded, and the hold and the pilot memories are filled. (DEDUCED, log 59) -/
def doFillDone (s : State) : State :=
  match s.start.phase with
  | .fuses | .fill => modStart (fun x => { x with phase := .selftest }) s
  | _ => s

/-- Meaning of FILL_DONE. -/
def execFillDone (s : State) : Host.Outcome State Fault Refusal := act doFillDone s

/-- The maquette takes the boot record from its copies (R386). -/
def takeBoot (s : State) : State := { s with flash := { s.flash with boot := bootTaken s.flash.copies } }

/-- R404, R405: the self-test passed: the pilot cores run the maquette, which reads the boot record, instantiates the DRBG and writes
the new incarnation (R328, R386). (DEDUCED, log 59) -/
def enterMaquette (s : State) : State :=
  let s1 := modStart (fun x => { x with phase := .maquette, selftestOk := true }) (modFabric (fun f => { f with pilots := List.replicate 4 1 }) s)
  drbgStart (bootWrite (fun b => { b with incarnation := b.incarnation + 1 }) (takeBoot s1))

/-- R407: the self-test failed: phase HALTED. -/
def enterHalted (s : State) : State :=
  raise 248 (rd s Reg.HOLD_SELFTEST).toNat (setAlert 3 (modStart (fun x => { x with phase := .halted }) s))

/-- R347: the checker self-test ends. -/
def doSelftestDone (banks pilots : Nat) (s : State) : State :=
  match s.start.phase with
  | .selftest =>
    let s1 := wr Reg.HOLD_SELFTEST (BitVec.ofNat 32 (banks + pilots * 2 ^ 16 + 2 ^ 31)) (wr Reg.BRINGUP_T_SELFTEST (sinceReset s) s)
    if banks = 0xFFFF && pilots = 0xF then enterMaquette s1 else enterHalted s1
  | _ => s

/-- Meaning of SELFTEST_DONE. -/
def execSelftestDone (banks : BitVec 16) (pilots : BitVec 4) (s : State) : Host.Outcome State Fault Refusal :=
  act (doSelftestDone banks.toNat pilots.toNat) s

/-- R406: the host functions become ready. -/
def doFunctionsReady (s : State) : State :=
  match s.start.phase with
  | .fuses | .fill | .selftest => s
  | _ =>
    if s.start.functionsReady then s
    else wr Reg.BRINGUP_T_READY (sinceReset s) (modStart (fun x => { x with functionsReady := true }) s)

/-- Meaning of FUNCTIONS_READY. -/
def execFunctionsReady (s : State) : Host.Outcome State Fault Refusal := act doFunctionsReady s

/-- R405, R406: phase SERVICE or RECOVERY is reached: event 252, and descriptors and doorbells are fetched. -/
def arrive (p : Phase) (s : State) : State :=
  let t := sinceReset s
  let s1 := setAlert 3 (wr Reg.BRINGUP_T_SERVICE t (modStart (fun x => { x with phase := p }) s))
  forBelow 8 (fun f u => if (List.range 8).any fun r => ringEn u f r then requestDoorbell f u else u)
    (raiseAux 252 s.start.cause t.toNat s1)

/-- Some present berth is still calibrating. -/
def calibrating (s : State) : Bool := (List.range 6).any fun n => berthPresent s n && (getBerth s n).calBusy

/-- R328, R405: calibration is over and the DRBG serves; or the maquette runs alone. (DEDUCED, log 59) -/
def doServiceReady (s : State) : State :=
  if s.keys.drbgBlocked then s
  else
    match s.start.phase with
    | .init => if calibrating s then s else arrive .service s
    | .maquette => if s.fw.booted then arrive .recovery s else s
    | _ => s

/-- Meaning of SERVICE_READY. -/
def execServiceReady (s : State) : Host.Outcome State Fault Refusal := act doServiceReady s

end Sys2Proof.Machine
end

