-- ==== Sys2Proof/Machine/InService.lean ====
section
/-!
DEFINITION. Testing in service: dry dock, known-answer rotation, fencing by the host and the bring-up read ports (R408 to R415).
-/

namespace Sys2Proof.Machine

/-! ### Dry dock -/

/-- MESH_ON with berth `n` the block-ack berth of its band (R411). -/
def dockBaBerth (s : State) (n : Nat) : Bool := (baBerth s (bandOfBerth n)).1 = n

/-- An undocked berth that sends EBs would be left (R411). -/
def ebLeft (s : State) (n : Nat) : Bool :=
  (ebBerths s).any fun k => k ≠ n && s.start.docked ≠ some k && fbit s (berthBase k) Fl.BERTH_TX_CTRL_TX_EN

/-- R411: a dock of berth `n` is accepted. (DEDUCED, log 61) -/
def dockOk (s : State) (n : Nat) : Bool :=
  berthPresent s n && n < 6 && !(s.start.docked.any fun k => k ≠ n) && !(meshOn s && (dockBaBerth s n || !ebLeft s n))

/-- The far side takes a word of TEST_DOCK (R411, R412). -/
def takeDock (v : Word) (s : State) : State :=
  let n := bitsOf 2 0 v
  let enter := bitAt 8 v
  let leave := bitAt 9 v
  let s1 := storeKey Reg.TEST_DOCK v s
  if !bitAt 31 v then s1
  else if enter && !leave && dockOk s n then modStart (fun x => { x with dock := some ⟨n, true, 2⟩ }) s1
  else if leave && !enter && s.start.docked = some n then modStart (fun x => { x with dock := some ⟨n, false, 2⟩ }) s1
  else reject Reg.TEST_STATUS s

/-- A write of TEST_DOCK with GO and one of ENTER and LEAVE. (DEDUCED, log 61) -/
def doDock (f : Nat) (enter : Bool) (v : Word) (s : State) : State :=
  let w := setBitAt 31 (setBitAt 8 (setBitAt 9 v (!enter)) enter) true
  rowWrite f Reg.TEST_DOCK w true (takeDock w) s

/-- Meaning of DOCK_ENTER. -/
def execDockEnter (f : Fn) (v : Word) (s : State) : Host.Outcome State Fault Refusal := act (doDock f.val true v) s

/-- Meaning of DOCK_LEAVE. -/
def execDockLeave (f : Fn) (v : Word) (s : State) : Host.Outcome State Fault Refusal := act (doDock f.val false v) s

/-- TEST_DOCK_RESULT (R419). -/
def setDockResult (result step db frames : Nat) (s : State) : State :=
  wr Reg.TEST_DOCK_RESULT (BitVec.ofNat 32 (result + step * 16 + db * 256 + frames * 65536)) s

/-- Event 250 (R420). -/
def dockTold (n : Nat) (s : State) : State := raiseAux 250 n (rd s Reg.TEST_DOCK_RESULT).toNat s

/-- R99, R411, R412: berth `n` docks, and its test starts with a full calibration. (DESIGN CHOICE, log 73) -/
def enterDock (n : Nat) (s : State) : State :=
  let s1 := modBerth n (fun b => { b with calBusy := true }) (modStart (fun x => { x with docked := some n, dockTesting := true }) s)
  rehomeAll (raise 251 (n + 256) (setDockResult 1 0 0 0 (demodsOff n s1)))

/-- R412: berth `n` returns; a test that still runs ends aborted. -/
def leaveDock (n : Nat) (s : State) : State :=
  let s1 := if s.start.dockTesting then dockTold n (setDockResult 3 0 0 0 (modBerth n (fun b => { b with calBusy := false }) s)) else s
  rehomeAll (raise 251 n (restAll n (modStart (fun x => { x with docked := none, dockTesting := false }) s1)))

/-- A slot start passes: a dock command applies at the second one (R411, R412). -/
def dockTick (s : State) : State :=
  match s.start.dock with
  | none => s
  | some d =>
    if 1 < d.starts then modStart (fun x => { x with dock := some { d with starts := d.starts - 1 } }) s
    else
      let s1 := modStart (fun x => { x with dock := none }) s
      if d.enter then enterDock d.berth s1 else leaveDock d.berth s1

/-- R99, R412: step 1 of the test is a full calibration, which this ends where RX_CAL_DONE did not; the test gives its image
rejection, and no rule its DC residue. (DEDUCED, log 61) -/
def dockCal (n : Nat) (r : DockResult) (s : State) : State :=
  if (getBerth s n).calBusy then
    advanceDraws (doRxCalDone n ((Config.freeValue s.draws).toNat % 256) r.imageDb.toNat (r.failStep ≠ some 1) s)
  else s

/-- Loopback frames of the test: 32 in each mode of the berth (R412). -/
def dockFrames (n : Nat) : Nat := if n < 4 then 128 else 32

/-- R412: the first failing step of the test: calibration or retune as the hardware finds them, then the frames, then the image. -/
def DockResult.fails (r : DockResult) (n : Nat) : Option Nat :=
  if r.failStep = some 1 then some 1
  else if r.failStep = some 2 then some 2
  else if r.frames.toNat ≠ dockFrames n then some 3
  else if r.imageDb.toNat < 35 then some 4
  else none

/-- R412: the dry-dock test ends with its result. -/
def doDockTestDone (r : DockResult) (s : State) : State :=
  match s.start.docked with
  | some n =>
    if s.start.dockTesting then
      let s1 := dockCal n r (modStart (fun x => { x with dockTesting := false }) s)
      let s2 := setDockResult (if (r.fails n).isSome then 3 else 2) ((r.fails n).getD 0) r.imageDb.toNat r.frames.toNat s1
      dockTold n (bump 0 Ct.TEST_DOCK s2)
    else s
  | none => s

/-- Meaning of DOCK_TEST_DONE. -/
def execDockTestDone (r : DockResult) (s : State) : Host.Outcome State Fault Refusal := act (doDockTestDone r) s

/-! ### Known-answer rotation and fencing -/

/-- The engine has no work (R413). (DEDUCED, log 61) -/
def engineIdle (s : State) (u : Nat) : Bool :=
  if u < 20 then !s.berths.any fun b => (b.requests ++ b.onAir.toList).any fun t => t.begun && t.aes = u - 12
  else if u < 28 then (s.dec.engines.getD (u - 20) none).isNone
  else if u = 30 then s.camp.preparing.isEmpty
  else true

/-- The engines in the order of their turn, from `k` on (R413). -/
def katOrder (k : Nat) : List Nat := (List.range 19).map fun i => 12 + (k - 12 + i) % 19

/-- R413: PERIOD_S after the last one the next engine is taken for its test; fenced ones are passed over. (DEDUCED, log 61) -/
def doKatRotation (s : State) : State :=
  if !fbit s 0 Fl.TEST_KAT_CFG_EN || s.start.katUnit.isSome then s
  else
    match (katOrder s.start.katNext).find? fun u => !unitFenced s u with
    | some u =>
      let s1 := elapseToMono (s.start.katMono + 1000000000 * fget s 0 Fl.TEST_KAT_CFG_PERIOD_S) s
      modStart (fun x => { x with katUnit := some u, katNext := if u = 30 then 12 else u + 1, katMono := monoNs s1 }) s1
    | none => s

/-- Meaning of KAT_ROTATION. -/
def execKatRotation (s : State) : Host.Outcome State Fault Refusal := engine doKatRotation s

/-- R413: an engine that has not become idle within 100 ms is passed over. -/
def doKatPassOver (s : State) : State :=
  match s.start.katUnit with
  | some u =>
    if engineIdle s u then s else modStart (fun x => { x with katUnit := none }) (elapseToMono (s.start.katMono + 100000000) s)
  | none => s

/-- Meaning of KAT_PASS_OVER. -/
def execKatPassOver (s : State) : Host.Outcome State Fault Refusal := engine doKatPassOver s

/-- R414: the test of an idle engine ends; a failed one is fenced. -/
def doKatDone (pass : Bool) (s : State) : State :=
  match s.start.katUnit with
  | none => s
  | some u =>
    if !engineIdle s u then s
    else
      let s1 := bump 0 Ct.TEST_KAT (modStart (fun x => { x with katUnit := none }) s)
      let s2 := wr Reg.TEST_KAT_LAST (BitVec.ofNat 32 (u + if pass then 256 else 0)) s1
      if pass then s2 else raise 249 u (fenceOrDiag u (bump 0 Ct.TEST_KAT_FAIL s2))

/-- Meaning of KAT_DONE. -/
def execKatDone (pass : Bool) (s : State) : Host.Outcome State Fault Refusal := engine (doKatDone pass) s

/-- R415: TEST_FENCE is accepted. -/
def testFenceOk (s : State) (f : Nat) (v : Word) : Bool :=
  let u := bitsOf 4 0 v
  !bitAt 31 v || (f = hmFn s && u ≠ 31 && !unitFenced s u && !breaksFloor s u)

/-- TEST_FENCE is written (R415). -/
def takeTestFence (v : Word) (s : State) : State :=
  let u := bitsOf 4 0 v
  if bitAt 31 v then raise 254 u (fence u s) else s

/-- Meaning of TEST_FENCE. -/
def execTestFence (f : Fn) (v : Word) (s : State) : Host.Outcome State Fault Refusal :=
  act (rowWrite f.val Reg.TEST_FENCE v (testFenceOk s f.val v) (takeTestFence v)) s

/-! ### Read ports -/

/-- BRINGUP_STATUS.STALLING: empty reads stall (R409). -/
def stalling (s : State) : Bool := s.start.phase ≠ .service || fbit s 0 Fl.TEST_CTRL_MODE

/-- R409: a read of BRINGUP_PORTp_DATA. -/
def doPortRead (f p : Nat) (s : State) : State :=
  hostReadWith f (Reg.BRINGUP_PORT_DATA + 0x10 * p) (fun t =>
    let x := getTap t p
    if x.fifo.isEmpty && (stalling t || !x.stalled.isEmpty) then
      let until' := monoNs t + 1000 * fget t 0 Fl.BRINGUP_STALL_LIMIT_US
      modTap p (fun y => { y with stalled := y.stalled ++ [(f, until')] }) t
    else popTap f p t) s

/-- Meaning of BRINGUP_PORT_READ. -/
def execBringupPortRead (f : Fn) (p : Fin 4) (s : State) : Host.Outcome State Fault Refusal := act (doPortRead f.val p.val) s

/-- R409: the oldest stalled read of a port reaches its limit. -/
def doStallExpiry (p : Nat) (s : State) : State :=
  match (getTap s p).stalled with
  | (f, t) :: rest =>
    fset (0x10 * p) Fl.BRINGUP_PORT_STATUS_STALL_EXPIRED 1
      (popTap f p (modTap p (fun y => { y with stalled := rest }) (fireTimer t s)))
  | [] => s

/-- Meaning of BRINGUP_STALL_EXPIRY. -/
def execBringupStallExpiry (p : Fin 4) (s : State) : Host.Outcome State Fault Refusal := act (doStallExpiry p.val) s

/-- BRINGUP_PORTp_CFG is written (R408): a new QID, or TAP_EN 0, empties the FIFO. -/
def takePortCfg (p : Nat) (v : Word) (s : State) : State :=
  let base := 0x10 * p
  let same := fget s base Fl.BRINGUP_PORT_CFG_QID = bitsOf 6 0 v && bitAt 8 v
  let s1 := storeKey (base + Reg.BRINGUP_PORT_CFG) v s
  if same then s1 else modTap p (fun x => { x with fifo := [] }) s1

end Sys2Proof.Machine
end

