-- ==== Sys2Proof/Machine/Mgmt.lean ====
section
/-!
DEFINITION. The management target (R430 to R432).
-/

namespace Sys2Proof.Machine

/-- The MGMT island changed by `g`. -/
def modMgmt (g : MgmtS → MgmtS) (s : State) : State := { s with mgmt := g s.mgmt }

/-- The register at a pointer (R431); 0 where none is. -/
def mgmtReg (m : MgmtS) (p : Byte) : Word :=
  match p.toNat with
  | 0 => m.id
  | 1 => m.vreq
  | 2 => m.state
  | 3 => BitVec.ofNat 32 (unsignedOf 16 m.temp)
  | 4 => m.alert
  | 5 => m.limit
  | _ => 0

/-- A register at a pointer is written (R430, R431). -/
def mgmtWrite (p : Byte) (v : Word) (m : MgmtS) : MgmtS :=
  match p.toNat with
  | 4 => { m with alert := m.alert &&& ~~~v }
  | 5 => { m with limit := v &&& 0xFFFF }
  | _ => m

/-- The target answers from the end of phase SELFTEST (R430). -/
def mgmtOn (s : State) : Bool :=
  match s.start.phase with
  | .fuses | .fill | .selftest => false
  | _ => true

/-- The registers that whole groups of four octets write, from a pointer on; the pointer advances by one for each.
(DEDUCED, log 63) -/
def mgmtWrites : Nat → List Byte → MgmtS → MgmtS
  | 0, _, m => m
  | n + 1, bs, m =>
    let w := BitVec.ofNat 32 (ofLeBytes (bs.take 4))
    let m1 := mgmtWrite m.pointer w m
    mgmtWrites n (bs.drop 4) { m1 with pointer := m1.pointer + 1 }

/-- R430: a write transaction. -/
def doI2cWrite (p : Byte) (octets : List Byte) (s : State) : State :=
  if mgmtOn s then modMgmt (fun m => mgmtWrites (octets.length / 4) octets { m with pointer := p }) s else s

/-- Meaning of I2C_WRITE. -/
def execI2cWrite (p : Byte) (octets : List Byte) (s : State) : Host.Outcome State Fault Refusal := act (doI2cWrite p octets) s

/-- The octets of a read transaction (R430). (DEDUCED, log 63) -/
def mgmtOctets (m : MgmtS) (p : Byte) (count : Nat) : List Byte :=
  (List.range count).map fun i => BitVec.ofNat 8 ((mgmtReg m (p + BitVec.ofNat 8 (i / 4))).toNat >>> (8 * (i % 4)))

/-- R430: a read transaction. -/
def doI2cRead (p : Byte) (count : Nat) (s : State) : State :=
  if mgmtOn s then
    emit (.i2c (mgmtOctets s.mgmt p count)) (modMgmt (fun m => { m with pointer := p + BitVec.ofNat 8 (count / 4) }) s)
  else s

/-- Meaning of I2C_READ. -/
def execI2cRead (p : Byte) (count : Nat) (s : State) : Host.Outcome State Fault Refusal := act (doI2cRead p count) s

/-- MGMT_STATE (R431). -/
def mgmtState (s : State) : Word :=
  BitVec.ofNat 32 (s.claim.st.code + s.start.phase.code * 16 + s.fw.mode * 256 + (if s.plinth.root.isNone then 1024 else 0) +
    fget s 0 Fl.CLAIM_DIAG_CAUSE * 4096 + fget s 0 Fl.CLAIM_DIAG_RESULT * 65536)

/-- MGMT_VREQ (R431). -/
def mgmtVreq (s : State) : Word :=
  BitVec.ofNat 32 (fget s 0 Fl.FABRIC_VREQ_VREQ_MV + fget s 0 Fl.FABRIC_RATE_RATE * 65536)

/-- R432: the HOT alert, armed again 5 °C below the limit. (DEDUCED, log 63) -/
def hotStep (temp : Int) (m : MgmtS) : MgmtS :=
  let limit := signedOf 16 m.limit.toNat
  if m.hotArmed && limit < temp then { m with alert := setBitAt 4 m.alert true, hotArmed := false }
  else if temp ≤ limit - 20 then { m with hotArmed := true }
  else m

/-- R430, R459: values are copied into the island, the highest die temperature among them. (DEDUCED, log 60) -/
def doMgmtRefresh (temp : Int) (s : State) : State :=
  modMgmt (fun m => hotStep temp { m with id := deviceWord s, vreq := mgmtVreq s, state := mgmtState s, temp := temp }) s

/-- Meaning of MGMT_REFRESH. -/
def execMgmtRefresh (temp : Int) (s : State) : Host.Outcome State Fault Refusal := act (doMgmtRefresh temp) s

end Sys2Proof.Machine
end

