-- ==== Sys2Proof/Machine/SlotStart.lean ====
section
/-!
DEFINITION. Slot starts and virtual slot starts (R66 to R68, R96): the slot is named, every buffered value of the berths and of the
MAC engine applies (R40, R93, R95, R99, R130, R134, R156), the gain and the correction of each berth are chosen (R98, R100,
R101), and the duties of the new slot fall due (R123, R124, R155, R168, R174, R175, R411).
-/

namespace Sys2Proof.Machine

/-! ### The receive plan -/

/-- The analogue bandwidth of an IBW code in kHz (R91). -/
def ibwKhz (code : Nat) : Nat := if code = 0 then 2500 else if code = 1 then 5000 else if code = 2 then 10000 else 84000

/-- The bin of a channel of a berth's plan, where it is one that the plan can use (R92, R93). (DEDUCED, log 17) -/
def binOf (s : State) (n c m : Nat) : Option Int :=
  let step : Int := (rxSpacing s n : Nat)
  let fc : Int := (rxKhz s n c : Nat)
  let twice : Int := 2 * (fc - (fget s (berthBase n) Fl.BERTH_RX_LO_KHZ : Nat)) - step
  let k := twice / (2 * step)
  let half : Int := (ibwKhz (fget s (berthBase n) Fl.BERTH_RX_PLAN_IBW) / (2 * rxSpacing s n) : Nat)
  let inBand := if n < 4 then 470000 ≤ fc && fc ≤ 960000 else 2400000 ≤ fc && fc ≤ 2483500 && 11 ≤ c && c ≤ 26
  if twice % (2 * step) = 0 && -half ≤ k && k < half && inBand && spacingOf m = fget s (berthBase n) Fl.BERTH_RX_PLAN_SPACING &&
      m ≤ 4 then some k
  else none

/-- R93: the bins of entries `j` on, given the channels and modes that lower entries took. -/
def binsFrom (s : State) (n : Nat) : Nat → Nat → List (Nat × Nat) → List (Option Int)
  | _, 0, _ => []
  | j, k + 1, seen =>
    let c := entryChan s n j
    let m := entryMode s n j
    match if bitAt 0 (chWord s n j) && !seen.contains (c, m) then binOf s n c m else none with
    | some b => some b :: binsFrom s n (j + 1) k ((c, m) :: seen)
    | none => none :: binsFrom s n (j + 1) k seen

/-- The bins of every entry of a berth under its applied plan (R93). -/
def binsOf (s : State) (n : Nat) : List (Option Int) := binsFrom s n 0 (berthEntries n) []

/-- An enabled entry failed its check (R93). -/
def planFails (s : State) (n : Nat) : Bool :=
  (List.range (berthEntries n)).any fun j => bitAt 0 (chWord s n j) && ((binsOf s n).getD j none).isNone

/-- The values whose change is a plan change (R95): RX_LO, SPACING, IBW, SFD_SET, FEC_RSC and RSC_ILV. -/
def planWords (s : State) (n : Nat) : Nat × Nat :=
  (fget s (berthBase n) Fl.BERTH_RX_LO_KHZ, bitsOf 6 0 (rd s (berthBase n + Reg.BERTH_RX_PLAN)))

/-! ### Buffered values of a berth -/

/-- RX_EN may apply as 1 (R99). (DEDUCED, log 17) -/
def rxMayStart (s : State) (n : Nat) : Bool := (getBerth s n).calValid && !(getBerth s n).calBusy

/-- The steps of a ramp table do not decrease, and the last is 255 (R130). (DEDUCED, log 17) -/
def rampOk (lo hi : Word) : Bool :=
  let bs := (leBytes 4 lo.toNat ++ leBytes 4 hi.toNat).map BitVec.toNat
  (bs.zip (bs.drop 1)).all (fun p => p.1 ≤ p.2) && bs.getD 7 0 = 255

/-- R134: a masked-channel entry may be enabled at a frequency. (DEDUCED, log 24) -/
def maskMayEnable (s : State) (n khz : Nat) : Bool :=
  match governing s khz (if n < 4 then 200 else 5000) with
  | some (_, e, code) => e.flags.testBit 4 && code ≠ 0 && code ≠ 3
  | none => false

/-- A front end ball is driven from the first applied TX_FEM on (R424). -/
def femApplied (n : Nat) (s : State) : State := modStart (fun x => { x with femDriven := x.femDriven.set n true }) s

/-- One buffered value of berth `n` at its slot start (R40, R99, R130, R134, R460 stage 2). (DEDUCED, log 17) -/
def applyBerthOne (n : Nat) (p : Nat × Word) (s : State) : State :=
  let base := berthBase n
  let off := p.1 - base
  if off = Reg.BERTH_RX_CTRL then
    if bitAt 0 p.2 && !rxMayStart s n then reject base (storeKey p.1 (setBitAt 0 p.2 (rxOn s n)) s) else storeKey p.1 p.2 s
  else if off = Reg.BERTH_TX_RAMP0 ∨ off = Reg.BERTH_TX_RAMP1 then
    if rampOk (nextVal s (base + Reg.BERTH_TX_RAMP0)) (nextVal s (base + Reg.BERTH_TX_RAMP1)) then storeKey p.1 p.2 s
    else reject base s
  else if Reg.BERTH_TX_MASK ≤ off then
    if bitAt 31 p.2 && !maskMayEnable s n (bitsOf 21 0 p.2) then setClipped (reject base s) else storeKey p.1 p.2 s
  else if off = Reg.BERTH_TX_FEM then femApplied n (storeKey p.1 p.2 s)
  else storeKey p.1 p.2 s

/-- R93, R95, R107: the entries take their bins; a plan change, a changed entry and RX_EN 0 turn demodulators off, and a new RX LO
frequency loses the lock until RX_LO_LOCKED. PLAN_ERR is set at every application that leaves a failed entry enabled.
(DESIGN CHOICE, log 73) -/
def replan (n : Nat) (old s : State) : State :=
  let bins := binsOf s n
  let s1 := if planFails s n then fset (berthBase n) Fl.BERTH_STATUS_PLAN_ERR 1 s else s
  let changed := planWords old n ≠ planWords s n
  let s2 := forBelow (berthEntries n) (fun j t =>
    if changed || !rxOn s n || (getBerth old n).bins.getD j none ≠ bins.getD j none || chWord old n j ≠ chWord s n j then demodOff n j t
    else t) s1
  let s3 := modBerth n (fun b => { b with
    bins := bins
    loLock := b.loLock && decide ((planWords old n).1 = (planWords s n).1) }) s2
  restAll n s3

/-- The buffered values of berth `n` apply together (R40). -/
def applyBerth (n : Nat) (s : State) : State :=
  let lo := berthBase n
  let l := pendIn s lo (lo + 0x400)
  if l.isEmpty || !berthPresent s n then s
  else
    let s1 := pendClear lo (lo + 0x400) (l.foldl (fun t p => applyBerthOne n p t) s)
    let s2 := replan n s s1
    if fbit s lo Fl.BERTH_TX_CTRL_TX_EN = fbit s2 lo Fl.BERTH_TX_CTRL_TX_EN then s2 else rehomeAll s2

/-! ### Gain and correction -/

/-- A demodulator of the berth is in PHR or PAYLOAD (R101). -/
def inFrame (b : BerthS) : Bool :=
  b.demods.any fun d => match d.st with
    | .phr | .payload => true
    | .off | .search | .sync | .blanked => false

/-- The whole of the slot that began at an instant was blanked (R100). -/
def blankedWhole (b : BerthS) (start : Instant) : Bool :=
  match b.blankEnd, b.onAir with
  | some _, some t => instantDiff start t.goAt ≤ 0
  | _, _ => false

/-- The gain for the new slot (R100), given the peak of the last slot in dB below full scale. (DESIGN CHOICE, log 18) -/
def nextGainOf (s : State) (n peak : Nat) (whole : Bool) : Nat :=
  let b := getBerth s n
  let base := berthBase n
  let man := fget s base Fl.BERTH_RX_CTRL_MAN_GAIN
  if fbit s base Fl.BERTH_RX_CTRL_AGC_MAN || b.firstSlot then man
  else if whole then b.gain
  else
    let want : Int := b.gain + ((peak : Int) - (fget s base Fl.BERTH_RX_AGC_CFG_TARGET_DB : Int)) / 2
    let w1 := if b.clipNow then min want ((b.gain : Int) - (fget s base Fl.BERTH_RX_AGC_CFG_CLIP_STEPS : Int)) else want
    (clampInt 0 36 (min w1 ((b.gain : Int) + (fget s base Fl.BERTH_RX_AGC_CFG_UP_STEPS : Int)))).toNat

/-- R100, R101: the gain of the new slot takes effect, or is deferred once for the frames in reception. (DESIGN CHOICE, log 18) -/
def setGain (next : Nat) (b : BerthS) : BerthS :=
  let due := next ≠ b.gain
  let mark (d : Demod) : Demod := { d with record := d.record.map fun r => { r with gainStep := true } }
  if due && inFrame b && !b.gainDeferred then { b with nextGain := next, gainDeferred := true }
  else
    { b with
      gain := next
      nextGain := next
      gainDeferred := false
      demods := if due && inFrame b then b.demods.map mark else b.demods }

/-- R98: the refined pair of the last slot is applied; how far it departs from the table is open. (DESIGN CHOICE, log 18) -/
def trackStep (n : Nat) (v : BitVec 64) (s : State) : State :=
  let b := getBerth s n
  let dc := (v >>> 8).toNat % 256
  let im := max 45 ((v >>> 16).toNat % 256)
  let s1 := modBerth n (fun x => { x with dcRes := dc, imageRej := im }) s
  if v.getLsbD 24 then
    let s2 := modBerth n (fun x => { x with trackLimit := true, trackLatched := true }) s1
    if b.trackLatched then s2 else raise (8 * n + 3) (im + 256 * dc) s2
  else s1

/-- The receive side of berth `n` at a slot start (R98, R100 to R102, R119). The last slot began at `start`; its peak, where no
clip told it, is open. -/
def rxSlot (start : Instant) (n : Nat) (s : State) : State :=
  if !berthPresent s n then s
  else
    let b := getBerth s n
    let v := Config.freeValue s.draws
    let whole := blankedWhole b start
    let peak := b.peakNow.getD (v.toNat % 256)
    let measured := rxOn s n && !b.firstSlot && !whole
    let next := if rxOn s n || fbit s (berthBase n) Fl.BERTH_RX_CTRL_AGC_MAN then nextGainOf s n peak whole else b.gain
    let s1 := modBerth n (fun x =>
      let y := setGain next x
      { y with
        firstSlot := !rxOn s n
        peakNow := none
        peakLast := if measured then peak else x.peakLast
        clipNow := false
        clipLast := x.clipNow
        demodLastPeak := x.demodPeak
        demodPeak := demodsNow x }) (drawFree s)
    if measured && b.calValid && !b.calBusy then trackStep n v s1 else s1

/-! ### The transmit side -/

/-- The requests of berth `n` whose go instants lie behind are dropped. (DEDUCED, log 21) -/
def dropLate (n : Nat) (s : State) : State :=
  let now := nowNs s
  let late (t : Tx) : Bool := instantLater t.goAt now
  let l := (getBerth s n).requests.filter late
  l.foldl (fun s t => lateReq t s) (modBerth n (fun b => { b with requests := b.requests.filter fun t => !late t }) s)

/-- A raw frame whose slot passed before it was planned ends (R257). -/
def expireRaw (s : State) : State :=
  let gone := s.mac.queue.filter fun q => (q.rawAt.any fun p => slotDist p.1 s.time.name > 0) && !inFlight s q.id
  gone.foldl (fun t q => frameEnded q .berthUnavailable (0 < q.attempts) .linkFail t) s

/-- The berth has transmit work in a slot (R124, R155). -/
def txWorkIn (s : State) (n : Nat) (p : SlotName) : Bool :=
  !(getBerth s n).requests.isEmpty || (meshOn s && (!(txCellsAt s n p).isEmpty || (isBaSlot s p && (baBerth s (bandOfBerth n)).1 = n)))

/-- R124: a due refresh starts at t = 2 µs of a slot without transmit work and classic receive cells. (DEDUCED, log 31) -/
def startRefresh (n : Nat) (s : State) : State :=
  let b := getBerth s n
  if b.refreshDue.isSome && !b.synCal && !b.calBusy && !b.txWork && b.ackMask.isEmpty then
    modBerth n (fun x => { x with synCal := true, synCalMono := monoNs s + 2000 }) s
  else s

/-- The transmit side of berth `n` at a slot start (R123, R124, R155): with slots, their cells count. -/
def txSlot (slots : Bool) (n : Nat) (s : State) : State :=
  if !berthPresent s n then s
  else
    let s1 := dropLate n s
    let mask := if slots then ackEntries s1 n s1.time.name else []
    let work := if slots then txWorkIn s1 n s1.time.name else !(getBerth s1 n).requests.isEmpty
    let s2 := modBerth n (fun b => { b with ackMask := mask, txWork := work, retuneDue := none }) s1
    startRefresh n (refreshLate n (retuneNext n s2))

/-! ### The MAC engine -/

/-- EB state of a berth. -/
def getEb (s : State) (b : Nat) : EbS := s.mac.ebs.getD b ⟨false, 0, false⟩

/-- R175: the third suppression in a row starves the berth. (DEDUCED, log 30) -/
def ebStarved (b : Nat) (s : State) : State :=
  let s1 := modMac (fun m => { m with ebs := m.ebs.modify b fun e => { e with forced := true } }) s
  raiseAux 66 b (auxNow s) (wr Reg.MAC_STATUS (setBitAt (8 + b) (rd s1 Reg.MAC_STATUS) true) s1)

/-- R174, R175: an EB falls due on a berth; one that was due and not sent is suppressed. (DEDUCED, log 30) -/
def ebDue (b : Nat) (s : State) : State :=
  let e := getEb s b
  if e.due then
    let s1 := modMac (fun m => { m with ebs := m.ebs.set b { e with suppressed := e.suppressed + 1 } })
      (bump 0 Ct.MAC_EB_SUPPRESS s)
    if e.suppressed + 1 = 3 then ebStarved b s1 else s1
  else modMac (fun m => { m with ebs := m.ebs.set b { e with due := true } }) s

/-- R174: EBs fall due on every EB berth. -/
def ebsFallDue (s : State) : State := if ebDueIn s s.time.name then (ebBerths s).foldl (fun t b => ebDue b t) s else s

/-- R168: the new slot joins what the block-ack frames of a band have to cover. (DEDUCED, log 29) -/
def baJoin (q : Nat) (s : State) : State :=
  if berthPresent s (baBerth s q).1 then
    let n := s.time.name
    modBa q (fun a => { a with slots := a.slots ++ [(⟨n.count, isWide s q n, 0⟩ : BaSlot)] }) s
  else s

/-- The MAC engine's duties of a new slot. `was`: MESH_EN was applied before this slot start, whose own EBs an applying MESH_EN
already made due. -/
def macSlot (was : Bool) (s : State) : State :=
  if meshOn s && gateOpen s then baJoin 1 (baJoin 0 (if was then ebsFallDue s else s)) else s

/-! ### Slot starts -/

/-- Every berth's buffered values, then the MAC engine's (R40, R156). (DEDUCED, log 17) -/
def applyAll (s : State) : State := macApply (forBelow 6 applyBerth s)

/-- What every slot start and virtual slot start brings, after the slot is named. -/
def slotBegins (slots : Bool) (lastStart : Instant) (s : State) : State :=
  let was := meshOn s
  let s1 := forBelow 6 (rxSlot lastStart) (applyAll s)
  let s2 := dockTick s1
  if slots then macSlot was (forBelow 6 (txSlot true) (expireRaw s2)) else forBelow 6 (txSlot false) s2

/-- R66 to R68: time reaches the next slot start, and the slot is named. -/
def nameSlot (s : State) : State :=
  let at0 := nextSlotStart s
  let s1 := elapseToNs at0 s
  match s.time.slots with
  | .armed =>
    slotsChanged true (modTime (fun t => { t with slots := .running, slotStart := at0 }) (applyTime id s1))
  | _ => modTime (fun t => { t with slotStart := at0 }) (applyTime advanceSlot s1)

/-- SLOT_START (R66 to R68): in mode TIDE an armed start waits until slot starts were adopted (R85). -/
def doSlotStart (s : State) : State :=
  match s.time.slots with
  | .armed => if disc s = 2 ∧ s.time.adopted.isNone then s else slotBegins true s.time.slotStart (nameSlot s)
  | .running => slotBegins true s.time.slotStart (nameSlot s)
  | .stopped | .stopping => s

/-- Meaning of SLOT_START. -/
def execSlotStart (s : State) : Host.Outcome State Fault Refusal := act doSlotStart s

/-- VIRTUAL_SLOT_START (R96). -/
def doVirtualSlotStart (s : State) : State :=
  if slotsOn s then s
  else
    let at0 := s.time.nextVirtual
    let s1 := elapseToMono at0 s
    slotBegins false (nowNs s - nsStep (slotLenNs s)) (modTime (fun t => { t with nextVirtual := at0 + slotLenNs s1 }) s1)

/-- Meaning of VIRTUAL_SLOT_START. -/
def execVirtualSlotStart (s : State) : Host.Outcome State Fault Refusal := act doVirtualSlotStart s

end Sys2Proof.Machine
end

