-- ==== Sys2Proof/Machine/Flags.lean ====
section
/-!
DEFINITION. What a read of every register shows (R37 to R40): the stored word with its write-only bits 0, and over it the status
flags and the read-only fields that follow from the state, block by block, as the register tables of the chapters give them.
-/

namespace Sys2Proof.Machine

/-- A flag at bit `k` of a word. -/
def flagAt (k : Nat) (c : Bool) : Nat := if c then 2 ^ k else 0

/-- A word of the register file. -/
def word32 (n : Nat) : Word := BitVec.ofNat 32 n

/-- A signed value in a register. -/
def signed32 (i : Int) : Word := BitVec.ofInt 32 i

/-- A word with the read-only fields `mask` replaced by those of `v`. -/
def overlay (w : Word) (mask v : Nat) : Word := (w &&& ~~~(word32 mask)) ||| (word32 v &&& word32 mask)

/-! ### Own views -/

/-- IDENT (R52). -/
def shownIdent (s : State) (f off : Nat) (w : Word) : Word :=
  if off = Reg.IDENT_DEVICE then deviceWord s
  else if off = Reg.IDENT_BERTHS then (if s.otp.is2614 then 0x000F else 0x303F)
  else if off = Reg.IDENT_FUNC then word32 (f + 8 * portOf f + flagAt 4 (f = hmFn s) + 256 * hmFn s)
  else if off = Reg.IDENT_GRANTED then
    if f = hmFn s then (if s.otp.is2614 then 0x1FFF9F else 0x1FFFFF) else grantWord s f
  else if off = Reg.IDENT_OUI then word32 s.otp.oui.toNat
  else if off = Reg.IDENT_EUI_LO then word32 s.otp.eui.toNat
  else if off = Reg.IDENT_EUI_HI then word32 (s.otp.eui.toNat / 2 ^ 32)
  else if off = Reg.IDENT_FW then word32 (identFw s)
  else if off = Reg.IDENT_INCARNATION then word32 s.flash.boot.incarnation.toNat
  else w

/-- RING_STEV_STATE of a stevedore (R294). -/
def stevState (s : State) (i : Nat) : Nat :=
  if unitFenced s (4 + i) then 4
  else match s.stevs.getD i none with
    | some j => j.cls + 1
    | none => 0

/-- Four bits for each of eight, first lowest. -/
def nibbles (g : Nat → Nat) : Nat := ((List.range 8).map fun i => g i % 16 * 16 ^ i).sum

/-- RING (R294). -/
def shownRing (s : State) (f off : Nat) (w : Word) : Word :=
  let x := getFn s f
  if off = Reg.RING_STATUS then
    overlay w 0x07FF01C0
      (flagAt 6 x.quiesced + flagAt 7 (fnPaused s f) + flagAt 8 (!(validFaults s f).isEmpty) + x.held.length % 2048 * 2 ^ 16)
  else if off = Reg.RING_STEV_STATE then word32 (nibbles (stevState s))
  else if off = Reg.RING_FN_STATE then word32 (nibbles (fnState s))
  else if Reg.RING_BASE_LO ≤ off ∧ off < 0x300 then
    let r := (off - Reg.RING_BASE_LO) / 0x20
    let k := (off - Reg.RING_BASE_LO) % 0x20
    if k = 0x0C then overlay w 8 (flagAt 3 (ringOn s f r))
    else if k = 0x10 then (getRing s f r).head
    else if k = 0x14 then (getRing s f r).tail
    else w
  else w

/-- HOST_TAG of what is parked (R295); none where no rule gives one (a descriptor not fetched yet). (DESIGN CHOICE, log 42) -/
def parkedTag (s : State) (f : Nat) (j : Job) : Option Word :=
  match j.what with
  | .doorbell | .entry _ _ | .status | .deliver none => some 0xFFFFFFFF
  | .fetch _ _ => none
  | .deliver (some (p, _)) => some p.tag
  | .gather r i | .campResume r i | .respond r i _ _ | .ckptLoad r i => (findDesc s f r i).map DescS.tag
  | .campGather c _ | .campRecord c _ _ => (getCamp s c).map fun c => c.tag
  | .ckptWrite | .ckptBack => s.claim.area.map fun a => a.tag

/-- The ring and the ring index of what is parked (R295); none where it belongs to no ring. -/
def parkedIndex (s : State) (f : Nat) (j : Job) : Option (Nat × Word) :=
  match j.what with
  | .entry c _ => some (c, (getRing s f c).tail)
  | .deliver (some (p, _)) => some (3, indexOf p.index)
  | _ => (jobHome s j).map fun h => (h.1, indexOf h.2)

/-- One register of a fault record (R295). (DESIGN CHOICE, log 42) -/
def faultReg (s : State) (f i k : Nat) : Word :=
  match getFault s f i with
  | none => 0
  | some r =>
    let free := word32 (Config.freeValue s.draws).toNat
    let at' := parkedIndex s f r.job
    if k = 0x00 then
      word32 (1 + flagAt 1 r.auto + 4 * r.job.what.site + 32 * r.kind +
        256 * (match at' with
          | some p => p.1
          | none => free.toNat % 8) + flagAt 11 r.job.write)
    else if k = 0x04 then word32 (jobAt s r.job)
    else if k = 0x08 then word32 (jobAt s r.job / 2 ^ 32)
    else if k = 0x0C then word32 r.job.moved
    else if k = 0x10 then word32 (r.job.total - r.job.moved)
    else if k = 0x14 then (parkedTag s f r.job).getD free
    else match at' with
      | some p => p.2
      | none => free

/-- XLATE (R295). -/
def shownXlate (s : State) (f off : Nat) (w : Word) : Word :=
  if off = Reg.XLATE_STATUS then
    overlay w 0x00FFFFC0 (flagAt 6 (getFn s f).ats + flagAt 7 (getFn s f).pri +
      ((List.range 16).map fun i => flagAt (8 + i) (getFault s f i).isSome).sum)
  else if Reg.XLATE_FAULT_INFO ≤ off ∧ (off - Reg.XLATE_FAULT_INFO) % 0x20 ≠ 0x1C then
    faultReg s f ((off - Reg.XLATE_FAULT_INFO) / 0x20) ((off - Reg.XLATE_FAULT_INFO) % 0x20)
  else w

/-- TBL (R222): the locks that the function holds. -/
def shownTbl (s : State) (f off : Nat) (w : Word) : Word :=
  if off = Reg.TBL_INFO then overlay w 0xF00 (((s.tables.locks.filter fun l => l.fn = f).length) * 256) else w

/-! ### Radio and time -/

/-- The floor of an entry as RX_FLOOR shows it (R112, R119): that of the detection while the average stands still, open in SEARCH.
(DESIGN CHOICE, log 18) -/
def floorShown (s : State) (n j : Nat) : Nat :=
  let d := getDemod s n j
  match d.st with
  | .sync | .phr | .payload => unsignedOf 16 (level16 (d.floor - rssiOfs s n))
  | .search | .blanked => (Config.freeValue s.draws).toNat % 65536
  | .off => if entryOn s n j then (Config.freeValue s.draws).toNat % 65536 else 0

/-- BERTHn (R119, R146); `off` is relative to the block. (DESIGN CHOICE, log 18) -/
def shownBerth (s : State) (n off : Nat) (w : Word) : Word :=
  let b := getBerth s n
  let base := berthBase n
  if off = Reg.BERTH_STATUS then
    overlay w 0x002F04C6
      (flagAt 1 (rxOn s n) + flagAt 2 b.loLock + flagAt 6 b.calBusy + flagAt 7 b.calValid + flagAt 10 b.trackLimit +
        flagAt 16 (fbit s base Fl.BERTH_TX_CTRL_TX_EN) + flagAt 17 b.txLock + flagAt 18 b.blankEnd.isSome + flagAt 19 (b.synCal && b.synCalMono ≤ monoNs s) +
        flagAt 21 (profile s).isNone)
  else if off = Reg.BERTH_RX_AGC then word32 (b.gain + 256 * b.nextGain + 65536 * b.peakLast + flagAt 24 b.clipLast)
  else if off = Reg.BERTH_RX_TRACK then word32 (b.dcRes + 256 * b.imageRej)
  else if off = Reg.BERTH_RX_FLOOR then word32 (floorShown s n (fget s base Fl.BERTH_RX_FLOOR_SEL_ENTRY))
  else if off = Reg.BERTH_RX_DEMODS then word32 (demodsNow b + 256 * b.demodLastPeak)
  else if Reg.BERTH_RX_CH ≤ off ∧ off < Reg.BERTH_TX_CTRL then
    putBits 24 18 w (match b.bins.getD ((off - Reg.BERTH_RX_CH) / 4) none with
      | some k => unsignedOf 7 k
      | none => 0x40)
  else if off = Reg.BERTH_TX_SYN_STATE then word32 (b.synKhz + b.vcoBand % 64 * 2 ^ 22)
  else if off = Reg.BERTH_TX_TAP_DATA then word32 (tapShown s n).toNat
  else w

/-- The bits of a coexistence group in BCOM_COEX_STATE (R138, R147). -/
def coexShown (s : State) (g : Nat) : Nat :=
  let on := gateOpen s && fbit s (4 * g) Fl.BCOM_COEX_CFG_EN
  flagAt 0 (on && !(coexHolders s g).isEmpty) + flagAt 1 (grantActive s g (s.bcom.gnt.getD g false)) +
    flagAt 2 (on && (coexHolders s g).any fun t => t.cls.prior)

/-- BCOM (R147). -/
def shownBcom (s : State) (off : Nat) (w : Word) : Word :=
  if off = Reg.BCOM_STATUS then
    overlay w 0x700 (flagAt 8 (profile s).isSome + flagAt 9 s.otp.profile.isSome +
      flagAt 10 (match s.otp.profile with
        | some bs => numAt bs 0 1 ≠ 0 && (profile s).isNone
        | none => false))
  else if off = Reg.BCOM_COEX_STATE then word32 (coexShown s 0 + 16 * coexShown s 1)
  else if Reg.BCOM_DUTY_USED ≤ off ∧ off < Reg.BCOM_PROF_CTRL ∧ off % 8 = 0 then
    word32 (min 0xFFFFFFFF (dutyUsed s ((off - Reg.BCOM_DUTY_USED) / 8)))
  else if Reg.BCOM_PROF ≤ off then profWord s ((off - Reg.BCOM_PROF) / 4)
  else w

/-- TIME (R87); the own-row reads are TIME_RSN and TIME_CAPTn. (DESIGN CHOICE, log 13) -/
def shownTime (s : State) (f off : Nat) (w : Word) : Word :=
  if off = Reg.TIME_STATUS then
    overlay w 0x3C2
      (flagAt 1 (slotsOn s) + 64 * s.time.ref.code + flagAt 8 (s.time.adjRem ≠ 0) + flagAt 9 s.time.epochSat)
  else if off = Reg.TIME_INC_EFF then signed32 (incEff s)
  else if off = Reg.TIME_ADJ_REM then signed32 (quotient s.time.adjRem 4294967296)
  else if off = Reg.TIME_SNAP_SLOT_T then if slotsOn s then w else 0x7FFFFFF
  else if off = Reg.TIME_RSN then s.time.name.rsn.word
  else if off = Reg.TIME_EPOCH then word32 ((s.time.epochLatch.find f).getD s.time.name.epoch).toNat
  else if off = Reg.TIME_SERVO then signed32 s.time.servoCorr
  else w

/-! ### The mesh -/

/-- The neighbour that MAC_NBR_SEL selects (R184). -/
def nbrSelected (s : State) : Option Nbr := nbrGet s (fget s 0 Fl.MAC_NBR_SEL_HANDLE)

/-- MAC (R184). -/
def shownMac (s : State) (off : Nat) (w : Word) : Word :=
  if off = Reg.MAC_STATUS then overlay w 2 (flagAt 1 (meshOn s))
  else if off = Reg.MAC_CELL_DATA0 then (cellShown s).d0
  else if off = Reg.MAC_CELL_DATA1 then (cellShown s).d1
  else if off = Reg.MAC_HOP_DATA then word32 (hopShown s)
  else if off = Reg.MAC_NBR_DRIFT then
    match nbrSelected s with
    | some x => word32 (unsignedOf 16 x.d + flagAt 16 x.held)
    | none => word32 (flagAt 17 (s.mac.lost.contains (fget s 0 Fl.MAC_NBR_SEL_HANDLE)))
  else if off = Reg.MAC_NBR_OFFSET then
    match nbrSelected s with
    | some x => signed32 (clampInt (-2147483648) 2147483647 (oPred x (nowNs s)))
    | none => 0
  else w

/-- ROUTE (R223). -/
def shownRoute (s : State) (off : Nat) (w : Word) : Word :=
  if off = Reg.ROUTE_STATUS then overlay w 0x40 (flagAt 6 (fbit s 0 Fl.ROUTE_CTRL_RPL_EN))
  else if off = Reg.ROUTE_HASH_SEED0_LO then word32 s.tables.seed0.toNat
  else if off = Reg.ROUTE_HASH_SEED0_HI then word32 (s.tables.seed0.toNat / 2 ^ 32)
  else if off = Reg.ROUTE_HASH_SEED1_LO then word32 s.tables.seed1.toNat
  else if off = Reg.ROUTE_HASH_SEED1_HI then word32 (s.tables.seed1.toNat / 2 ^ 32)
  else if off = Reg.ROUTE_STRAY then word32 s.tables.strays.length
  else w

/-- SVC (R259). -/
def shownSvc (s : State) (off : Nat) (w : Word) : Word :=
  let g := fget s 0 Fl.SVC_GROUP_SEL_GROUP
  if off = Reg.SVC_STATUS then overlay w 2 (flagAt 1 (svcOn s))
  else if off = Reg.SVC_GROUP_INFO then word32 (groupMembers s g + 2 ^ 24 * groupOwner s g)
  else if off = Reg.SVC_USAGE then word32 (s.svc.txns.length + 2 ^ 17 * s.svc.reasm.length)
  else w

/-- CAMP (R314): the campaign and the block that CAMP_SEL names; every field 0, and END_REASON 0xFF, where there is none.
(DEDUCED, log 46) -/
def shownCamp (s : State) (off : Nat) (w : Word) : Word :=
  if off = Reg.CAMP_STATUS then
    overlay w 0x1F40 (flagAt 6 (unitFenced s 30) + 256 * (s.camp.camps.filter Camp.active).length)
  else if Reg.CAMP_V_NONCE ≤ off ∧ off ≤ Reg.CAMP_BLK_K then
    match getCamp s (fget s 0 Fl.CAMP_SEL_ID) with
    | none => if off = Reg.CAMP_V_STATE then 0x00FF0000 else 0
    | some c =>
      let b := c.blk (fget s 0 Fl.CAMP_SEL_SBN)
      let there := decide (fget s 0 Fl.CAMP_SEL_SBN < c.z)
      if off = Reg.CAMP_V_NONCE then word32 c.nonce.toNat
      else if off = Reg.CAMP_V_STATE then word32 (campState c + 16 * c.owner + 256 * (c.z - 1) + 65536 * campReason c)
      else if off = Reg.CAMP_V_PERCENT then word32 (percentOf s c)
      else if off = Reg.CAMP_V_POSITION then c.position
      else if off = Reg.CAMP_V_TARGETS then word32 (targetsLive s c.id).length
      else if off = Reg.CAMP_V_COMPLETE then word32 (targetsIn s c.id 3)
      else if off = Reg.CAMP_V_REFUSED then word32 (targetsIn s c.id 4)
      else if off = Reg.CAMP_V_CKPT_SEQ then c.seq
      else if !there then 0
      else if off = Reg.CAMP_BLK_STATE then word32 (b.nextEsi + flagAt 24 b.retired + flagAt 25 b.exhausted)
      else if off = Reg.CAMP_BLK_LIMIT then word32 b.limit
      else word32 b.k
  else w

/-! ### Keys, hold, claim and firmware -/

/-- Whole seconds from now to an instant of MONO, whose rounding no rule states (R337, R398). -/
def secondsTo (s : State) (t : Nat) : Nat := (quotient ((t : Int) - (monoNs s : Int)) 1000000000).toNat

/-- KEY (R337). -/
def shownKey (s : State) (off : Nat) (w : Word) : Word :=
  let m := getMould s (fget s 0 Fl.KEY_SLOT_SEL_SLOT)
  if off = Reg.KEY_SLOT_STATE then
    word32 (m.state + 4 * m.use + flagAt 4 m.prior.isSome + 256 * m.version.toNat + 65536 * (match m.graceMono with
      | some t => min 65535 (secondsTo s t)
      | none => 0))
  else if off = Reg.KEY_SLOTS then
    word32 ((List.range 16).map fun i =>
      flagAt i (getMould s i).current.isSome + flagAt (16 + i) (getMould s i).prior.isSome).sum
  else if off = Reg.KEY_CACHE then
    word32 (s.keys.cache.length + s.keys.graces.length + 65536 * s.keys.graces.length)
  else w

/-- PLINTH (R338). -/
def shownPlinth (s : State) (off : Nat) (w : Word) : Word :=
  if off = Reg.PLINTH_STATUS then
    overlay w 0x3FC0
      (flagAt 6 (rootValid s) + flagAt 7 (!(rootValid s)) + flagAt 8 (idUsable s) + flagAt 9 (bitAt 3 (rd s Reg.PLINTH_TAMPER_NOW)) +
        1024 * s.otp.imgKeys.length + flagAt 13 s.fw.imgKeyOk)
  else if Reg.PLINTH_PUBKEY ≤ off ∧ off < Reg.PLINTH_KEY_ID then
    if idUsable s then beWordAt (modulusOctets s) ((off - Reg.PLINTH_PUBKEY) / 4) else 0
  else if Reg.PLINTH_KEY_ID ≤ off then beWordAt (beBytes 32 (keyId s).toNat) ((off - Reg.PLINTH_KEY_ID) / 4)
  else w

/-- HOLD (R361). (DEDUCED, log 52) -/
def shownHold (s : State) (off : Nat) (w : Word) : Word :=
  let e := s.hold.log[fget s 0 Fl.HOLD_LOG_SEL_INDEX]?
  let bank := fget s 0 Fl.HOLD_SPARE_SEL_BANK
  if off = Reg.HOLD_STATUS then overlay w 0x40 (flagAt 6 s.start.selftestOk)
  else if off = Reg.HOLD_POOL then word32 (cellsFree s + 65536 * s.hold.lowWater)
  else if off = Reg.HOLD_QSTATE then
    word32 (min 65535 (queueItems s (fget s 0 Fl.HOLD_QSEL_QID)) + 65536 * ((Config.freeValue s.draws).toNat % 65536))
  else if off = Reg.HOLD_LOG_LOC then
    match e with
    | some x => word32 x.loc.toNat
    | none => 0
  else if off = Reg.HOLD_LOG_INFO then
    match e with
    | some x => word32 (x.count + 256 + flagAt 9 x.recurring + 1024 * x.bit)
    | none => 0
  else if off = Reg.HOLD_REPAIR_STATUS then
    overlay w 0x3F3F (s.otp.repairs.length + 256 * (s.otp.repairs.filter fun r => r.pending).length)
  else if off = Reg.HOLD_SPARE then
    let field := ((fieldRows s bank).filter fun r => !r.pending).length
    word32 (factoryRows s bank + 32 * field + 1024 * (16 - factoryRows s bank - (fieldRows s bank).length))
  else w

/-- CLAIM (R383). -/
def shownClaim (s : State) (off : Nat) (w : Word) : Word :=
  if off = Reg.CLAIM_STATUS then
    overlay w 0x3FFFC0
      (flagAt 6 s.claim.gate + flagAt 7 s.claim.ckptLoaded + 256 * s.claim.st.code + flagAt 11 s.claim.quiet +
        2 ^ 12 * (ownClaim s).toNat + 2 ^ 16 * s.claim.bus.toNat + flagAt 20 (s.claim.failoverIn || s.claim.failoverOut) +
        flagAt 21 s.claim.failoverOut)
  else if off = Reg.CLAIM_PRIO then word32 s.start.straps.claim.val
  else w

/-- FABRIC (R32). -/
def shownFabric (s : State) (off : Nat) (w : Word) : Word :=
  if off = Reg.FABRIC_STATUS then overlay w 1 (flagAt 0 s.fabric.unfencing.isSome)
  else if off = Reg.FABRIC_PILOT_STATE then
    word32 ((List.range 4).map fun c => s.fabric.pilots.getD c 0 % 16 * 16 ^ c).sum
  else w

/-- FW (R398). -/
def shownFw (s : State) (off : Nat) (w : Word) : Word :=
  let signer (i : Nat) : Signer := getSigner s i
  if off = Reg.FW_STATUS then
    overlay w 0xFFFF07C0
      (flagAt 6 s.fw.lease.isSome + flagAt 7 s.fw.journalFull + 256 * (match s.fw.lease with
        | some l => l.holder
        | none => 0) + 2 ^ 16 * s.flash.boot.slotA.code + 2 ^ 24 * s.flash.boot.slotB.code)
  else if off = Reg.FW_STAGE then word32 ((s.fw.lease.map fun l => l.staged).getD 0)
  else if off = Reg.FW_STAGE_LEN then word32 ((s.fw.lease.map fun l => l.len).getD 0)
  else if off = Reg.FW_TRIAL then word32 (min 4095 ((s.fw.trialMono.map (secondsTo s)).getD 0))
  else if off = Reg.FW_BOOT_INFO then
    word32 (flagAt 0 s.fw.slotB + 2 * s.fw.store + flagAt 2 s.fw.prevUsed + 16 * s.flash.boot.lastFallback)
  else if off = Reg.FW_SECVER then word32 s.otp.secver
  else if off = Reg.FW_SIGNER then
    word32 (((List.range 4).map fun i => flagAt i (signer i).fused + flagAt (4 + i) (signer i).revoked).sum + 256 * s.fw.lastSigner)
  else if off = Reg.FW_SET_VAL then setItem s (fget s 0 Fl.FW_SET_SEL_ITEM)
  else if off = Reg.FW_FALLBACK_CNT then word32 s.flash.boot.fallbacks
  else w

/-- BRINGUP (R418); PORTp_DATA has its own row. -/
def shownBringup (s : State) (off : Nat) (w : Word) : Word :=
  if off = Reg.BRINGUP_STATUS then overlay w 0xF00 (256 * s.start.phase.code + flagAt 11 (stalling s))
  else if Reg.BRINGUP_PORT_CFG ≤ off ∧ off % 0x10 = 4 then
    let t := getTap s ((off - Reg.BRINGUP_PORT_CFG) / 0x10)
    overlay w 0x7F11 (flagAt 0 t.fifo.isEmpty + flagAt 4 t.lastFirst + 256 * t.fifo.length)
  else w

/-- TEST (R419). -/
def shownTest (s : State) (off : Nat) (w : Word) : Word :=
  if off = Reg.TEST_STATUS then
    overlay w 0x7C0 (flagAt 6 s.start.docked.isSome + 128 * s.start.docked.getD 0 + flagAt 10 s.start.katUnit.isSome)
  else if off = Reg.TEST_RESET_CAUSE then word32 (s.start.cause + 65536 * s.start.resets)
  else w

/-! ### Every block -/

/-- A value of the block waits for its boundary (R38, R40). -/
def blockPending (s : State) (f : Nat) (b : Block) : Bool :=
  match b with
  | .ring => !(pendIn s (fb f + 0x100) (fb f + 0x800)).isEmpty
  | .berth n => !(pendIn s (berthBase n.val) (berthBase n.val + 0x400)).isEmpty
  | .time => !(pendIn s 0x6000 0x6400).isEmpty
  | .mac => !(pendIn s 0x6400 0x6800).isEmpty
  | .fw => !(getStore s s.fw.store).journal.isEmpty
  | _ => false

/-- The block has a status register with the common bits of R38. -/
def hasStatus (b : Block) : Bool :=
  match b with
  | .ident | .evt | .gevt => false
  | _ => true

/-- The common bits of a status register that follow from the state (R38). -/
def shownCommon (s : State) (f : Nat) (b : Block) (w : Word) : Word :=
  let busy : Bool := match b with
    | .fabric | .tbl => bitAt 0 w
    | _ => blockBusy s b
  setBitAt 4 (setBitAt 0 w busy) (blockPending s f b)

/-- What a read by function `f` of a register shows (R37). -/
def regShown (s : State) (f : Nat) (b : Block) (r : RegRow) (off : Nat) : Word :=
  let w0 := rd s (keyOf f off) &&& ~~~(word32 r.wo)
  let w1 := match b with
    | .ident => shownIdent s f off w0
    | .ring => shownRing s f off w0
    | .xlate => shownXlate s f off w0
    | .tbl => shownTbl s f off w0
    | .evt | .gevt => w0
    | .bringup => shownBringup s off w0
    | .berth n => shownBerth s n.val (off - berthBase n.val) w0
    | .bcom => shownBcom s off w0
    | .time => shownTime s f off w0
    | .mac => shownMac s off w0
    | .route => shownRoute s off w0
    | .svc => shownSvc s off w0
    | .camp => shownCamp s off w0
    | .key => shownKey s off w0
    | .plinth => shownPlinth s off w0
    | .hold => shownHold s off w0
    | .fabric => shownFabric s off w0
    | .claim => shownClaim s off w0
    | .fw => shownFw s off w0
    | .test => shownTest s off w0
  if hasStatus b && isStatus b r then shownCommon s f b w1 else w1

end Sys2Proof.Machine
end

