-- ==== Sys2Proof/Machine/RegWrite.lean ====
section
/-!
DEFINITION. Host writes and reads of the registers that have no row of their own (R34 to R42, R54, R460): what each register does
with a written word, posted values and their acknowledgement, counters cleared through CNT_SAT, injected events, and reads.
-/

namespace Sys2Proof.Machine

/-! ### Counters -/

/-- The offset of the counter of bit 0 of a CNT_SAT register (R42); offsets of BERTHn relative to its block. -/
def satFirst (b : Block) (off : Nat) : Option Nat :=
  match b with
  | .berth _ => if off = Reg.BERTH_CNT_SAT then some Reg.BERTH_RX_OK_CNT else none
  | .fabric => if off = Reg.FABRIC_CNT_SAT then some Reg.FABRIC_REPLAY_CNT else none
  | .evt => if off = Reg.EVT_CNT_SAT then some Reg.EVT_LOST_CNT else none
  | .time => if off = Reg.TIME_CNT_SAT then some Reg.TIME_PPS_GLITCH_CNT else none
  | .bcom => if off = Reg.BCOM_CNT_SAT then some Reg.BCOM_SET_CLIP_CNT else none
  | .mac => if off = Reg.MAC_CNT_SAT then some Reg.MAC_RX_ACCEPT_CNT else none
  | .route => if off = Reg.ROUTE_CNT_SAT then some Reg.ROUTE_DAO_CNT else none
  | .svc => if off = Reg.SVC_CNT_SAT then some Reg.SVC_TXN_OK_CNT else none
  | .ring => if off = Reg.RING_CNT_SAT then some Reg.RING_DESC_CNT else none
  | .xlate => if off = Reg.XLATE_CNT_SAT then some Reg.XLATE_ATC_HIT_CNT else none
  | .camp => if off = Reg.CAMP_CNT_SAT then some Reg.CAMP_FRAME_CNT else none
  | .key => if off = Reg.KEY_CNT_SAT then some Reg.KEY_DERIVE_CNT else none
  | .hold => if off = Reg.HOLD_CNT_SAT then some Reg.HOLD_CE_CNT else none
  | .claim => if off = Reg.CLAIM_CNT_SAT then some Reg.CLAIM_PROBE_CNT else none
  | .fw => if off = Reg.FW_CNT_SAT then some Reg.FW_STAGE_BUSY_CNT else none
  | .test => if off = Reg.TEST_CNT_SAT then some Reg.TEST_KAT_CNT else none
  | .ident | .tbl | .bringup | .plinth | .gevt => none

/-- The offset of the counter of bit `i`: the transmit counters of a berth start a group of their own (R119, R146). -/
def satCounter (b : Block) (first i : Nat) : Nat :=
  match b with
  | .berth n => berthBase n.val + (if i < 16 then first + 4 * i else Reg.BERTH_TX_FRAME_CNT + 4 * (i - 16))
  | _ => first + 4 * i

/-- R42: each bit written as 1 clears its bit and its counter; FALLBACKS lives in the boot record (R398). -/
def clearSat (f off : Nat) (b : Block) (r : RegRow) (first : Nat) (v : Word) (s : State) : State :=
  forBelow 32 (fun i t =>
    if bitAt i v && bitAt i (BitVec.ofNat 32 r.w1c) then
      if b = .fw ∧ i = 2 then clearFallbacks t
      else
        let t1 := wr (keyOf f (satCounter b first i)) 0 t
        wr (keyOf f off) (setBitAt i (rd t1 (keyOf f off)) false) t1
    else t) s

/-- A write to a CNT_SAT register. -/
def doCntSatClear (f off : Nat) (v : Word) (s : State) : State :=
  hostWriteWith f off v .word (fun _ _ _ => true) (fun b r _ t =>
    match satFirst b r.off with
    | some first => clearSat f off b r first v t
    | none => t) s

/-- Meaning of CNT_SAT_CLEAR. -/
def execCntSatClear (f : Fn) (off : Nat) (v : Word) (s : State) : Host.Outcome State Fault Refusal := act (doCntSatClear f.val off v) s

/-! ### Injected events -/

/-- R54: the event of a code is raised for test. (DESIGN CHOICE, log 8) -/
def injectEvent (v : Word) (s : State) : State :=
  if bitAt 31 v then raiseOcc ⟨bitsOf 7 0 v, true, 0, noNode, nowNs s, 0, false⟩ s else s

/-- Meaning of GEVT_INJECT. -/
def execGevtInject (f : Fn) (v : Word) (s : State) : Host.Outcome State Fault Refusal :=
  act (rowWrite f.val Reg.GEVT_INJECT v true (injectEvent v)) s

/-! ### Stage 1 beyond the ranges of the rows -/

/-- The codes of RX_PLAN and RX_CH that a berth has (R91, R104). -/
def planCodeOk (n : Nat) (r : RegRow) (v : Word) : Bool :=
  if r.off = Reg.BERTH_RX_PLAN then
    if n < 4 then bitsOf 1 0 v ≤ 2 && bitsOf 3 2 v ≤ 2 else bitsOf 1 0 v = 3 && bitsOf 3 2 v = 3
  else if r.off = Reg.BERTH_RX_CH then 4 ≤ n || bitsOf 3 1 v ≤ 4
  else true

/-- A mask of berths that a setting names holds berths of the part only (R1). (DEDUCED, log 69) -/
def berthsNamed (s : State) (m : Nat) : Bool := (List.range 6).all fun n => !m.testBit n || berthPresent s n

/-- Codes and rights that depend on the block, the writing function or a fixed address (R460 stage 1). -/
def stageOneOk (s : State) (f off : Nat) (v : Word) (b : Block) (r : RegRow) (i : Nat) : Bool :=
  let hm : Bool := f = hmFn s
  match b with
  | .berth n => (4 ≤ n.val && (r.off = Reg.BERTH_RX_CF0 || r.off = Reg.BERTH_TX_CF0)) || (berthOk n.val r v && planCodeOk n.val r v)
  | .bcom =>
    if r.off = Reg.BCOM_COUPLE then i % 7 ≠ 0
    else if Reg.BCOM_PROF ≤ r.off then hm || s.otp.profile.isSome
    else true
  | .plinth =>
    if off = Reg.PLINTH_SCUTTLE then scuttleOk s f v
    else if off = Reg.PLINTH_PROV_CTRL then provOk s f v
    else true
  | .hold =>
    if off = Reg.HOLD_QCMD then qcmdOk v
    else if off = Reg.HOLD_REPAIR_CTRL then repairOk s f v
    else true
  | .fw => if off = Reg.FW_CTRL then hm || !(bitAt 0 v || bitAt 2 v) else true
  | .camp => off ≠ Reg.CAMP_CFG || berthsNamed s (bitsOf 5 0 v)
  | .key => off ≠ Reg.KEY_BCAST_CFG || berthsNamed s (bitsOf 29 24 v)
  | .mac => off ≠ Reg.MAC_TX_CFG || bitsOf 6 4 v ≤ bitsOf 10 8 v
  | .test =>
    if off = Reg.TEST_RESET then testResetOk s f v
    else if off = Reg.TEST_FENCE then testFenceOk s f v
    else if off = Reg.TEST_DOCK then !(bitAt 8 v && bitAt 9 v)
    else true
  | _ => true

/-! ### What a register does with a word -/

/-- A staging word and its writer (R320, R333, R389). -/
def staged (i : Nat) (v : Word) (f : Nat) (l : List Staged) : List Staged := l.set i (some (v, f))

/-- A write whose word the far side of a quay still has to take (R39). -/
def postWrite (b : Block) (f : Fn) (k : Nat) (v : Word) (s : State) : State := { s with posted := s.posted ++ [⟨b, f, k, v⟩] }

/-- RING (R40, R263, R267, R290, R294). -/
def writeRing (f off : Nat) (r : RegRow) (i : Nat) (v : Word) (s : State) : State :=
  if r.access = .buffered then takeRingBuffered f off v s
  else if r.off = Reg.RING_CTRL then takeRingCtrl f i v s
  else if off = Reg.RING_NUDGE then requestDoorbell f s
  else if r.off = Reg.RING_GRANT then takeGrant f i v s
  else plainWrite (keyOf f off) r v s

/-- TBL (R221, R222): dropped while a command of the function runs. -/
def writeTbl (f off : Nat) (r : RegRow) (i : Nat) (v : Word) (s : State) : State :=
  if fbit s (fb f) Fl.TBL_STATUS_BUSY then postDrop (fb f + Reg.TBL_STATUS) s
  else if off = Reg.TBL_CMD then takeTblCmd f v s
  else if r.off = Reg.TBL_DATA then
    modFn f (fun x => { x with tblBad := x.tblBad.filter fun j => j ≠ i }) (plainWrite (keyOf f off) r v s)
  else plainWrite (keyOf f off) r v s

/-- ROUTE (R210, R223): VERSION keeps its value while RPL_EN is 1. (DEDUCED, log 35) -/
def writeRoute (off : Nat) (r : RegRow) (v : Word) (s : State) : State :=
  if off = Reg.ROUTE_CTRL then takeRouteCtrl v s
  else if off = Reg.ROUTE_WALK_CTRL then takeWalkCtrl v .clean s
  else if off = Reg.ROUTE_RPL_INST ∧ fbit s 0 Fl.ROUTE_CTRL_RPL_EN then
    plainWrite off r (putBits 15 8 v (bitsOf 15 8 (rd s off))) s
  else plainWrite off r v s

/-- BERTHn (R24, R119, R134, R146): berths 4 and 5 have fixed channel centres and one mode, and only the harbour master function
enables a masked-channel entry. -/
def writeBerth (n : Fin 6) (f : Fn) (off : Nat) (r : RegRow) (v : Word) (s : State) : State :=
  if 4 ≤ n.val ∧ (r.off = Reg.BERTH_RX_CF0 ∨ r.off = Reg.BERTH_TX_CF0) then s
  else if r.off = Reg.BERTH_TX_MASK ∧ bitAt 31 v ∧ f.val ≠ hmFn s then setClipped (reject (berthBase n.val) s)
  else if r.access = .plain ∨ r.access = .masked then plainWrite off r v s
  else postWrite (.berth n) f off (if r.off = Reg.BERTH_RX_CH ∧ 4 ≤ n.val then putBits 3 1 v 4 else v) s

/-- PLINTH (R333, R338). -/
def writePlinth (f : Fn) (off : Nat) (r : RegRow) (i : Nat) (v : Word) (s : State) : State :=
  if r.off = Reg.PLINTH_IMGKEY then modPlinth (fun p => { p with imgStaging := staged i v f.val p.imgStaging }) s
  else if r.access = .posted then postWrite .plinth f off v s
  else plainWrite off r v s

/-- KEY (R320, R337): a command that names no operation is rejected at once, and zeroes the staging words. -/
def writeKey (f : Fn) (off : Nat) (r : RegRow) (i : Nat) (v : Word) (s : State) : State :=
  if r.off = Reg.KEY_MOULD_K then modKeys (fun k => { k with staging := staged i v f.val k.staging }) s
  else if off = Reg.KEY_MOULD_CTRL ∧ !mouldWordOk v then clearStaging (reject Reg.KEY_STATUS s)
  else if r.access = .posted then postWrite .key f off v s
  else plainWrite off r v s

/-- FW (R389, R394, R398): a command from a granted function, or one that names no operation, is rejected at once, and zeroes the
staging words. -/
def writeFw (f : Fn) (off : Nat) (r : RegRow) (i : Nat) (v : Word) (s : State) : State :=
  if r.off = Reg.FW_SIGNER_HASH then modFw (fun w => { w with signStaging := staged i v f.val w.signStaging }) s
  else if off = Reg.FW_SET_VAL then takeSetVal v s
  else if off = Reg.FW_SIGNER_CTRL ∧ !signerWordOk s f.val v then clearSignStaging (reject Reg.FW_STATUS s)
  else if r.access = .posted then postWrite .fw f off v s
  else plainWrite off r v s

/-- TEST (R415, R416, R419). -/
def writeTest (f : Fn) (off : Nat) (r : RegRow) (v : Word) (s : State) : State :=
  if off = Reg.TEST_RESET then restart 2 false s
  else if off = Reg.TEST_FENCE then takeTestFence v s
  else if r.access = .posted then postWrite .test f off v s
  else plainWrite off r v s

/-- HOLD (R345, R357, R360, R361). -/
def writeHold (off : Nat) (r : RegRow) (v : Word) (s : State) : State :=
  if off = Reg.HOLD_QCMD then takeQcmd v s
  else if off = Reg.HOLD_LOG_SEL then takeLogSel v s
  else if off = Reg.HOLD_REPAIR_CTRL then takeRepair v s
  else plainWrite off r v s

/-- FABRIC (R21, R29, R32). -/
def writeFabric (f off : Nat) (r : RegRow) (v : Word) (s : State) : State :=
  if off = Reg.FABRIC_UNFENCE then takeUnfence f v s
  else if off = Reg.FABRIC_VPOLICY then takeVpolicy v s
  else if off = Reg.FABRIC_CTRL then takeFabricCtrl v s
  else plainWrite off r v s

/-- MAC (R40, R153, R154, R184): buffered values are pending at once. -/
def writeMac (off : Nat) (r : RegRow) (v : Word) (s : State) : State :=
  if off = Reg.MAC_CELL_DATA1 then takeCellData v s
  else if off = Reg.MAC_HOP_DATA then takeHopData v s
  else if r.access = .buffered then pendPut off v s
  else plainWrite off r v s

/-- What a write that passed stage 1 does (R37, R39, R40). -/
def writeReg (f : Fn) (off : Nat) (v : Word) (b : Block) (r : RegRow) (i : Nat) (s : State) : State :=
  match satFirst b r.off with
  | some first => clearSat f.val off b r first v s
  | none =>
    match b with
    | .ident | .evt => plainWrite (keyOf f.val off) r v s
    | .ring => writeRing f.val off r i v s
    | .xlate =>
      if off = Reg.XLATE_INV then (if bitAt 0 v then invalidateFn f.val s else s)
      else if r.off = Reg.XLATE_FAULT_ACTION then takeAction f.val i v s
      else plainWrite (keyOf f.val off) r v s
    | .tbl => writeTbl f.val off r i v s
    | .bringup => if r.off = Reg.BRINGUP_PORT_CFG then takePortCfg i v s else plainWrite off r v s
    | .berth n => writeBerth n f off r v s
    | .bcom =>
      if off = Reg.BCOM_PROF_CTRL then takeProfCtrl f.val v s
      else if Reg.BCOM_PROF ≤ off then (if s.otp.profile.isSome then s else plainWrite off r v s)
      else if r.access = .posted then postWrite .bcom f off v s
      else plainWrite off r v s
    | .time | .claim => if r.access = .plain ∨ r.access = .masked then plainWrite off r v s else postWrite b f off v s
    | .mac => writeMac off r v s
    | .route => writeRoute off r v s
    | .svc =>
      if off = Reg.SVC_GROUP_INFO then
        { s with svc := { s.svc with owners := s.svc.owners.put (fget s 0 Fl.SVC_GROUP_SEL_GROUP) (bitsOf 26 24 v) } }
      else plainWrite off r v s
    | .camp => plainWrite off r v s
    | .key => writeKey f off r i v s
    | .plinth => writePlinth f off r i v s
    | .hold => writeHold off r v s
    | .fabric => writeFabric f.val off r v s
    | .fw => writeFw f off r i v s
    | .gevt => if off = Reg.GEVT_INJECT then injectEvent v s else plainWrite off r v s
    | .test => writeTest f off r v s

/-- R37, R460: a host's write to a register. (DEDUCED, log 9) -/
def doRegisterWrite (f : Fn) (off : Nat) (v : Word) (shape : Shape) (s : State) : State :=
  hostWriteWith f.val off v shape (stageOneOk s f.val off v) (writeReg f off v) s

/-- Meaning of REGISTER_WRITE. -/
def execRegisterWrite (f : Fn) (off : Nat) (v : Word) (shape : Shape) (s : State) : Host.Outcome State Fault Refusal :=
  act (doRegisterWrite f off v shape) s

/-! ### The far side of a quay -/

/-- A berth's island takes a posted value (R39, R40, R99, R134): buffered ones wait for the slot start. -/
def takeBerth (n : Nat) (k : Nat) (v : Word) (s : State) : State :=
  let off := k - berthBase n
  if off = Reg.BERTH_RX_CAL then takeRxCal n v s
  else if off = Reg.BERTH_TX_TAP_DATA then takeTap n v s
  else match rowOfKey k with
    | some r => if r.access = .buffered then pendPut k v s else plainWrite k r v s
    | none => s

/-- BCOM's island takes a posted value (R138, R145, R424). -/
def takeBcom (k : Nat) (v : Word) (s : State) : State :=
  if k = Reg.BCOM_COEX_CFG ∨ k = Reg.BCOM_COEX_CFG + 4 then
    modStart (fun x => { x with coexDriven := x.coexDriven.set ((k - Reg.BCOM_COEX_CFG) / 4) true }) (storeKey k v s)
  else if Reg.BCOM_DUTY_USED ≤ k ∧ k < Reg.BCOM_PROF_CTRL then
    let b := (k - Reg.BCOM_DUTY_USED) / 8
    if k % 8 = 0 then dutyPreload b v.toNat s else takeDutyResv b v s
  else storeKey k v s

/-- The far side takes a posted value, with its stage-2 check (R39, R460). (DEDUCED, log 57) -/
def takePosted (p : Posted) (s : State) : State :=
  match p.block with
  | .berth n => takeBerth n.val p.key p.value s
  | .bcom => takeBcom p.key p.value s
  | .time => takeTime p.key p.value s
  | .claim => if p.key = Reg.CLAIM_CTRL then takeClaimCtrl p.value s else storeKey p.key p.value s
  | .plinth =>
    if p.key = Reg.PLINTH_SCUTTLE then takeScuttle p.value s
    else if p.key = Reg.PLINTH_TAMPER_CFG then takeTamperCfg p.value s
    else if p.key = Reg.PLINTH_PROV_CTRL then takeProv p.fn.val p.value s
    else storeKey p.key p.value s
  | .key =>
    if p.key = Reg.KEY_MOULD_CTRL then takeMould p.fn.val p.value s
    else if p.key = Reg.KEY_NODE_GEN then takeNodeGen p.value s
    else storeKey p.key p.value s
  | .fw =>
    if p.key = Reg.FW_CTRL then takeFwCtrl p.fn.val p.value s
    else if p.key = Reg.FW_SIGNER_CTRL then
      advanceDraws (takeSigner p.fn.val p.value ((Config.freeValue s.draws).getLsbD 0) s)
    else storeKey p.key p.value s
  | .test => if p.key = Reg.TEST_DOCK then takeDock p.value s else storeKey p.key p.value s
  | _ => s

/-- R39: the oldest posted write of a block is taken and acknowledged. (DEDUCED, log 9) -/
def doPostedAck (b : Block) (s : State) : State :=
  match s.posted.findIdx? fun p => p.block = b with
  | some i =>
    match s.posted[i]? with
    | some p => takePosted p { s with posted := s.posted.eraseIdx i }
    | none => s
  | none => s

/-- Meaning of POSTED_WRITE_ACK. -/
def execPostedWriteAck (b : Block) (s : State) : Host.Outcome State Fault Refusal := act (doPostedAck b) s

/-! ### Reads -/

/-- What a read shows holds a value that no rule states: the floor, the cells of a queue, a fault record (R295). -/
def showsOpen (b : Block) (r : RegRow) : Bool :=
  match b with
  | .berth _ => r.off = Reg.BERTH_RX_FLOOR
  | .hold => r.off = Reg.HOLD_QSTATE
  | .xlate => Reg.XLATE_FAULT_INFO ≤ r.off
  | _ => false

/-- The data of a register read (R37), and what reading it does (R58, R82, R184, R409). (DEDUCED, log 15) -/
def readReg (f off : Nat) (b : Block) (r : RegRow) (i : Nat) (s : State) : State :=
  let plain := emit (.readData f off (regShown s f b r off)) (if showsOpen b r then advanceDraws s else s)
  match b with
  | .time =>
    if r.off = Reg.TIME_RSN then doTimeRsnRead f s
    else if r.off = Reg.TIME_CAPT_LO then doCaptLoRead f i s
    else if r.off = Reg.TIME_CAPT_HI then doCaptHiRead f i s
    else if r.off = Reg.TIME_EPOCH then modTime (fun x => { x with epochLatch := x.epochLatch.del f }) plain
    else plain
  | .mac =>
    if r.off = Reg.MAC_CELL_DATA1 then fset 0 Fl.MAC_CELL_ADDR_INDEX (fget s 0 Fl.MAC_CELL_ADDR_INDEX + 1) plain
    else if r.off = Reg.MAC_HOP_DATA then hopAdvance plain
    else plain
  | .bringup => if r.off = Reg.BRINGUP_PORT_DATA then doPortRead f i s else plain
  | _ => plain

/-- R41, R221, R348: a register read; an uncorrectable error on its way makes it a bus error. -/
def doRegisterRead (f off : Nat) (shape : Shape) (m : HoldRead) (s : State) : State :=
  if hostReady s f then
    match reach s f off shape with
    | .err c => busError f off true shape c s
    | .reg b r i =>
      let s1 := holdMet .register m s
      if m.badLoc.isSome || (b = .tbl && r.off = Reg.TBL_DATA && (getFn s f).tblBad.contains i) then busError f off true shape .uncorr s1
      else readReg f off b r i s1
  else s

/-- Meaning of READ_BUS_ERROR: a register read, which is a bus error where R41 says so. -/
def execReadBusError (f : Fn) (off : Nat) (shape : Shape) (m : HoldRead) (s : State) : Host.Outcome State Fault Refusal :=
  act (doRegisterRead f.val off shape m) s

end Sys2Proof.Machine
end

