-- ==== Sys2Proof/Machine/Dispatch.lean ====
section
/-!
DEFINITION. One arm per command: the meaning that the spec gives its row.
-/

namespace Sys2Proof.Machine

/-- What a command does to everything but the queue of waiting commands. -/
def exec (i : Instr) (s : State) : Host.Outcome State Fault Refusal :=
  match i with
  | .linkParityFailure link again => Sys2Proof.Machine.execLinkParityFailure link again s
  | .pilotWatchdog core back => Sys2Proof.Machine.execPilotWatchdog core back s
  | .fabricRateWindow rate => Sys2Proof.Machine.execFabricRateWindow rate s
  | .fabricUnfence fn v => Sys2Proof.Machine.execFabricUnfence fn v s
  | .fabricUnfenceDone pass => Sys2Proof.Machine.execFabricUnfenceDone pass s
  | .clrLowWater fn v => Sys2Proof.Machine.execClrLowWater fn v s
  | .quayOverflow n entry => Sys2Proof.Machine.execQuayOverflow n entry s
  | .registerWrite fn off v shape => Sys2Proof.Machine.execRegisterWrite fn off v shape s
  | .postedWriteAck b => Sys2Proof.Machine.execPostedWriteAck b s
  | .cntSatClear fn off v => Sys2Proof.Machine.execCntSatClear fn off v s
  | .gevtInject fn v => Sys2Proof.Machine.execGevtInject fn v s
  | .c3EventEntryWrite fn => Sys2Proof.Machine.execC3EventEntryWrite fn s
  | .evtHoldoffEnd fn code => Sys2Proof.Machine.execEvtHoldoffEnd fn code s
  | .slotStart => Sys2Proof.Machine.execSlotStart s
  | .slotRunStart => Sys2Proof.Machine.execSlotRunStart s
  | .slotRunStop => Sys2Proof.Machine.execSlotRunStop s
  | .stopInstant => Sys2Proof.Machine.execStopInstant s
  | .timeBufferIntervalEnd => Sys2Proof.Machine.execTimeBufferIntervalEnd s
  | .virtualSlotStart => Sys2Proof.Machine.execVirtualSlotStart s
  | .discChange disc => Sys2Proof.Machine.execDiscChange disc s
  | .tideSrcSelect on => Sys2Proof.Machine.execTideSrcSelect on s
  | .servoClr => Sys2Proof.Machine.execServoClr s
  | .timeLoad => Sys2Proof.Machine.execTimeLoad s
  | .timeSnap => Sys2Proof.Machine.execTimeSnap s
  | .timeRsnRead fn => Sys2Proof.Machine.execTimeRsnRead fn s
  | .timeAdj v => Sys2Proof.Machine.execTimeAdj v s
  | .adjDone => Sys2Proof.Machine.execAdjDone s
  | .timeConv v => Sys2Proof.Machine.execTimeConv v s
  | .ppsEdge rising sub => Sys2Proof.Machine.execPpsEdge rising sub s
  | .ppsLost => Sys2Proof.Machine.execPpsLost s
  | .trigConfig k v => Sys2Proof.Machine.execTrigConfig k v s
  | .trigFired k => Sys2Proof.Machine.execTrigFired k s
  | .capture c rising sub => Sys2Proof.Machine.execCapture c rising sub s
  | .captLoRead fn c => Sys2Proof.Machine.execCaptLoRead fn c s
  | .captHiRead fn c => Sys2Proof.Machine.execCaptHiRead fn c s
  | .tidePulse => Sys2Proof.Machine.execTidePulse s
  | .tidePair cap octets => Sys2Proof.Machine.execTidePair cap octets s
  | .tideLost => Sys2Proof.Machine.execTideLost s
  | .rxLoLocked n => Sys2Proof.Machine.execRxLoLocked n s
  | .rxLoUnlock n => Sys2Proof.Machine.execRxLoUnlock n s
  | .rxClip n peak => Sys2Proof.Machine.execRxClip n peak s
  | .rxCal n => Sys2Proof.Machine.execRxCal n s
  | .rxCalDone n dcRes imageRej ok => Sys2Proof.Machine.execRxCalDone n dcRes imageRej ok s
  | .preambleDetected n entry lp floor => Sys2Proof.Machine.execPreambleDetected n entry lp floor s
  | .sfdMatched n entry m => Sys2Proof.Machine.execSfdMatched n entry m s
  | .syncRelease n entry why => Sys2Proof.Machine.execSyncRelease n entry why s
  | .sustainFail n entry => Sys2Proof.Machine.execSustainFail n entry s
  | .phrDecoded n entry phr => Sys2Proof.Machine.execPhrDecoded n entry phr s
  | .recaptured n entry lp => Sys2Proof.Machine.execRecaptured n entry lp s
  | .lastSymbolReceived n entry body => Sys2Proof.Machine.execLastSymbolReceived n entry body s
  | .decoderEngineFree eng => Sys2Proof.Machine.execDecoderEngineFree eng s
  | .decodeDone eng body => Sys2Proof.Machine.execDecodeDone eng body s
  | .blankEnd n => Sys2Proof.Machine.execBlankEnd n s
  | .txSynthLocked n => Sys2Proof.Machine.execTxSynthLocked n s
  | .txLockLost n => Sys2Proof.Machine.execTxLockLost n s
  | .bandRefreshTrigger n temp => Sys2Proof.Machine.execBandRefreshTrigger n temp s
  | .bandRefreshDone n band ok => Sys2Proof.Machine.execBandRefreshDone n band ok s
  | .bandRefreshOverdue n => Sys2Proof.Machine.execBandRefreshOverdue n s
  | .coexRequest n => Sys2Proof.Machine.execCoexRequest n s
  | .txGo n cca crossed gnt => Sys2Proof.Machine.execTxGo n cca crossed gnt s
  | .txLastSymbol n => Sys2Proof.Machine.execTxLastSymbol n s
  | .txUnderrun n => Sys2Proof.Machine.execTxUnderrun n s
  | .txPoisoned n => Sys2Proof.Machine.execTxPoisoned n s
  | .coexRevoked g => Sys2Proof.Machine.execCoexRevoked g s
  | .maskTrip n => Sys2Proof.Machine.execMaskTrip n s
  | .dutyBucketAdvance => Sys2Proof.Machine.execDutyBucketAdvance s
  | .dutyUsedPreload b v => Sys2Proof.Machine.execDutyUsedPreload b v s
  | .tapDataWrite fn n v => Sys2Proof.Machine.execTapDataWrite fn n v s
  | .profileFuse fn v => Sys2Proof.Machine.execProfileFuse fn v s
  | .profileFuseDone ok => Sys2Proof.Machine.execProfileFuseDone ok s
  | .planSlot => Sys2Proof.Machine.execPlanSlot s
  | .cellDataWrite fn v => Sys2Proof.Machine.execCellDataWrite fn v s
  | .cellDataRead fn => Sys2Proof.Machine.execCellDataRead fn s
  | .hopDataAccess fn w => Sys2Proof.Machine.execHopDataAccess fn w s
  | .cryptoBeginFrame n m what => Sys2Proof.Machine.execCryptoBeginFrame n m what s
  | .receiveRecord m what => Sys2Proof.Machine.execReceiveRecord m what s
  | .ackWindowEnd id => Sys2Proof.Machine.execAckWindowEnd id s
  | .arbiterRelease => Sys2Proof.Machine.execArbiterRelease s
  | .nbrAged n index => Sys2Proof.Machine.execNbrAged n index s
  | .shortEnSet => Sys2Proof.Machine.execShortEnSet s
  | .indexRepairDone => Sys2Proof.Machine.execIndexRepairDone s
  | .strayExpired e => Sys2Proof.Machine.execStrayExpired e s
  | .dioTrickleFire => Sys2Proof.Machine.execDioTrickleFire s
  | .disReceived => Sys2Proof.Machine.execDisReceived s
  | .daoReceived read => Sys2Proof.Machine.execDaoReceived read s
  | .versionInc => Sys2Proof.Machine.execVersionInc s
  | .dtsnInc => Sys2Proof.Machine.execDtsnInc s
  | .daoLifeTick => Sys2Proof.Machine.execDaoLifeTick s
  | .routeWalkTest fn v read => Sys2Proof.Machine.execRouteWalkTest fn v read s
  | .tblLookup fn via m => Sys2Proof.Machine.execTblLookup fn via m s
  | .tblRead fn via m => Sys2Proof.Machine.execTblRead fn via m s
  | .tblReadLock fn via m => Sys2Proof.Machine.execTblReadLock fn via m s
  | .tblWrite fn via m => Sys2Proof.Machine.execTblWrite fn via m s
  | .tblInsert fn via m => Sys2Proof.Machine.execTblInsert fn via m s
  | .tblDelete fn via m => Sys2Proof.Machine.execTblDelete fn via m s
  | .tblUnlock fn via => Sys2Proof.Machine.execTblUnlock fn via s
  | .tblNext fn via m => Sys2Proof.Machine.execTblNext fn via m s
  | .lockExpired h => Sys2Proof.Machine.execLockExpired h s
  | .msgSend fn ring m => Sys2Proof.Machine.execMsgSend fn ring m s
  | .msgGroup fn ring read => Sys2Proof.Machine.execMsgGroup fn ring read s
  | .dgramSend fn ring read => Sys2Proof.Machine.execDgramSend fn ring read s
  | .rawFrame fn ring => Sys2Proof.Machine.execRawFrame fn ring s
  | .coapAckTimeout token read => Sys2Proof.Machine.execCoapAckTimeout token read s
  | .respWaitExpiry token => Sys2Proof.Machine.execRespWaitExpiry token s
  | .deadlineReached w => Sys2Proof.Machine.execDeadlineReached w s
  | .timedGuard w => Sys2Proof.Machine.execTimedGuard w s
  | .mplTrickleFire id => Sys2Proof.Machine.execMplTrickleFire id s
  | .fragmentReceived => Sys2Proof.Machine.execFragmentReceived s
  | .reasmTimeout place => Sys2Proof.Machine.execReasmTimeout place s
  | .upwardCoap read => Sys2Proof.Machine.execUpwardCoap read s
  | .upNotAcked => Sys2Proof.Machine.execUpNotAcked s
  | .upwardDatagram read => Sys2Proof.Machine.execUpwardDatagram read s
  | .ringNudge fn => Sys2Proof.Machine.execRingNudge fn s
  | .doorbellPoll fn => Sys2Proof.Machine.execDoorbellPoll fn s
  | .doorbellCopy fn => Sys2Proof.Machine.execDoorbellCopy fn s
  | .nop fn ring => Sys2Proof.Machine.execNop fn ring s
  | .rxBufferPost fn => Sys2Proof.Machine.execRxBufferPost fn s
  | .receiveDelivery fn => Sys2Proof.Machine.execReceiveDelivery fn s
  | .returnEntryWrite fn => Sys2Proof.Machine.execReturnEntryWrite fn s
  | .ringModTimer fn ring => Sys2Proof.Machine.execRingModTimer fn ring s
  | .slingDone stev octets poisoned => Sys2Proof.Machine.execSlingDone stev octets poisoned s
  | .translationFault stev => Sys2Proof.Machine.execTranslationFault stev s
  | .pageResponse fn place success => Sys2Proof.Machine.execPageResponse fn place success s
  | .priTimeout fn place => Sys2Proof.Machine.execPriTimeout fn place s
  | .dmaFault stev timeout => Sys2Proof.Machine.execDmaFault stev timeout s
  | .xlateFaultRetry fn place => Sys2Proof.Machine.execXlateFaultRetry fn place s
  | .xlateFaultAbort fn place => Sys2Proof.Machine.execXlateFaultAbort fn place s
  | .xlateInv fn => Sys2Proof.Machine.execXlateInv fn s
  | .atsInvalidate fn page count => Sys2Proof.Machine.execAtsInvalidate fn page count s
  | .ringFlush fn ring => Sys2Proof.Machine.execRingFlush fn ring s
  | .flushTimeout fn ring => Sys2Proof.Machine.execFlushTimeout fn ring s
  | .ringDrop fn ring => Sys2Proof.Machine.execRingDrop fn ring s
  | .ringQuiesced fn ring => Sys2Proof.Machine.execRingQuiesced fn ring s
  | .ringEnable fn ring => Sys2Proof.Machine.execRingEnable fn ring s
  | .ringDisable fn ring => Sys2Proof.Machine.execRingDisable fn ring s
  | .ringGrantWrite fn target v => Sys2Proof.Machine.execRingGrantWrite fn target v s
  | .livenessExpiry fn => Sys2Proof.Machine.execLivenessExpiry fn s
  | .portLinkDown p => Sys2Proof.Machine.execPortLinkDown p s
  | .portLinkUp p => Sys2Proof.Machine.execPortLinkUp p s
  | .busMasterDisable fn => Sys2Proof.Machine.execBusMasterDisable fn s
  | .flr fn => Sys2Proof.Machine.execFlr fn s
  | .campaignStart fn => Sys2Proof.Machine.execCampaignStart fn s
  | .campaignReport fn => Sys2Proof.Machine.execCampaignReport fn s
  | .campaignPause fn => Sys2Proof.Machine.execCampaignPause fn s
  | .campaignContinue fn => Sys2Proof.Machine.execCampaignContinue fn s
  | .campaignAbort fn => Sys2Proof.Machine.execCampaignAbort fn s
  | .campaignAddNode fn => Sys2Proof.Machine.execCampaignAddNode fn s
  | .campaignRemoveNode fn => Sys2Proof.Machine.execCampaignRemoveNode fn s
  | .campaignCheckpoint fn => Sys2Proof.Machine.execCampaignCheckpoint fn s
  | .campaignVisit => Sys2Proof.Machine.execCampaignVisit s
  | .blockPrepared camp sbn => Sys2Proof.Machine.execBlockPrepared camp sbn s
  | .campaignBudgetWindow camp => Sys2Proof.Machine.execCampaignBudgetWindow camp s
  | .campaignStartAt camp => Sys2Proof.Machine.execCampaignStartAt camp s
  | .campaignCkptTimer camp => Sys2Proof.Machine.execCampaignCkptTimer camp s
  | .campaignRecordConfirmed camp => Sys2Proof.Machine.execCampaignRecordConfirmed camp s
  | .campaignDeadline camp => Sys2Proof.Machine.execCampaignDeadline camp s
  | .mouldLoad fn v => Sys2Proof.Machine.execMouldLoad fn v s
  | .mouldInvalidate fn v => Sys2Proof.Machine.execMouldInvalidate fn v s
  | .mouldErase fn v => Sys2Proof.Machine.execMouldErase fn v s
  | .mouldEndGrace fn v => Sys2Proof.Machine.execMouldEndGrace fn v s
  | .graceEnded slot => Sys2Proof.Machine.execGraceEnded slot s
  | .genGraceEnded e => Sys2Proof.Machine.execGenGraceEnded e s
  | .keyNodeGen fn v => Sys2Proof.Machine.execKeyNodeGen fn v s
  | .entropyFail => Sys2Proof.Machine.execEntropyFail s
  | .entropyRecovered => Sys2Proof.Machine.execEntropyRecovered s
  | .drbgReseed => Sys2Proof.Machine.execDrbgReseed s
  | .tamperTrip src samples => Sys2Proof.Machine.execTamperTrip src samples s
  | .hostScuttle fn v => Sys2Proof.Machine.execHostScuttle fn v s
  | .scuttleReset => Sys2Proof.Machine.execScuttleReset s
  | .tamperLock fn v => Sys2Proof.Machine.execTamperLock fn v s
  | .vbatApplied => Sys2Proof.Machine.execVbatApplied s
  | .generate fn => Sys2Proof.Machine.execGenerate fn s
  | .fuseImgkey fn => Sys2Proof.Machine.execFuseImgkey fn s
  | .provisioned ok => Sys2Proof.Machine.execProvisioned ok s
  | .attestReq fn => Sys2Proof.Machine.execAttestReq fn s
  | .pilotBusFault core fetch cls loc => Sys2Proof.Machine.execPilotBusFault core fetch cls loc s
  | .queueReset q => Sys2Proof.Machine.execQueueReset q s
  | .holdQcmdFlush fn v => Sys2Proof.Machine.execHoldQcmdFlush fn v s
  | .holdQcmdDropItem fn v => Sys2Proof.Machine.execHoldQcmdDropItem fn v s
  | .holdQcmdReset fn v => Sys2Proof.Machine.execHoldQcmdReset fn v s
  | .queueFlushForced => Sys2Proof.Machine.execQueueFlushForced s
  | .holdLogClear fn v => Sys2Proof.Machine.execHoldLogClear fn v s
  | .fieldRepair fn v => Sys2Proof.Machine.execFieldRepair fn v s
  | .fieldRepairDone ok => Sys2Proof.Machine.execFieldRepairDone ok s
  | .bollardBusChange others => Sys2Proof.Machine.execBollardBusChange others s
  | .quietReached => Sys2Proof.Machine.execQuietReached s
  | .claimRise => Sys2Proof.Machine.execClaimRise s
  | .releaseProbe others => Sys2Proof.Machine.execReleaseProbe others s
  | .takeoverDone => Sys2Proof.Machine.execTakeoverDone s
  | .claimYield => Sys2Proof.Machine.execYield s
  | .claimDiag => Sys2Proof.Machine.execClaimDiag s
  | .selfDiagDone pass => Sys2Proof.Machine.execSelfDiagDone pass s
  | .failoverSeen => Sys2Proof.Machine.execFailoverSeen s
  | .ckptFull => Sys2Proof.Machine.execCkptFull s
  | .ckptArea fn => Sys2Proof.Machine.execCkptArea fn s
  | .checkpointDue => Sys2Proof.Machine.execCheckpointDue s
  | .ckptWritten => Sys2Proof.Machine.execCkptWritten s
  | .ckptLoad fn r => Sys2Proof.Machine.execCkptLoad fn r s
  | .ckptLoaded => Sys2Proof.Machine.execCkptLoaded s
  | .fwStageOpen fn ok => Sys2Proof.Machine.execFwStageOpen fn ok s
  | .fwStageChunk fn ok => Sys2Proof.Machine.execFwStageChunk fn ok s
  | .fwStageCloseCommit fn => Sys2Proof.Machine.execFwStageCloseCommit fn s
  | .fwStageCloseAbandon fn => Sys2Proof.Machine.execFwStageCloseAbandon fn s
  | .fwLeaseExpiry => Sys2Proof.Machine.execFwLeaseExpiry s
  | .fwBreak fn => Sys2Proof.Machine.execFwBreak fn s
  | .fwVouch fn => Sys2Proof.Machine.execFwVouch fn s
  | .fwReject fn => Sys2Proof.Machine.execFwReject fn s
  | .trialConfirmCheck => Sys2Proof.Machine.execTrialConfirmCheck s
  | .trialWindowExpiry => Sys2Proof.Machine.execTrialWindowExpiry s
  | .trialReset => Sys2Proof.Machine.execTrialReset s
  | .fwSignerFuse fn v ok => Sys2Proof.Machine.execFwSignerFuse fn v ok s
  | .fwSignerRevoke fn v => Sys2Proof.Machine.execFwSignerRevoke fn v s
  | .fwSetWrite fn v => Sys2Proof.Machine.execFwSetWrite fn v s
  | .fallbackClear fn => Sys2Proof.Machine.execFallbackClear fn s
  | .powerOnReset straps b33 => Sys2Proof.Machine.execPowerOnReset straps b33 s
  | .brownOut => Sys2Proof.Machine.execBrownOut s
  | .testReset fn v => Sys2Proof.Machine.execTestReset fn v s
  | .portResetAssert p => Sys2Proof.Machine.execPortResetAssert p s
  | .portResetRelease p => Sys2Proof.Machine.execPortResetRelease p s
  | .tapReset => Sys2Proof.Machine.execTapReset s
  | .tapInstruction instr => Sys2Proof.Machine.execTapInstruction instr s
  | .fillDone => Sys2Proof.Machine.execFillDone s
  | .selftestDone banks pilots => Sys2Proof.Machine.execSelftestDone banks pilots s
  | .fwBooted => Sys2Proof.Machine.execFwBooted s
  | .serviceReady => Sys2Proof.Machine.execServiceReady s
  | .dockEnter fn v => Sys2Proof.Machine.execDockEnter fn v s
  | .dockLeave fn v => Sys2Proof.Machine.execDockLeave fn v s
  | .dockTestDone r => Sys2Proof.Machine.execDockTestDone r s
  | .katRotation => Sys2Proof.Machine.execKatRotation s
  | .katDone pass => Sys2Proof.Machine.execKatDone pass s
  | .testFence fn v => Sys2Proof.Machine.execTestFence fn v s
  | .bringupPortRead fn p => Sys2Proof.Machine.execBringupPortRead fn p s
  | .bringupStallExpiry p => Sys2Proof.Machine.execBringupStallExpiry p s
  | .i2cWrite pointer octets => Sys2Proof.Machine.execI2cWrite pointer octets s
  | .i2cRead pointer count => Sys2Proof.Machine.execI2cRead pointer count s
  | .mgmtRefresh temp => Sys2Proof.Machine.execMgmtRefresh temp s
  | .readBusError fn off shape m => Sys2Proof.Machine.execReadBusError fn off shape m s
  | .msixVectorUnmask fn w => Sys2Proof.Machine.execMsixVectorUnmask fn w s
  | .busMasterEnable fn ats pri payload256 => Sys2Proof.Machine.execBusMasterEnable fn ats pri payload256 s
  | .trigPulseEnd k => Sys2Proof.Machine.execTrigPulseEnd k s
  | .vbatLoss => Sys2Proof.Machine.execVbatLoss s
  | .porNAssert => Sys2Proof.Machine.execPorNAssert s
  | .brownOutEnd straps b33 => Sys2Proof.Machine.execBrownOutEnd straps b33 s
  | .functionsReady => Sys2Proof.Machine.execFunctionsReady s
  | .katPassOver => Sys2Proof.Machine.execKatPassOver s

end Sys2Proof.Machine
end

