-- ==== Sys2Proof/Safety.lean ====
section
/-!
DEFINITION. What a safe run is, in the terms that statements use: the device works, an access is accepted, and what follows of
itself from a state has happened.
-/

namespace Sys2Proof.Machine

/-- No cause holds the device in reset (R400, R403, R417). -/
abbrev Works (s : State) : Prop := s.start.held = false

/-- The device works and start-up is not halted: its engines run (R407). -/
abbrev Runs (s : State) : Prop := Works s ∧ s.start.phase ≠ .halted

/-- The GEVT_RAW bit of source `c` is set (R45). -/
abbrev Raised (t : State) (c : Nat) : Prop := bitAt (c % 32) (rd t (Reg.GEVT_RAW + c / 32 * 4)) = true

/-- From `s` to `t` counter `c` of the block instance at `base` went up by `n`, and stopped at its maximum (R42). -/
abbrev Counted (s t : State) (base : Nat) (c : Cnt) (n : Nat) : Prop :=
  rd t (base + c.off) = BitVec.ofNat 32 (min ((rd s (base + c.off)).toNat + n) 0xFFFFFFFF)

/-- From `s` to `t` the device put out `o`, and after it at most answers to reads that had waited (R409). -/
def PutOut (s t : State) (o : Out) : Prop := ∃ more, t.outs = more ++ o :: s.outs

/-- REJECTED of the status register at `k` is set (R37, R38). -/
abbrev Rejected (t : State) (k : Nat) : Prop := bitAt 5 (rd t k) = true

/-- A DMA job that satisfies `p` is ready, or on a stevedore (R277, R278). -/
abbrev Waits (t : State) (p : Job → Bool) : Prop := (t.jobs.any p || t.stevs.any fun o => o.any p) = true

/-- A host's access of 32 bits reaches a register that takes it: the function and the block are ready, the block is not BUSY, the
register is not the block's status register, and every field lies in its stage-1 range (R34 to R39, R460). -/
def Accepts (s : State) (f off : Nat) (v : Word) : Bool :=
  hostReady s f &&
    match reach s f off .word with
    | .reg b r _ => blockLive s b && !isStatus b r && !blockBusy s b && checksOk r v
    | .err _ => false

/-- A host's read of 32 bits reaches a register (R34 to R36, R41). -/
def Readable (s : State) (f off : Nat) : Bool :=
  hostReady s f &&
    match reach s f off .word with
    | .reg _ _ _ => true
    | .err _ => false

/-- What follows of itself from a state has happened: no stevedore that is free and not fenced leaves a job that may move (R278), the
pool's low-water mark and low flag are right and no producer stalls while there is a cell (R356), and every output ball has its level. -/
abbrev AtRest (s : State) : Prop :=
  (freeStev s = none ∨ pickJob s = none) ∧ s.hold.lowWater ≤ cellsFree s ∧
    (cellsFree s < fget s 0 Fl.HOLD_POOL_CFG_WARN → s.hold.poolLow = true) ∧ (cellFree s = true → s.hold.stalled = []) ∧
    s.pins = pinLevels s

/-- Registers that an event sets bits of, whatever else a step does: GEVT_RAW and each function's EVT_PEND (R45). -/
def eventKey (k : Nat) : Bool :=
  (0x8800 ≤ k && k < 0x8820) || (k < 0x80000 && 0x1820 ≤ k % 0x10000 && k % 0x10000 < 0x1840)

/-- Registers that the read ports of the bring-up window change by themselves (R408, R409). -/
def portKey (k : Nat) : Bool := 0x2040 ≤ k && k < 0x2080

/-- Registers that only what a step is about may change. -/
def ownKey (k : Nat) : Bool := !eventKey k && !portKey k

end Sys2Proof.Machine
end

