-- ==== Sys2Proof/Certificates/Slice0/Obligations.lean ====
section
/-!
DEFINITION. The statements that the provers prove: what each command does to the device's state, what the shared operations keep,
and what holds of every step.
-/

open Sys2Proof Sys2Proof.Machine

/-- The block is a queue of commands, first in first out: the command at the front runs on the state with the queue's rest (the model's
choice of how commands arrive, log 1). -/
def Obligations.StepRunsFrontCommand : Prop :=
  ∀ (c : Instr) (rest : List Instr) (s : State), s.pending = c :: rest → step s = exec c { s with pending := rest }

/-- On an empty queue one tick of XREF_IN passes (DESIGN CHOICE, log 2): clock and MONO gain the increment of R57 with its slew. -/
def Obligations.IdleStepIsTick : Prop :=
  ∀ s : State, Works s → s.pending = [] →
    ∃ t, step s = .next t ∧ t.pending = [] ∧ t.time.clock = s.time.clock + BitVec.ofInt 80 (tickUnits + incEff s) ∧
      t.time.mono = s.time.mono + BitVec.ofInt 96 (tickUnits + incEff s) ∧ t.time.slots = s.time.slots ∧ t.time.name = s.time.name

/-- R58, R59, R61, R65, R66, R83: the seven commands of TIME_CTRL. -/
def Obligations.TimeCtrlTakesEffect : Prop :=
  ∀ s : State, Works s →
    let passes (w : Word) : Prop := (timeCtrlWordOk w && timeCtrlOk s w) = true
    (∀ d : Fin 3, passes (timeCtrlWith s (d.val <<< 1) 6) →
      ∃ t, exec (.discChange d) s = .next t ∧ fget t 0 Fl.TIME_CTRL_DISC = d.val ∧
        (disc s ≠ d.val → t.time.ref = .none ∧ t.time.expected = none)) ∧
    (∀ on : Bool, passes (timeCtrlWith s (if on then 8 else 0) 8) →
      ∃ t, exec (.tideSrcSelect on) s = .next t ∧ fbit t 0 Fl.TIME_CTRL_TIDE_SRC = on) ∧
    (passes (timeCtrlWith s 16 0) → ∃ t, exec .servoClr s = .next t ∧ t.time.integ = 0 ∧ t.time.servoCorr = 0) ∧
    (passes (timeCtrlWith s 32 0) →
      ∃ t, exec .timeLoad s = .next t ∧
        t.time.clock = BitVec.ofNat 80 (((rd s Reg.TIME_LOAD_HI).toNat * 4294967296 + (rd s Reg.TIME_LOAD_LO).toNat) * 4294967296) ∧
        t.time.expected = none) ∧
    (passes (timeCtrlWith s 64 0) →
      ∃ t, exec .timeSnap s = .next t ∧ rd t Reg.TIME_SNAP_NS_LO = BitVec.ofNat 32 (nowNs s).toNat ∧
        rd t Reg.TIME_SNAP_NS_HI = BitVec.ofNat 32 ((nowNs s).toNat >>> 32) ∧
        rd t Reg.TIME_SNAP_FRAC = BitVec.ofNat 32 s.time.clock.toNat ∧ rd t Reg.TIME_SNAP_RSN = s.time.name.rsn.word ∧
        rd t Reg.TIME_SNAP_EPOCH = BitVec.ofNat 32 s.time.name.epoch.toNat ∧
        rd t Reg.TIME_SNAP_MONO_LO = BitVec.ofNat 32 (monoNs s) ∧ rd t Reg.TIME_SNAP_MONO_HI = BitVec.ofNat 32 (monoNs s >>> 32) ∧
        (slotsOn s = false → rd t Reg.TIME_SNAP_SLOT_T = 0x7FFFFFF)) ∧
    (passes (timeCtrlWith s 1 0) →
      ∃ t, exec .slotRunStart s = .next t ∧ fbit t 0 Fl.TIME_CTRL_SLOT_RUN = true ∧
        t.time.slots = (match s.time.slots with
          | .stopped | .armed => .armed
          | .running | .stopping => .running) ∧
        (s.time.slots = .stopped → disc s ≠ 2 → t.time.slotStart = timeStart s)) ∧
    (passes (timeCtrlWith s 0 1) →
      ∃ t, exec .slotRunStop s = .next t ∧ fbit t 0 Fl.TIME_CTRL_SLOT_RUN = false ∧
        t.time.slots = (match s.time.slots with
          | .stopped | .armed => .stopped
          | .running | .stopping => .stopping))

/-- R59, R61, R66, R460: a rejected word of TIME_CTRL has no effect but REJECTED. -/
def Obligations.TimeCtrlRejects : Prop :=
  ∀ s : State, Works s →
    let fails (w : Word) : Prop := (timeCtrlWordOk w && timeCtrlOk s w) = false
    let refused (c : Instr) : Prop := ∃ t, exec c s = .next t ∧ Rejected t Reg.TIME_STATUS ∧ t.time = s.time ∧
      rd t Reg.TIME_CTRL = rd s Reg.TIME_CTRL ∧ t.tables = s.tables ∧ t.berths = s.berths ∧ t.mac = s.mac
    (∀ d : Fin 3, fails (timeCtrlWith s (d.val <<< 1) 6) → refused (.discChange d)) ∧
    (∀ on : Bool, fails (timeCtrlWith s (if on then 8 else 0) 8) → refused (.tideSrcSelect on)) ∧
    (fails (timeCtrlWith s 16 0) → refused .servoClr) ∧ (fails (timeCtrlWith s 32 0) → refused .timeLoad) ∧
    (fails (timeCtrlWith s 64 0) → refused .timeSnap) ∧ (fails (timeCtrlWith s 1 0) → refused .slotRunStart) ∧
    (fails (timeCtrlWith s 0 1) → refused .slotRunStop)

/-- R63, R64, R65: PPS_EDGE and PPS_LOST. -/
def Obligations.PpsReference : Prop :=
  ∀ s : State, Works s →
    (∀ (rising : Bool) (sub : Fin 25), ppsSelects s rising = false →
      ∃ t, exec (.ppsEdge rising sub) s = .next t ∧ t.time = s.time ∧ rd t Reg.TIME_PPS_LAST_LO = rd s Reg.TIME_PPS_LAST_LO ∧
        rd t Reg.TIME_PPS_LAST_HI = rd s Reg.TIME_PPS_LAST_HI) ∧
    (∀ (rising : Bool) (sub : Fin 25), ppsSelects s rising = true →
      let cap := nowNs s + BitVec.ofNat 48 sub.val
      ∃ t, exec (.ppsEdge rising sub) s = .next t ∧ rd t Reg.TIME_PPS_LAST_LO = BitVec.ofNat 32 cap.toNat ∧
        rd t Reg.TIME_PPS_LAST_HI = BitVec.ofNat 32 (cap.toNat >>> 32) ∧ t.time.clock = s.time.clock ∧
        (disc s ≠ 1 → t.time = s.time)) ∧
    (∀ (rising : Bool) (sub : Fin 25), ppsSelects s rising = true → disc s = 1 → s.time.expected = none →
      ∃ t, exec (.ppsEdge rising sub) s = .next t ∧
        t.time.expected = some (nowNs s + BitVec.ofNat 48 sub.val + 1000000000) ∧ t.time.ref = .acquiring ∧
        t.time.servoCorr = s.time.servoCorr) ∧
    (∀ (rising : Bool) (sub : Fin 25) (x : Instant), ppsSelects s rising = true → disc s = 1 → s.time.expected = some x →
      let e := instantDiff x (nowNs s + BitVec.ofNat 48 sub.val)
      (e.natAbs ≤ fget s 0 Fl.TIME_PPS_CFG_WINDOW_NS →
        ∃ t, exec (.ppsEdge rising sub) s = .next t ∧ rd t Reg.TIME_REF_ERR = BitVec.ofInt 32 e ∧ t.time.expected = some (x + 1000000000) ∧
          t.time.rejRun = 0 ∧
          t.time.integ = clampInt (-20000) 20000 (s.time.integ - e >>> fget s 0 Fl.TIME_PPS_CFG_KI_SHIFT)) ∧
      (fget s 0 Fl.TIME_PPS_CFG_WINDOW_NS < e.natAbs →
        ∃ t, exec (.ppsEdge rising sub) s = .next t ∧ rd t Reg.TIME_REF_ERR = BitVec.ofInt 32 e ∧ Counted s t 0 Ct.TIME_PPS_GLITCH 1 ∧
          Raised t 50 ∧ t.time.integ = s.time.integ ∧ t.time.servoCorr = s.time.servoCorr ∧
          (s.time.rejRun = 2 → Raised t 51 ∧ t.time.ref = .acquiring))) ∧
    (disc s = 1 → s.time.ref ≠ .holdover →
      ∃ t, exec .ppsLost s = .next t ∧ t.time.ref = .holdover ∧ t.time.expected = none ∧ Raised t 49 ∧
        t.time.integ = s.time.integ ∧ t.time.servoCorr = clampInt (-2147484) 2147484 (quotient (s.time.integ * 4294967296 * 25) 1000000000))

/-- R62: TIME_ADJ and ADJ_DONE. -/
def Obligations.PhaseAdjust : Prop :=
  ∀ s : State, Works s →
    (∀ v : Word,
      let rem := s.time.adjRem + v.toInt * 4294967296
      (disc s ≠ 2 ∧ rem.natAbs ≤ 1000000000 * 4294967296 →
        ∃ t, exec (.timeAdj v) s = .next t ∧ t.time.adjRem = rem ∧ rd t Reg.TIME_ADJ = v ∧ t.time.clock = s.time.clock) ∧
      (¬(disc s ≠ 2 ∧ rem.natAbs ≤ 1000000000 * 4294967296) →
        ∃ t, exec (.timeAdj v) s = .next t ∧ t.time = s.time ∧ Rejected t Reg.TIME_STATUS)) ∧
    (s.time.adjRem ≠ 0 → 0 < slewStep s → ∃ t, exec .adjDone s = .next t ∧ t.time.adjRem = 0 ∧ Raised t 57)

/-- R40, R58, R66, R71: STOP_INSTANT, TIME_BUFFER_INTERVAL_END, TIME_RSN_READ and TIME_CONV. -/
def Obligations.SlotTimingAndNames : Prop :=
  ∀ s : State, Works s →
    (s.time.slots = .stopping →
      ∃ t, exec .stopInstant s = .next t ∧ t.time.slots = .stopped ∧ timePending t = false ∧ Raised t 63 ∧
        (loadPending s = false → s.time.name.rsn ≠ Rsn.last → t.time.name = ⟨s.time.name.epoch, s.time.name.rsn.add 1⟩)) ∧
    (∀ (d : Nat) (v : Word), s.time.bufferEnd = some d → slotsOn s = false → s.pend = [(Reg.TIME_INC, v)] →
      ∃ t, exec .timeBufferIntervalEnd s = .next t ∧ rd t Reg.TIME_INC = v ∧ t.pend = [] ∧ t.time.bufferEnd = none ∧
        t.time.name = s.time.name) ∧
    (∀ f : Fn, Readable s f.val Reg.TIME_RSN = true →
      ∃ t, exec (.timeRsnRead f) s = .next t ∧ t.time.epochLatch.find f.val = some s.time.name.epoch ∧
        PutOut s t (.readData f.val Reg.TIME_RSN s.time.name.rsn.word)) ∧
    (∀ v : Word, bitAt 31 v = true → bitAt 0 v = false → ∀ r : Rsn, Rsn.ofWord (rd s Reg.TIME_CONV_IN_LO) = some r →
      ∃ t, exec (.timeConv v) s = .next t ∧ rd t Reg.TIME_CONV_OUT_X = BitVec.ofNat 32 r.toX ∧
        rd t Reg.TIME_CONV_OUT_RSN = rd s Reg.TIME_CONV_IN_LO ∧ fbit t 0 Fl.TIME_STATUS_CONV_VALID = true) ∧
    (∀ v : Word, bitAt 31 v = true → bitAt 0 v = false → Rsn.ofWord (rd s Reg.TIME_CONV_IN_LO) = none →
      ∃ t, exec (.timeConv v) s = .next t ∧ Rejected t Reg.TIME_STATUS ∧ t.time = s.time) ∧
    (∀ v : Word, bitAt 31 v = true → bitAt 0 v = true →
      let asn := (rd s Reg.TIME_CONV_IN_HI).toNat % 256 * 4294967296 + (rd s Reg.TIME_CONV_IN_LO).toNat
      ∃ t, exec (.timeConv v) s = .next t ∧ rd t Reg.TIME_CONV_OUT_RSN = (Rsn.ofX (asn % slotsPerEpoch)).word ∧
        rd t Reg.TIME_CONV_OUT_ASN_LO = BitVec.ofNat 32 asn ∧ rd t Reg.TIME_CONV_OUT_ASN_HI = BitVec.ofNat 32 (asn >>> 32) ∧
        fbit t 0 Fl.TIME_STATUS_CONV_VALID = true)

/-- R81, R82, R87: TRIG_CONFIG, TRIG_FIRED, TRIG_PULSE_END, CAPTURE, CAPT_LO_READ and CAPT_HI_READ. -/
def Obligations.TriggersAndCaptures : Prop :=
  ∀ s : State, Works s →
    (∀ (k : Fin 8) (v : Word), k.val < s.time.trigs.length →
      let u := storeKey (0x20 * k.val + Reg.TIME_TRIG_CFG) v s
      (trigOk u k.val = true → fget u (0x20 * k.val) Fl.TIME_TRIG_CFG_MODE = 1 → 10000 ≤ instantDiff (nowNs s) (trigAt u k.val) →
        ∃ t, exec (.trigConfig k v) s = .next t ∧ (getTrig t k.val).next = some (trigAt u k.val) ∧
          fget t (0x20 * k.val) Fl.TIME_TRIG_CFG_MODE = 1) ∧
      (trigOk u k.val = true → fget u (0x20 * k.val) Fl.TIME_TRIG_CFG_MODE = 1 → instantDiff (nowNs s) (trigAt u k.val) < 10000 →
        ∃ t, exec (.trigConfig k v) s = .next t ∧ (getTrig t k.val).next = none ∧ Counted s t 0 Ct.TIME_TRIG_MISS 1 ∧ Raised t 61) ∧
      (trigOk u k.val = false → ∃ t, exec (.trigConfig k v) s = .next t ∧ Rejected t Reg.TIME_STATUS ∧ t.time = s.time)) ∧
    (∀ (k : Fin 8) (at0 : Instant), k.val < s.time.trigs.length → fget s (0x20 * k.val) Fl.TIME_TRIG_CFG_MODE = 1 →
      (getTrig s k.val).next = some at0 →
        ∃ t, exec (.trigFired k) s = .next t ∧ getTrig t k.val = ⟨some at0, none⟩ ∧
          (fbit s (0x20 * k.val) Fl.TIME_TRIG_CFG_EVENT = true → Raised t 62)) ∧
    (∀ (k : Fin 8) (at0 : Instant), k.val < s.time.trigs.length → (getTrig s k.val).active = some at0 →
      ∃ t, exec (.trigPulseEnd k) s = .next t ∧ (getTrig t k.val).active = none ∧ (getTrig t k.val).next = (getTrig s k.val).next) ∧
    (∀ (c : Fin 4) (rising : Bool) (sub : Fin 25), c.val < s.time.capts.length → captSelects s c.val rising = true →
      (fbit s (0x10 * c.val) Fl.TIME_CAPT_CFG_WINDOWED = true → captWindow s c.val = true) →
        ∃ t, exec (.capture c rising sub) s = .next t ∧
          ((getCapt s c.val).fifo.length < 16 → (getCapt t c.val).fifo = (getCapt s c.val).fifo ++ [⟨nowNs s + BitVec.ofNat 48 sub.val, rising⟩]) ∧
          (16 ≤ (getCapt s c.val).fifo.length → getCapt t c.val = getCapt s c.val ∧ Counted s t 0 Ct.TIME_CAPT_OVF 1 ∧ Raised t 60)) ∧
    (∀ (f : Fn) (c : Fin 4) (e : CaptEntry) (rest : List CaptEntry), c.val < s.time.capts.length →
      Readable s f.val (0x10 * c.val + Reg.TIME_CAPT_LO) = true → (getCapt s c.val).fifo = e :: rest →
        ∃ t, exec (.captLoRead f c) s = .next t ∧ getCapt t c.val = ⟨e :: rest, some e⟩ ∧
          PutOut s t (.readData f.val (0x10 * c.val + Reg.TIME_CAPT_LO) (BitVec.ofNat 32 e.ns.toNat))) ∧
    (∀ (f : Fn) (c : Fin 4) (e : CaptEntry) (rest : List CaptEntry), c.val < s.time.capts.length →
      Readable s f.val (0x10 * c.val + Reg.TIME_CAPT_HI) = true → getCapt s c.val = ⟨e :: rest, some e⟩ →
        ∃ t, exec (.captHiRead f c) s = .next t ∧ getCapt t c.val = ⟨rest, none⟩ ∧
          PutOut s t (.readData f.val (0x10 * c.val + Reg.TIME_CAPT_HI) (captHiWord (some e) rest.length)))

/-- R83, R84, R85: TIDE_PULSE, TIDE_PAIR and TIDE_LOST. -/
def Obligations.TideLink : Prop :=
  ∀ s : State, Works s →
    (fbit s 0 Fl.TIME_CTRL_TIDE_SRC = true → s.claim.st ≠ .diag →
      ∃ t, exec .tidePulse s = .next t ∧ t.time.tideSeq = s.time.tideSeq + 1 ∧ t.time.tideLastPulse = some (monoNs t) ∧
        t.time.name = s.time.name ∧ t.time.slots = s.time.slots ∧ PutOut s t (.tide (monoNs t + 2000) t.time.tideOctets)) ∧
    (∀ fields : List Byte, fields.length = 22 → (tideParse (tideFrame fields) ≠ none) ∧
      (∀ octets : List Byte, octets.length = 24 → octets.head? = some 0xA5 → (octets.drop 1).take 22 = fields →
        octets.getLast? ≠ some (crc8 fields) → tideParse octets = none)) ∧
    (∀ (cap : Instant) (octets : List Byte), disc s = 2 → tideParse octets = none →
      ∃ t, exec (.tidePair cap octets) s = .next t ∧ Counted s t 0 Ct.TIME_TIDE_BAD 1 ∧ Raised t 54 ∧
        t.time.rejRun = s.time.rejRun + 1 ∧ t.time.clock = s.time.clock ∧ (s.time.rejRun = 2 → t.time.ref = .holdover)) ∧
    (∀ (cap : Instant) (octets : List Byte) (m : TideMsg), disc s = 2 → tideParse octets = some m → tideMismatch s cap m = false →
      let x := m.time + BitVec.ofInt 48 (fint s 0 Fl.TIME_TIDE_CFG_DELAY_NS)
      ∃ t, exec (.tidePair cap octets) s = .next t ∧ t.time.expected = some x ∧ t.time.rejRun = 0 ∧ t.time.lastRefMono = monoNs s ∧
        rd t Reg.TIME_REF_ERR = BitVec.ofInt 32 (instantDiff x cap) ∧ (slotsOn s = true → t.time.clock = s.time.clock)) ∧
    (disc s = 2 → s.time.tideLostTold = false →
      ∃ t, exec .tideLost s = .next t ∧ t.time.ref = .holdover ∧ Raised t 53 ∧ t.time.integ = s.time.integ ∧
        t.time.servoCorr = clampInt (-2147484) 2147484 (quotient (s.time.integ * 4294967296 * 25) (refInterval s)))

/-- R107 to R112: PREAMBLE_DETECTED, SFD_MATCHED, SYNC_RELEASE and RECAPTURED. -/
def Obligations.DemodulatorFollows : Prop :=
  ∀ (s : State) (n : Berth) (j : Nat), Works s → n.val < s.berths.length → j < (getBerth s n.val).demods.length →
    (∀ lp floor : Int, (getDemod s n.val j).st = .search → detects s n.val lp floor = true →
      ∃ t, exec (.preambleDetected n j lp floor) s = .next t ∧ (getDemod t n.val j).st = .sync ∧ (getDemod t n.val j).lp = lp ∧
        (getDemod t n.val j).floor = floor ∧ (getDemod t n.val j).recapture = false) ∧
    (∀ lp floor : Int, (getDemod s n.val j).st = .search → detects s n.val lp floor = false →
      ∃ t, exec (.preambleDetected n j lp floor) s = .next t ∧ t.berths = s.berths ∧ t.mac = s.mac) ∧
    (∀ m : SfdMeas, (getDemod s n.val j).st = .sync → sfdAccepted s n.val j m = true → sfdInTime s n.val j m = false →
      ∃ t, exec (.sfdMatched n j m) s = .next t ∧ (getDemod t n.val j).st = .search ∧
        Counted s t (berthBase n.val) Ct.BERTH_RX_FALSE_SYNC 1 ∧ t.mac = s.mac) ∧
    (∀ m : SfdMeas, (getDemod s n.val j).st = .sync → sfdAccepted s n.val j m = true → sfdInTime s n.val j m = true →
      ∃ t, exec (.sfdMatched n j m) s = .next t ∧ (getDemod t n.val j).st = .phr ∧
        ((getDemod t n.val j).record.map fun r => (r.sfdTime, r.rssi, r.berth, r.entry, r.seq)) =
          some (nowNs s + BitVec.ofNat 48 m.ns.val - rxDelay s n.val (entryMode s n.val j), level16 (m.rssi - rssiOfs s n.val), n.val, j, (getBerth s n.val).recSeq) ∧
        (getBerth t n.val).recSeq = (getBerth s n.val).recSeq + 1 ∧ Counted s t (berthBase n.val) Ct.BERTH_RX_SYNC 1) ∧
    (∀ why : SyncEnd, (getDemod s n.val j).st = .sync → mustRelease s n.val j why = false →
      ∃ t, exec (.syncRelease n j why) s = .next t ∧ t.berths = s.berths ∧ t.mac = s.mac) ∧
    (∀ why : SyncEnd, (getDemod s n.val j).st = .sync → mustRelease s n.val j why = true →
      ∃ t, exec (.syncRelease n j why) s = .next t ∧ (getDemod t n.val j).st = .search ∧
        Counted s t (berthBase n.val) Ct.BERTH_RX_FALSE_SYNC 1 ∧ t.mac = s.mac) ∧
    (∀ lp : Int, (getDemod s n.val j).st = .payload →
      captureRef s n.val j + 4 * (fget s (berthBase n.val) Fl.BERTH_RX_DET_CAPTURE_DB : Int) ≤ lp →
      detects s n.val lp (getDemod s n.val j).floor = true →
        ∃ t, exec (.recaptured n j lp) s = .next t ∧ (getDemod t n.val j).st = .sync ∧ (getDemod t n.val j).lp = lp ∧
          (getDemod t n.val j).recapture = true ∧ (getDemod t n.val j).record = none ∧
          Counted s t (berthBase n.val) Ct.BERTH_RX_RECAPTURE 1) ∧
    (∀ lp : Int, (getDemod s n.val j).st = .payload →
      lp < captureRef s n.val j + 4 * (fget s (berthBase n.val) Fl.BERTH_RX_DET_CAPTURE_DB : Int) →
        ∃ t, exec (.recaptured n j lp) s = .next t ∧ t.berths = s.berths ∧ t.mac = s.mac)

/-- R26, R105, R107, R110, R113: PHR_DECODED, SUSTAIN_FAIL, QUAY_OVERFLOW and LAST_SYMBOL_RECEIVED. -/
def Obligations.FrameEnds : Prop :=
  ∀ (s : State) (n : Berth) (j : Nat) (r : RxRec), Works s → s.hold.flushing = none → n.val < s.berths.length →
    j < (getBerth s n.val).demods.length → (getDemod s n.val j).record = some r → r.berth = n.val →
    (∀ p : Phr, (getDemod s n.val j).st = .phr → phrOk s r p = true →
      ∃ t, exec (.phrDecoded n j p) s = .next t ∧ (getDemod t n.val j).st = .payload ∧
        ((getDemod t n.val j).record.map fun x => (x.psduLen, x.seq)) = some (p.len, r.seq) ∧ t.mac = s.mac) ∧
    (∀ p : Phr, (getDemod s n.val j).st = .phr → phrOk s r p = false →
      ∃ t, exec (.phrDecoded n j p) s = .next t ∧ (getDemod t n.val j).st = .search ∧ (getDemod t n.val j).record = none ∧
        Counted s t (berthBase n.val) Ct.BERTH_RX_PHR_ERR 1 ∧ t.mac.records.length = s.mac.records.length + 1) ∧
    ((getDemod s n.val j).st = .payload →
      ∃ t, exec (.sustainFail n j) s = .next t ∧ (getDemod t n.val j).st = .search ∧ (getDemod t n.val j).record = none ∧
        Counted s t (berthBase n.val) Ct.BERTH_RX_SUSTAIN 1 ∧
        t.mac.records = s.mac.records ++ [{ r with abort := some .sustain, fcsOk := false }]) ∧
    ((getDemod s n.val j).st = .payload →
      ∃ t, exec (.quayOverflow n j) s = .next t ∧ (getDemod t n.val j).st = .search ∧ Counted s t 0 Ct.FABRIC_QUAY_DROP 1 ∧
        Raised t 182 ∧ t.mac.records = s.mac.records ++ [{ r with abort := some .quayFull, fcsOk := false }]) ∧
    (∀ body : RxBody, (getDemod s n.val j).st = .payload → r.coded = false → body.poisoned = false →
      ∃ t, exec (.lastSymbolReceived n j body) s = .next t ∧ (getDemod t n.val j).st = .search ∧
        (getDemod t n.val j).record = none ∧
        t.mac.records = s.mac.records ++ [{ r with fcsOk := body.fcsOk, frame := body.frame }] ∧
        (r.abort = none →
          (body.fcsOk = true → Counted s t (berthBase n.val) Ct.BERTH_RX_OK 1) ∧
          (body.fcsOk = false → Counted s t (berthBase n.val) Ct.BERTH_RX_FCS_ERR 1))) ∧
    (∀ body : RxBody, (getDemod s n.val j).st = .payload → r.coded = true →
      ∃ t, exec (.lastSymbolReceived n j body) s = .next t ∧ (getDemod t n.val j).st = .search ∧
        (t.dec.queue.map fun c => c.record) = (s.dec.queue.map fun c => c.record) ++ [r] ∧ t.mac = s.mac)

/-- R113, R114: DECODER_ENGINE_FREE and DECODE_DONE. -/
def Obligations.DecoderPool : Prop :=
  ∀ (s : State) (e : Fin 8) (c : Coded), Runs s → s.hold.flushing = none → e.val < s.dec.engines.length →
    (s.dec.engines.getD e.val none = none → unitOut s (20 + e.val) = false →
      ((firstCoded true s.dec.queue).orElse fun _ => firstCoded false s.dec.queue) = some c →
        ∃ t, exec (.decoderEngineFree e) s = .next t ∧ t.dec.engines.getD e.val none = some c ∧
          t.dec.queue = s.dec.queue.erase c) ∧
    (∀ body : RxBody, s.dec.engines.getD e.val none = some c → body.poisoned = false →
      ∃ t, exec (.decodeDone e body) s = .next t ∧ t.dec.engines.getD e.val none = none ∧ t.dec.queue = s.dec.queue ∧
        (t.mac.records.map fun r => (r.seq, r.decoder, r.fcsOk, r.frame)) =
          (s.mac.records.map fun r => (r.seq, r.decoder, r.fcsOk, r.frame)) ++ [(c.record.seq, some e.val, body.fcsOk, body.frame)])

/-- R95, R99, R102, R120: RX_LO_LOCKED, RX_LO_UNLOCK, RX_CLIP, RX_CAL and RX_CAL_DONE. -/
def Obligations.BerthTuningAndCalibration : Prop :=
  ∀ (s : State) (n : Berth), Works s → n.val < s.berths.length →
    (∀ j : Nat, berthPresent s n.val = true → rxOn s n.val = true → entryOn s n.val j = true →
      (getBerth s n.val).calBusy = false → (getBerth s n.val).blankEnd = none → inDock s n.val = false →
      j < berthEntries n.val → j < (getBerth s n.val).demods.length → (getDemod s n.val j).st = .off →
        ∃ t, exec (.rxLoLocked n) s = .next t ∧ (getBerth t n.val).loLock = true ∧
          (getDemod t n.val j).st = .search) ∧
    ((getBerth s n.val).loLock = true →
      ∃ t, exec (.rxLoUnlock n) s = .next t ∧ (getBerth t n.val).loLock = false ∧
        ((getBerth s n.val).demods.length ≤ berthEntries n.val → ((getBerth t n.val).demods.all fun d => d.st = .off) = true) ∧
        (rxOn s n.val = true → Raised t (8 * n.val + 2))) ∧
    (∀ peak : Nat, (getBerth s n.val).blankEnd ≠ none →
      ∃ t, exec (.rxClip n peak) s = .next t ∧ t.berths = s.berths) ∧
    (∀ peak : Nat, rxOn s n.val = true → (getBerth s n.val).blankEnd = none → (getBerth s n.val).clipNow = false →
      ∃ t, exec (.rxClip n peak) s = .next t ∧ (getBerth t n.val).clipNow = true ∧
        Counted s t (berthBase n.val) Ct.BERTH_RX_CLIP 1 ∧ Raised t (8 * n.val)) ∧
    (berthPresent s n.val = true → (getBerth s n.val).calBusy = false → rxOn s n.val = false →
      ∃ t, exec (.rxCal n) s = .next t ∧ (getBerth t n.val).calBusy = true ∧ airing t n.val = none) ∧
    (berthPresent s n.val = true → (getBerth s n.val).calBusy = true →
      ∃ t, exec (.rxCal n) s = .next t ∧ Rejected t (berthBase n.val) ∧ t.berths = s.berths) ∧
    (∀ dcRes imageRej : Nat, (getBerth s n.val).calBusy = true →
      ∃ t, exec (.rxCalDone n dcRes imageRej true) s = .next t ∧ (getBerth t n.val).calBusy = false ∧
        (getBerth t n.val).calValid = true ∧ (getBerth t n.val).dcRes = dcRes ∧ (getBerth t n.val).imageRej = max 35 imageRej ∧
        (getBerth t n.val).trackLimit = false ∧
        Raised t (8 * n.val + 1)) ∧
    (∀ dcRes imageRej : Nat, (getBerth s n.val).calBusy = true →
      ∃ t, exec (.rxCalDone n dcRes imageRej false) s = .next t ∧ (getBerth t n.val).calBusy = false ∧
        (getBerth t n.val).calValid = (getBerth s n.val).calValid ∧ fbit t (berthBase n.val) Fl.BERTH_STATUS_CAL_FAIL = true ∧
        Raised t (8 * n.val + 1))

/-- R123, R124, R134, R138, R146: TX_SYNTH_LOCKED, COEX_REQUEST, BAND_REFRESH_TRIGGER, BAND_REFRESH_DONE, BAND_REFRESH_OVERDUE and
TAP_DATA_WRITE. -/
def Obligations.TransmitterReady : Prop :=
  ∀ (s : State) (n : Berth), Works s → n.val < s.berths.length →
    (berthPresent s n.val = true → (getBerth s n.val).synCal = false →
      ∃ t, exec (.txSynthLocked n) s = .next t ∧ (getBerth t n.val).txLock = true ∧
        (getBerth t n.val).synKhz = lockKhz s n.val ∧ (getBerth t n.val).requests = (getBerth s n.val).requests) ∧
    (∀ (i : Nat) (x : Tx), coexNext s n.val = some i → (getBerth s n.val).requests[i]? = some x → coexOn s n.val = true →
      ∃ t, exec (.coexRequest n) s = .next t ∧
        (getBerth t n.val).requests = (getBerth s n.val).requests.set i { x with coexHeld := true }) ∧
    (∀ temp : Int, berthPresent s n.val = true → (getBerth s n.val).calValid = true → (getBerth s n.val).refreshDue = none →
      ∃ t, exec (.bandRefreshTrigger n temp) s = .next t ∧ (getBerth t n.val).temp = temp ∧
        (getBerth t n.val).refreshDue = some (monoNs t)) ∧
    (∀ band : Nat, band < 64 → (getBerth s n.val).synCal = true →
      ∃ t, exec (.bandRefreshDone n band true) s = .next t ∧ (getBerth t n.val).synCal = false ∧
        (getBerth t n.val).refreshDue = none ∧ (getBerth t n.val).vcoBand = band ∧ (getBerth t n.val).refreshMono = monoNs t ∧
        (getBerth s n.val).synCalMono + 220000 ≤ monoNs t) ∧
    (∀ band : Nat, (getBerth s n.val).synCal = true →
      ∃ t, exec (.bandRefreshDone n band false) s = .next t ∧ (getBerth t n.val).synCal = false ∧
        (getBerth t n.val).vcoBand = (getBerth s n.val).vcoBand ∧ Raised t (8 * n.val + 5)) ∧
    (∀ due : Nat, (getBerth s n.val).refreshDue = some due → (getBerth s n.val).refreshOverdue = false →
      (getBerth s n.val).synCal = false → due + 60000000000 ≤ monoNs s →
        ∃ t, exec (.bandRefreshOverdue n) s = .next t ∧ (getBerth t n.val).refreshOverdue = true ∧ Raised t (8 * n.val + 5)) ∧
    (∀ (f : Fn) (v : Word), Accepts s f.val (berthBase n.val + Reg.BERTH_TX_TAP_DATA) v = true →
      let a := fget s (berthBase n.val) Fl.BERTH_TX_TAP_ADDR_ADDR
      (fbit s (berthBase n.val + 4 * (a / 64)) Fl.BERTH_TX_MASK_EN = false →
        ∃ t, exec (.tapDataWrite f n v) s = .next t ∧
          ((getBerth t n.val).taps.find a).getD (tapReset a) = BitVec.ofNat 16 (bitsOf 15 0 v) ∧
          fget t (berthBase n.val) Fl.BERTH_TX_TAP_ADDR_ADDR = (a + 1) % 512) ∧
      (fbit s (berthBase n.val + 4 * (a / 64)) Fl.BERTH_TX_MASK_EN = true →
        ∃ t, exec (.tapDataWrite f n v) s = .next t ∧ Rejected t (berthBase n.val) ∧ t.berths = s.berths))

/-- R126, R127, R129, R131: TX_GO. -/
def Obligations.GoInstant : Prop :=
  ∀ (s : State) (n : Berth) (cca : Cca) (crossed : Nat) (gnt : Bool) (x : Tx) (rest : List Tx), Works s →
    n.val < s.berths.length → (getBerth s n.val).requests = x :: rest →
    let u := setGnt (coexGroup n.val) gnt (runRetune n.val (elapseToNs x.goAt s))
    let y := { x with coexHeld := coexOn u n.val }
    (∀ p : Int, goCheck u n.val y cca crossed gnt = .inr p →
      ∃ t, exec (.txGo n cca crossed gnt) s = .next t ∧ ((getBerth t n.val).onAir.map fun z => (z.frame, z.power, z.done)) =
          some (x.frame, p, x.done) ∧
        (getBerth t n.val).blankEnd = some x.endAt ∧ (getBerth t n.val).requests = rest ∧
        Counted s t (berthBase n.val) Ct.BERTH_TX_FRAME 1 ∧ 
        PutOut s t (.air n.val x.khz x.preAt p x.mode x.coded x.whitened x.frame (x.frame.psdu s.otp.oui s.otp.eui x.fcs4))) ∧
    (∀ o : TxOutcome, goCheck u n.val y cca crossed gnt = .inl o →
      ∃ t, exec (.txGo n cca crossed gnt) s = .next t ∧ (getBerth t n.val).onAir = (getBerth s n.val).onAir ∧
        (getBerth t n.val).blankEnd = (getBerth s n.val).blankEnd ∧ (getBerth t n.val).requests.length ≤ rest.length)

/-- R123, R127, R131, R132, R135, R138: TX_LAST_SYMBOL, BLANK_END, TX_UNDERRUN, TX_POISONED, TX_LOCK_LOST, COEX_REVOKED and
MASK_TRIP. -/
def Obligations.TransmissionEnds : Prop :=
  ∀ (s : State) (n : Berth) (x : Tx), Works s → n.val < s.berths.length → (getBerth s n.val).onAir = some x →
    let cut : Instant := nowNs s + nsStep (1000 * rampUs s n.val + 150000)
    (∀ e : Instant, (getBerth s n.val).blankEnd = some e →
      ∃ t, exec (.blankEnd n) s = .next t ∧ (getBerth t n.val).onAir = none ∧ (getBerth t n.val).blankEnd = none ∧
        (getBerth t n.val).lastBlank = some e) ∧
    (x.done = false →
      ∃ t, exec (.txLastSymbol n) s = .next t ∧ (getBerth t n.val).onAir = some { x with done := true } ∧
        (getBerth t n.val).blankEnd = (getBerth s n.val).blankEnd ∧
        (x.cls = .eb → Counted s t 0 Ct.MAC_EB_TX 1)) ∧
    (x.done = false →
      ∃ t, exec (.txUnderrun n) s = .next t ∧ ((getBerth t n.val).onAir.map fun z => (z.done, z.frame, z.lastAt)) =
          some (true, x.frame, nowNs s) ∧ (getBerth t n.val).blankEnd = some cut) ∧
    (x.done = false →
      ∃ t, exec (.txPoisoned n) s = .next t ∧ ((getBerth t n.val).onAir.map fun z => (z.done, z.frame, z.lastAt)) =
          some (true, x.frame, nowNs s) ∧ (getBerth t n.val).blankEnd = some cut) ∧
    (x.done = false →
      ∃ t, exec (.txLockLost n) s = .next t ∧ (getBerth t n.val).txLock = false ∧
        ((getBerth t n.val).onAir.map fun z => z.done) = some true ∧ (getBerth t n.val).blankEnd = some cut) ∧
    (x.done = true → (getBerth s n.val).airSent = true →
      ∃ t, exec (.txLockLost n) s = .next t ∧ (getBerth t n.val).txLock = false ∧ (getBerth t n.val).airSent = false ∧
        (getBerth t n.val).blankEnd = (getBerth s n.val).blankEnd ∧ Raised t (8 * n.val + 4) ∧ Raised t (8 * n.val + 5)) ∧
    (x.done = false → fbit s (4 * coexGroup n.val) Fl.BCOM_COEX_CFG_EN = true →
      fbit s (4 * coexGroup n.val) Fl.BCOM_COEX_CFG_REVOKE_ABORT = true → ∀ g : Fin 2, g.val = coexGroup n.val →
        ∃ t, exec (.coexRevoked g) s = .next t ∧ 
          t.bcom.gnt = s.bcom.gnt.set g.val (fbit s (4 * g.val) Fl.BCOM_COEX_CFG_GNT_POL) ∧
          ((getBerth t n.val).onAir.map fun z => z.done) = some true ∧ (getBerth t n.val).blankEnd = some cut) ∧
    (∀ j : Nat, j < 8 → x.done = false → x.mask = some j →
      ∃ t, exec (.maskTrip n) s = .next t ∧ ((getBerth t n.val).onAir.map fun z => z.done) = some true ∧
        (x.cls = .eb → fbit t (berthBase n.val + 4 * j) Fl.BERTH_TX_MASK_EN = false ∧
          fbit t (berthBase n.val) Fl.BERTH_STATUS_MASK_TRIP = true ∧ Raised t (8 * n.val + 6)))

/-- R143, R145: DUTY_BUCKET_ADVANCE, DUTY_USED_PRELOAD, PROFILE_FUSE and PROFILE_FUSE_DONE. -/
def Obligations.ProfileAndDuty : Prop :=
  ∀ s : State, Works s →
    (∃ t, exec .dutyBucketAdvance s = .next t ∧ t.bcom.bucket = max (s.bcom.bucket + 1) (bucketNow s) ∧
      (t.bcom.duty.all fun m => m.all fun p => t.bcom.bucket ≤ p.1 + 60) = true ∧ t.bcom.fusing = s.bcom.fusing) ∧
    (∀ (b : Nat) (v : Word), b < 8 → b < s.bcom.duty.length →
      ∃ t, exec (.dutyUsedPreload b v) s = .next t ∧ (t.bcom.duty.getD b []).find (bucketNow s) =
        some (min 0xFFFFFFFF (((s.bcom.duty.getD b []).find (bucketNow s)).getD 0 + v.toNat))) ∧
    (∀ (f : Fn) (v : Word), Accepts s f.val Reg.BCOM_PROF_CTRL (v ||| 0x80000000) = true → fuseOk s f.val = true →
      ∃ t, exec (.profileFuse f v) s = .next t ∧ t.bcom.fusing = true ∧ t.otp = s.otp) ∧
    (∀ (f : Fn) (v : Word), Accepts s f.val Reg.BCOM_PROF_CTRL (v ||| 0x80000000) = true → fuseOk s f.val = false →
      ∃ t, exec (.profileFuse f v) s = .next t ∧ Rejected t Reg.BCOM_STATUS ∧ t.bcom = s.bcom ∧ t.otp = s.otp) ∧
    (s.bcom.fusing = true →
      ∃ t, exec (.profileFuseDone true) s = .next t ∧ t.bcom.fusing = false ∧ t.otp.profile = some (stagedProfile s) ∧
        t.otp.profileBroken = false) ∧
    (s.bcom.fusing = true →
      ∃ t, exec (.profileFuseDone false) s = .next t ∧ t.bcom.fusing = false ∧ profile t = none ∧ t.otp.profile ≠ none ∧
        fbit t 0 Fl.BCOM_STATUS_FUSE_FAIL = true)

/-- R153, R154, R184: CELL_DATA_WRITE, CELL_DATA_READ and HOP_DATA_ACCESS. -/
def Obligations.MacWindows : Prop :=
  ∀ (s : State) (f : Fn), Works s →
    (∀ v : Word, Accepts s f.val Reg.MAC_CELL_DATA1 v = true →
      let i := fget s 0 Fl.MAC_CELL_ADDR_INDEX
      ∃ t, exec (.cellDataWrite f v) s = .next t ∧
        t.mac.staging.cells.find i = some ⟨rd s Reg.MAC_CELL_DATA0, rd t Reg.MAC_CELL_DATA1⟩ ∧
        fget t 0 Fl.MAC_CELL_ADDR_INDEX = (i + 1) % 4096 ∧ t.mac.active = s.mac.active) ∧
    (∀ (v : Word) (k : Nat), Accepts s f.val Reg.MAC_CELL_DATA1 v = true → k ≠ fget s 0 Fl.MAC_CELL_ADDR_INDEX →
      ∃ t, exec (.cellDataWrite f v) s = .next t ∧ t.mac.staging.cells.find k = s.mac.staging.cells.find k) ∧
    (Readable s f.val Reg.MAC_CELL_DATA1 = true →
      ∃ t, exec (.cellDataRead f) s = .next t ∧ PutOut s t (.readData f.val Reg.MAC_CELL_DATA1 (cellShown s).d1) ∧
        fget t 0 Fl.MAC_CELL_ADDR_INDEX = (fget s 0 Fl.MAC_CELL_ADDR_INDEX + 1) % 4096 ∧ t.mac = s.mac) ∧
    (∀ v : Word, Accepts s f.val Reg.MAC_HOP_DATA v = true →
      ∃ t, exec (.hopDataAccess f (some v)) s = .next t ∧ t.mac.staging.hops.find (hopKey s) = some (bitsOf 9 0 v) ∧
        fget t 0 Fl.MAC_HOP_ADDR_INDEX = (fget s 0 Fl.MAC_HOP_ADDR_INDEX + 1) % 256 ∧ t.mac.active = s.mac.active) ∧
    (Readable s f.val Reg.MAC_HOP_DATA = true →
      ∃ t, exec (.hopDataAccess f none) s = .next t ∧
        PutOut s t (.readData f.val Reg.MAC_HOP_DATA (BitVec.ofNat 32 (hopShown s))) ∧
        fget t 0 Fl.MAC_HOP_ADDR_INDEX = (fget s 0 Fl.MAC_HOP_ADDR_INDEX + 1) % 256 ∧ t.mac = s.mac)

/-- R66, R67, R70, R79, R96, R164, R182: SLOT_START, VIRTUAL_SLOT_START, PLAN_SLOT, CRYPTO_BEGIN_FRAME and ACK_WINDOW_END. -/
def Obligations.SlotsAndPlans : Prop :=
  ∀ s : State, Works s →
    (s.time.slots = .armed → (disc s = 2 → s.time.adopted.isSome = true) →
      ∃ t, exec .slotStart s = .next t ∧ t.time.slots = .running ∧ t.time.slotStart = s.time.slotStart ∧
        (loadPending s = false → t.time.name = s.time.name)) ∧
    (s.time.slots = .running →
      ∃ t, exec .slotStart s = .next t ∧ t.time.slots = .running ∧
        t.time.slotStart = s.time.slotStart + BitVec.ofNat 48 (slotLenNs s) ∧
        (loadPending s = false → s.time.name.rsn ≠ Rsn.last → t.time.name = ⟨s.time.name.epoch, s.time.name.rsn.add 1⟩)) ∧
    (slotsOn s = false →
      ∃ t, exec .virtualSlotStart s = .next t ∧ t.time.nextVirtual = s.time.nextVirtual + slotLenNs s ∧
        t.time.name = s.time.name ∧ t.time.slots = s.time.slots) ∧
    (s.start.phase ≠ .halted → s.time.slots = .running → meshOn s = true → gateOpen s = true →
      s.mac.planned ≠ some (plannedName s) →
        ∃ t, exec .planSlot s = .next t ∧ t.mac.planned = some (plannedName s) ∧ t.time = s.time) ∧
    (∀ (b : Berth) (what : Struct) (i : Nat) (x : Tx), s.start.phase ≠ .halted → b.val < s.berths.length →
      (getBerth s b.val).requests.findIdx? (fun r => !r.begun) = some i → (getBerth s b.val).requests[i]? = some x → x.cls ≠ .ba →
        ∃ t, exec (.cryptoBeginFrame b .clean what) s = .next t ∧
          ((getBerth t b.val).requests[i]?.map fun r => (r.begun, r.cls, r.goAt)) = some (true, x.cls, x.goAt) ∧
          (getBerth t b.val).requests.length = (getBerth s b.val).requests.length) ∧
    (∀ (id : Nat) (a : AwaitAck), s.start.phase ≠ .halted → s.mac.awaiting.find? (fun a => a.queued.id = id) = some a →
      ∃ t, exec (.ackWindowEnd id) s = .next t ∧ (t.mac.awaiting.any fun a => a.queued.id = id) = false)

/-- R160 to R162, R325: RECEIVE_RECORD. -/
def Obligations.ReceiveRecordSteps : Prop :=
  ∀ (s : State) (what : Struct) (r : RxRec), Runs s → s.mac.records = [r] → fget s 0 Fl.SVC_RAW_CFG_RX_MODE = 0 →
    let processed : MacS := (noteReception r false { s with mac := { s.mac with records := [] } }).mac
    (r.whole = false →
      ∃ t, exec (.receiveRecord .clean what) s = .next t ∧ t.mac = { s.mac with records := [] } ∧ t.tables = s.tables ∧ t.svc = s.svc) ∧
    (∀ m : HoldRead, r.whole = true → s.mac.recent = [] → structDrops m what = true →
      ∃ t, exec (.receiveRecord m what) s = .next t ∧ t.mac.records = [] ∧ t.svc.upq = s.svc.upq) ∧
    (∀ y : Reception, r.whole = true → recentOf s r = some y → y.passed = false →
      ∃ t, exec (.receiveRecord .clean what) s = .next t ∧ t.mac = { s.mac with records := [] } ∧ t.tables = s.tables ∧
        t.svc = s.svc ∧ rd t Ct.MAC_RX_DROP.off = rd s Ct.MAC_RX_DROP.off) ∧
    (∀ f : Frame, r.whole = true → recentOf s r = none → r.frame = some f → frameOurs s f = false →
      ∃ t, exec (.receiveRecord .clean what) s = .next t ∧ t.mac = processed ∧ t.tables = s.tables ∧
        Counted s t 0 Ct.MAC_RX_DROP 1) ∧
    (∀ f : Frame, r.whole = true → recentOf s r = none → r.frame = some f → frameOurs s f = true → f.kind = .data →
      inWindow s r = false →
      ∃ t, exec (.receiveRecord .clean what) s = .next t ∧ t.mac = processed ∧ t.tables = s.tables ∧
        Counted s t 0 Ct.MAC_RX_OFFWIN 1) ∧
    (∀ (f : Frame) (c : FrameSec), r.whole = true → recentOf s r = none → r.frame = some f → frameOurs s f = true → f.kind = .data →
      inWindow s r = true → f.sec = some c → c.level ≠ 0 → 16 < c.keyIndex →
        ∃ t, exec (.receiveRecord .clean what) s = .next t ∧ t.mac = processed ∧ t.tables = s.tables ∧
          Counted s t 0 Ct.MAC_RX_SEC_FAIL 1) ∧
    (∀ (f : Frame) (e : Eui), r.whole = true → r.frame = some f → frameOurs s f = true → f.kind = .data → f.src = .eui e →
      f.dst = Addr.broadcast → inWindow s r = true → f.sec = none → fbit s 0 Fl.MAC_CTRL_RX_UNSEC = true → gateOpen s = true →
      s.mac.recent = [] → nbrsOf s e = [] → learnsSuspect s r f (some e) = none →
      isWide s (bandOfBerth r.berth) r.name = false →
      (classicChans s (bandOfBerth r.berth) r.name).contains r.channel = true →
        ∃ t, exec (.receiveRecord .clean what) s = .next t ∧
          t.svc.upq = s.svc.upq ++ [⟨e, f.upper, r.sfdTime, r.name, r.berth, true, false⟩] ∧
          t.mac.recent.length = 1 ∧ t.mac.records = [])

/-- R191, R192, R205, R207: INDEX_REPAIR_DONE, STRAY_EXPIRED, ARBITER_RELEASE and NBR_AGED. -/
def Obligations.TablesAge : Prop :=
  ∀ s : State, Runs s →
    (s.tables.repairing.isSome = true →
      ∃ t, exec .indexRepairDone s = .next t ∧ t.tables.repairing = none ∧ fbit t 0 Fl.ROUTE_STATUS_REPAIR = false ∧
        Raised t 102 ∧ t.tables.dir = s.tables.dir ∧ t.tables.strays = s.tables.strays) ∧
    (∀ (e : Eui) (x : Stray) (m : Nat), s.tables.strays.find? (fun y => y.eui = e) = some x → x.until? = some m →
      ∃ t, exec (.strayExpired e) s = .next t ∧ t.tables = { s.tables with strays := s.tables.strays.filter fun y => y.eui ≠ e }) ∧
    (∀ (ev : ArbEvent) (x : Nbr), s.tables.arb = [ev] → ev.releaseMono ≤ monoNs s → nbrsOf s ev.eui = [(ev.nbr, x)] →
      x.home = false → homeEligible s (ev.nbr / 2048) = true →
        ∃ t, exec .arbiterRelease s = .next t ∧ t.tables.arb = [] ∧ t.tables.arbReleased = some ev.sfdTime ∧
          (nbrGet t ev.nbr).map (fun y => y.home) = some true ∧ Raised t 97 ∧ Counted s t 0 Ct.ROUTE_REHOME 1) ∧
    (∀ (n : Berth) (i : Nat) (x : Nbr), nbrGet s (nbrHandle n.val i) = some x → fget s 0 Fl.ROUTE_NBR_CFG_AGE_S ≠ 0 →
      (s.mac.queue.any fun q => q.toEui x.eui) = false →
        ∃ t, exec (.nbrAged n i) s = .next t ∧ nbrGet t (nbrHandle n.val i) = none ∧ Raised t 98 ∧
          t.mac.queue = s.mac.queue ∧ t.tables.index = s.tables.index) ∧
    (∀ (n : Berth) (i : Nat) (x : Nbr), nbrGet s (nbrHandle n.val i) = some x → fget s 0 Fl.ROUTE_NBR_CFG_AGE_S ≠ 0 →
      (s.mac.queue.any fun q => q.toEui x.eui) = false → nbrsOf s x.eui = [(nbrHandle n.val i, x)] →
      (dirGet s x.node).isSome = true →
        ∃ t, exec (.nbrAged n i) s = .next t ∧ (dirGet t x.node).map (fun d => d.nbrValid) = some false)

/-- R190, R210, R214, R215, R223: SHORT_EN_SET, VERSION_INC, DTSN_INC and ROUTE_WALK_TEST. -/
def Obligations.RouteControls : Prop :=
  ∀ s : State, Works s →
    (Accepts s (hmFn s) Reg.ROUTE_CTRL (routeCtrlWith s 1) = true →
      ∃ t, exec .shortEnSet s = .next t ∧ fbit t 0 Fl.ROUTE_CTRL_SHORT_EN = true ∧ t.tables.dir = s.tables.dir) ∧
    (∀ (k : Nat) (x : Nbr), Accepts s (hmFn s) Reg.ROUTE_CTRL (routeCtrlWith s 1) = true →
      fbit s 0 Fl.ROUTE_CTRL_SHORT_EN = false → s.tables.nbrs = [(k, x)] → x.short = 0xFFFE →
        ∃ t, exec .shortEnSet s = .next t ∧
          (nbrGet t k).map (fun y => y.short.toNat) = some (if fget s 0 Fl.MAC_PAN_SHORT = 0 then 1 else 0)) ∧
    (Accepts s (hmFn s) Reg.ROUTE_CTRL (routeCtrlWith s 3) = true →
      ∃ t, exec .versionInc s = .next t ∧
        fget t 0 Fl.ROUTE_RPL_INST_VERSION = seqNext (fget s 0 Fl.ROUTE_RPL_INST_VERSION) ∧ Raised t 111) ∧
    (Accepts s (hmFn s) Reg.ROUTE_CTRL (routeCtrlWith s 3) = true → fbit s 0 Fl.ROUTE_CTRL_RPL_EN = true →
      ∃ t, exec .versionInc s = .next t ∧ t.tables.trickle.fireMono.isSome = true ∧ t.tables.trickle.intervalMs ≤ dioImin s) ∧
    (Accepts s (hmFn s) Reg.ROUTE_CTRL (routeCtrlWith s 4) = true →
      ∃ t, exec .dtsnInc s = .next t ∧ fget t 0 Fl.ROUTE_RPL_TRICKLE_DTSN = seqNext (fget s 0 Fl.ROUTE_RPL_TRICKLE_DTSN)) ∧
    (∀ (f : Fn) (v : Word), Accepts s f.val Reg.ROUTE_WALK_CTRL (v ||| 0x80000000) = true →
      dirGet s (bitsOf 17 0 v) = none →
        ∃ t, exec (.routeWalkTest f v .clean) s = .next t ∧ fget t 0 Fl.ROUTE_WALK_RESULT_STATUS = 4 ∧
          fget t 0 Fl.ROUTE_WALK_RESULT_HOPS = 0 ∧ Counted s t 0 Ct.ROUTE_WALK_FAIL 1 ∧ Raised t 106) ∧
    (∀ (f : Fn) (v : Word) (d : DirEnt), Accepts s f.val Reg.ROUTE_WALK_CTRL (v ||| 0x80000000) = true →
      dirGet s (bitsOf 17 0 v) = some d → d.state = .heard → d.bad = [] → d.nbrValid = true → d.nbr < 16384 →
        ∃ t, exec (.routeWalkTest f v .clean) s = .next t ∧ fget t 0 Fl.ROUTE_WALK_RESULT_STATUS = 0 ∧
          fget t 0 Fl.ROUTE_WALK_RESULT_HOPS = 1 ∧ fget t 0 Fl.ROUTE_WALK_RESULT_FIRST_NBR = d.nbr ∧
          rd t Reg.ROUTE_WALK_HOP = BitVec.ofNat 32 (bitsOf 17 0 v) ∧
          dirGet t (bitsOf 17 0 v) = some { d with depth := 1 }) ∧
    (∀ (f : Fn) (v : Word) (d : DirEnt), Accepts s f.val Reg.ROUTE_WALK_CTRL (v ||| 0x80000000) = true →
      dirGet s (bitsOf 17 0 v) = some d → d.state = .routed → d.bad = [] → d.nbrValid = false → d.parent0 = noNode → d.parent1 = noNode →
      d.pref.testBit 1 = false →
        ∃ t, exec (.routeWalkTest f v .clean) s = .next t ∧ fget t 0 Fl.ROUTE_WALK_RESULT_STATUS = 1 ∧
          Counted s t 0 Ct.ROUTE_MISSING 1 ∧ Raised t 105 ∧ Counted s t 0 Ct.ROUTE_WALK_FAIL 1 ∧ t.tables = s.tables) ∧
    (∀ (f : Fn) (v : Word) (d : DirEnt), Accepts s f.val Reg.ROUTE_WALK_CTRL (v ||| 0x80000000) = true →
      dirGet s (bitsOf 17 0 v) = some d → d.state = .suspect →
        ∃ t, exec (.routeWalkTest f v .clean) s = .next t ∧ fget t 0 Fl.ROUTE_WALK_RESULT_STATUS = 4 ∧
          Raised t 101 ∧ Counted s t 0 Ct.ROUTE_WALK_FAIL 1 ∧ t.tables = s.tables) ∧
    (∀ (f : Fn) (v : Word) (d : DirEnt) (w : Nat), Accepts s f.val Reg.ROUTE_WALK_CTRL (v ||| 0x80000000) = true →
      dirGet s (bitsOf 17 0 v) = some d → d.state ≠ .suspect → d.bad = [w] →
        ∃ t, exec (.routeWalkTest f v .clean) s = .next t ∧ fget t 0 Fl.ROUTE_WALK_RESULT_STATUS = 4 ∧
          (dirGet t (bitsOf 17 0 v)).map (fun x => x.state) = some .suspect ∧ Counted s t 0 Ct.ROUTE_SUSPECT 1)

/-- R210 to R212: DIO_TRICKLE_FIRE, DIS_RECEIVED, DAO_RECEIVED and DAO_LIFE_TICK. -/
def Obligations.RplMessages : Prop :=
  ∀ s : State, Runs s →
    (∀ m : Nat, s.tables.trickle.fireMono = some m → fbit s 0 Fl.ROUTE_CTRL_RPL_EN = true →
      fget s 0 Fl.ROUTE_RPL_TRICKLE_REDUNDANCY ≠ 0 → fget s 0 Fl.ROUTE_RPL_TRICKLE_REDUNDANCY ≤ s.tables.trickle.heard →
        ∃ t, exec .dioTrickleFire s = .next t ∧ t.tables.trickle.heard = 0 ∧ t.tables.trickle.fireMono.isSome = true ∧
          t.tables.trickle.intervalMs = min (2 * s.tables.trickle.intervalMs) (dioImin s * 2 ^ fget s 0 Fl.ROUTE_RPL_TRICKLE_DOUBLINGS) ∧
          t.mac.queue = s.mac.queue ∧ t.tables.dir = s.tables.dir) ∧
    (∀ x : RplIn, s.svc.rplq = [x] → x.msg = .dis → x.multicast = true → fbit s 0 Fl.ROUTE_CTRL_RPL_EN = true →
      ∃ t, exec .disReceived s = .next t ∧ t.svc.rplq = [] ∧ t.tables.trickle.fireMono.isSome = true ∧
        t.tables.trickle.intervalMs ≤ dioImin s ∧ t.mac = s.mac) ∧
    (∀ (x : RplIn) (d : Dao), s.svc.rplq = [x] → x.msg = .dao d → fbit s 0 Fl.ROUTE_CTRL_RPL_EN = true →
      d.inst ≠ fget s 0 Fl.ROUTE_RPL_INST_INSTANCE →
        ∃ t, exec (.daoReceived .clean) s = .next t ∧ t.svc.rplq = [] ∧ t.tables = s.tables ∧ Counted s t 0 Ct.ROUTE_DAO_DROP 1 ∧
          Raised t 103) ∧
    (∀ (x : RplIn) (d : Dao) (g : DaoTarget) (p : Transit) (h : Handle) (e : DirEnt), s.svc.rplq = [x] → x.msg = .dao d →
      fbit s 0 Fl.ROUTE_CTRL_RPL_EN = true → d.inst = fget s 0 Fl.ROUTE_RPL_INST_INSTANCE → d.dodag.all (fun a => a = dodagId s) = true →
      d.kFlag = false → d.targets = [g] → g.len = 128 → inPrefix s g.addr = true → d.transits = [p] →
      p.parent = some (dodagId s) → inPrefix s (dodagId s) = true →
      p.lifetime ≠ 0 → lookup s g.addr.node = some h → dirGet s h = some e → e.bad = [] → e.state = .heard →
        ∃ t, exec (.daoReceived .clean) s = .next t ∧ Counted s t 0 Ct.ROUTE_DAO 1 ∧
          dirGet t h = some { e with
            parent0 := h, parent1 := noNode, state := .routed, depth := 1, daoSeq := p.sequence
            daoLife := daoLife s p.lifetime }) ∧
    (∀ (x : RplIn) (d : Dao) (g : DaoTarget) (p : Transit) (h : Handle) (e : DirEnt), s.svc.rplq = [x] → x.msg = .dao d →
      fbit s 0 Fl.ROUTE_CTRL_RPL_EN = true → d.inst = fget s 0 Fl.ROUTE_RPL_INST_INSTANCE → d.dodag.all (fun a => a = dodagId s) = true →
      d.kFlag = false → d.targets = [g] → g.len = 128 → inPrefix s g.addr = true → d.transits = [p] →
      p.parent = some (dodagId s) → inPrefix s (dodagId s) = true →
      p.lifetime ≠ 0 → lookup s g.addr.node = some h → dirGet s h = some e → e.bad = [] → e.state = .routed → p.sequence ≠ e.daoSeq →
      seqNewer p.sequence.toNat e.daoSeq.toNat = false →
        ∃ t, exec (.daoReceived .clean) s = .next t ∧ t.tables = s.tables ∧ Counted s t 0 Ct.ROUTE_DAO_STALE 1) ∧
    (∀ (x : RplIn) (d : Dao) (g : DaoTarget) (p : Transit) (h : Handle) (e : DirEnt), s.svc.rplq = [x] → x.msg = .dao d →
      fbit s 0 Fl.ROUTE_CTRL_RPL_EN = true → d.inst = fget s 0 Fl.ROUTE_RPL_INST_INSTANCE → d.dodag.all (fun a => a = dodagId s) = true →
      d.kFlag = false → d.targets = [g] → g.len = 128 → inPrefix s g.addr = true → d.transits = [p] →
      p.parent = some (dodagId s) → inPrefix s (dodagId s) = true →
      p.lifetime = 0 → lookup s g.addr.node = some h → dirGet s h = some e → e.bad = [] → e.state = .routed →
      seqNewer p.sequence.toNat e.daoSeq.toNat = true →
        ∃ t, exec (.daoReceived .clean) s = .next t ∧
          dirGet t h = some { e with parent0 := noNode, parent1 := noNode, state := .expired, daoSeq := p.sequence, daoLife := 0 }) ∧
    (∀ (x : RplIn) (d : Dao) (g : DaoTarget) (p : Transit) (h : Handle) (e : DirEnt), s.svc.rplq = [x] → x.msg = .dao d →
      fbit s 0 Fl.ROUTE_CTRL_RPL_EN = true → d.inst = fget s 0 Fl.ROUTE_RPL_INST_INSTANCE → d.dodag.all (fun a => a = dodagId s) = true →
      d.kFlag = false → d.targets = [g] → g.len = 128 → inPrefix s g.addr = true → d.transits = [p] →
      p.parent = some (dodagId s) → inPrefix s (dodagId s) = true → p.lifetime = 0 → lookup s g.addr.node = some h →
      dirGet s h = some e → e.bad = [] → e.state = .routed → p.sequence = e.daoSeq →
        ∃ t, exec (.daoReceived .clean) s = .next t ∧ Raised t 109 ∧ dirGet t h = some { e with state := .expired, daoLife := 0 }) ∧
    (∀ (h : Handle) (e : DirEnt), (s.tables.dir.filter fun p => p.1 = h) = [(h, e)] → 1 < e.daoLife → e.daoLife ≠ 0xFFFF →
      ∃ t, exec .daoLifeTick s = .next t ∧ s.tables.daoMinute < t.tables.daoMinute ∧
        dirGet t h = some { e with daoLife := e.daoLife - 1 }) ∧
    (∀ (h : Handle) (e : DirEnt), (s.tables.dir.filter fun p => p.1 = h) = [(h, e)] → e.daoLife = 1 → e.state = .routed →
      ∃ t, exec .daoLifeTick s = .next t ∧ Raised t 109 ∧ dirGet t h = some { e with daoLife := 0, state := .expired })

/-- R217 to R222: TBL_LOOKUP, TBL_READ, TBL_READ_LOCK, TBL_UNLOCK and TBL_NEXT. -/
def Obligations.TableReads : Prop :=
  ∀ (s : State) (f : Fn), Runs s → nextTbl s = some (.regs f.val) →
    let op := fget s (fb f.val) Fl.TBL_CMD_OP
    let c := tblRegs s f.val
    let answered (t : State) (code h : Nat) : Prop := fget t (fb f.val) Fl.TBL_STATUS_CODE = code ∧
      fbit t (fb f.val) Fl.TBL_STATUS_DONE = true ∧ fbit t (fb f.val) Fl.TBL_STATUS_BUSY = false ∧
      rd t (fb f.val + Reg.TBL_CMD) = 0 ∧ rd t (fb f.val + Reg.TBL_HANDLE) = BitVec.ofNat 32 h
    (op = 1 → c.table = 0 → lookup s c.key = none →
      ∃ t, exec (.tblLookup f .regs .clean) s = .next t ∧ answered t stNodeUnknown noNode ∧ t.tables = (popTbl (.regs f.val) s).tables) ∧
    (∀ (h : Handle) (d : DirEnt), op = 1 → c.table = 0 → lookup s c.key = some h → dirGet s h = some d →
      ∃ t, exec (.tblLookup f .regs .clean) s = .next t ∧ t.tables = (popTbl (.regs f.val) s).tables ∧
        (maySee s f.val d = true → answered t stOk h) ∧ (maySee s f.val d = false → answered t stRejected noNode)) ∧
    (∀ d : DirEnt, op = 2 → c.table = 0 → c.handle ≠ noNode → dirGet s c.handle = some d → maySee s f.val d = true → d.bad = [] →
      ∃ t, exec (.tblRead f .regs .clean) s = .next t ∧ answered t stOk c.handle ∧ t.tables = (popTbl (.regs f.val) s).tables ∧
        ∀ i : Fin 16, rd t (fb f.val + Reg.TBL_DATA + 4 * i.val) =
          BitVec.ofNat 32 ((d.words.getD (i.val / 2) 0) / 2 ^ (32 * (i.val % 2)))) ∧
    (∀ d : DirEnt, op = 3 → c.table = 0 → c.handle ≠ noNode → dirGet s c.handle = some d → maySee s f.val d = true → d.bad = [] →
      lockedBy s f.val c.handle = none → (s.tables.locks.filter fun l => l.fn = f.val).length < 8 →
        ∃ t, exec (.tblReadLock f .regs .clean) s = .next t ∧ answered t stOk c.handle ∧
          (t.tables.locks.find? fun l => l.handle = c.handle) =
            some ⟨c.handle, f.val, monoNs s + fget s 0 Fl.ROUTE_TBL_CFG_LOCK_MS * 1000000⟩ ∧ t.tables.dir = s.tables.dir) ∧
    (∀ (d : DirEnt) (g : Fn), op = 3 → c.table = 0 → c.handle ≠ noNode → dirGet s c.handle = some d → maySee s f.val d = true →
      lockedBy s f.val c.handle = some g.val →
        ∃ t, exec (.tblReadLock f .regs .clean) s = .next t ∧ answered t stBusy c.handle ∧
          fget t (fb f.val) Fl.TBL_STATUS_HOLDER = g.val ∧ t.tables = (popTbl (.regs f.val) s).tables) ∧
    (∀ d : DirEnt, op = 7 → c.table = 0 → c.handle ≠ noNode → dirGet s c.handle = some d → maySee s f.val d = true →
      lockedBy s f.val c.handle = none →
        ∃ t, exec (.tblUnlock f .regs) s = .next t ∧ answered t stOk c.handle ∧
          (t.tables.locks.any fun l => l.handle = c.handle) = false ∧ t.tables.dir = s.tables.dir) ∧
    (∀ (h : Handle) (d : DirEnt), op = 8 → c.table = 0 → dirGet s h = some d → maySee s f.val d = true →
      (c.handle = noNode ∨ c.handle < h) →
      (∀ p ∈ (s.tables.dir.takeWhile fun p => p.1 ≠ h), maySee s f.val p.2 = true → c.handle ≠ noNode ∧ p.1 ≤ c.handle) →
        ∃ t, exec (.tblNext f .regs .clean) s = .next t ∧ answered t stOk h ∧ t.tables = (popTbl (.regs f.val) s).tables) ∧
    (op = 8 → c.table = 0 → (∀ p ∈ s.tables.dir, maySee s f.val p.2 = true → c.handle ≠ noNode ∧ p.1 ≤ c.handle) →
      ∃ t, exec (.tblNext f .regs .clean) s = .next t ∧ answered t stNodeUnknown noNode ∧ t.tables = (popTbl (.regs f.val) s).tables)

/-- R204, R217 to R220: TBL_WRITE, TBL_INSERT, TBL_DELETE and LOCK_EXPIRED. -/
def Obligations.TableChanges : Prop :=
  ∀ (s : State) (f : Fn), Runs s →
    let asked (op : Nat) : Prop := nextTbl s = some (.regs f.val) ∧ fget s (fb f.val) Fl.TBL_CMD_OP = op ∧
      fget s (fb f.val) Fl.TBL_CMD_TABLE = 0
    let askedNbr (op : Nat) : Prop := nextTbl s = some (.regs f.val) ∧ fget s (fb f.val) Fl.TBL_CMD_OP = op ∧
      fget s (fb f.val) Fl.TBL_CMD_TABLE = 1
    let c := tblRegs s f.val
    let word (i : Nat) : Word := rd s (fb f.val + Reg.TBL_DATA + 4 * i)
    let answered (t : State) (code h : Nat) : Prop := fget t (fb f.val) Fl.TBL_STATUS_CODE = code ∧
      fbit t (fb f.val) Fl.TBL_STATUS_BUSY = false ∧ rd t (fb f.val + Reg.TBL_HANDLE) = BitVec.ofNat 32 h
    (∀ d : DirEnt, asked 4 → c.handle ≠ noNode → dirGet s c.handle = some d → maySee s f.val d = true →
      lockedBy s f.val c.handle = none → d.state ≠ .suspect → c.wmask = 0x20 →
        ∃ t, exec (.tblWrite f .regs .clean) s = .next t ∧ answered t stOk c.handle ∧
          dirGet t c.handle = some { d with
            mid0 := BitVec.ofNat 16 (word 10).toNat, mid1 := BitVec.ofNat 16 ((word 10).toNat / 65536),
            rxCnt := (word 11).toNat % 65536, txFail := (word 11).toNat / 65536, bad := d.bad.filter fun w => w ≠ 5 } ∧
          (t.tables.locks.any fun l => l.handle = c.handle) = false) ∧
    (∀ (d : DirEnt) (k : Handle), asked 4 → c.handle ≠ noNode → dirGet s c.handle = some d → maySee s f.val d = true →
      lockedBy s f.val c.handle = none → d.state ≠ .suspect → c.wmask = 0x20 → k ≠ c.handle →
        ∃ t, exec (.tblWrite f .regs .clean) s = .next t ∧ dirGet t k = dirGet s k) ∧
    (∀ d : DirEnt, asked 4 → c.handle ≠ noNode → dirGet s c.handle = some d → maySee s f.val d = false →
      ∃ t, exec (.tblWrite f .regs .clean) s = .next t ∧ answered t stRejected c.handle ∧ t.tables = (popTbl (.regs f.val) s).tables) ∧
    (∀ i : Nat, asked 5 → c.handle ≠ noNode → lookup s c.key = none → underRepair s (keysOf s c.key) = false →
      dirGet s c.handle = none → imageOk s 0xFF c.handle c.key (wordsOf c.image) = true →
      emptyWay s (keysOf s c.key).b1 = some i →
      s.camp.camps = [] →
        ∃ t, exec (.tblInsert f .regs .clean) s = .next t ∧ answered t stOk c.handle ∧ lookup t c.key = some c.handle ∧
          (dirGet t c.handle).map (fun d => (d.eui, d.tenant)) =
            some (c.key, if f.val = hmFn s then bitsOf 12 10 (word 3) else f.val) ∧
          fget t (fb f.val) Fl.TBL_INFO_RELOC = 0) ∧
    (∀ (h : Handle) (d : DirEnt), asked 5 → lookup s c.key = some h → dirGet s h = some d →
      ∃ t, exec (.tblInsert f .regs .clean) s = .next t ∧
        answered t (if maySee s f.val d = true then stBadDesc else stRejected) h ∧ t.tables = (popTbl (.regs f.val) s).tables) ∧
    (∀ d : DirEnt, asked 6 → c.handle ≠ noNode → dirGet s c.handle = some d → maySee s f.val d = true →
      lockedBy s f.val c.handle = none → nbrsOf s d.eui = [] → s.camp.camps = [] →
        ∃ t, exec (.tblDelete f .regs .clean) s = .next t ∧ answered t stOk c.handle ∧ dirGet t c.handle = none ∧
          t.tables.dirFreed = s.tables.dirFreed ++ [c.handle] ∧ (t.tables.locks.any fun l => l.handle = c.handle) = false) ∧
    (∀ x : Nbr, askedNbr 6 → f.val = hmFn s → nbrGet s (c.handle % 16384) = some x →
      (s.mac.queue.any fun q => q.toEui x.eui) = false →
        ∃ t, exec (.tblDelete f .regs .clean) s = .next t ∧ answered t stOk (c.handle % 16384) ∧
          nbrGet t (c.handle % 16384) = none ∧ Raised t 98) ∧
    (∀ x : Nbr, askedNbr 6 → f.val ≠ hmFn s → nbrGet s (c.handle % 16384) = some x →
      ∃ t, exec (.tblDelete f .regs .clean) s = .next t ∧ answered t stRejected (c.handle % 16384) ∧ t.tables = (popTbl (.regs f.val) s).tables) ∧
    (nextTbl s ≠ some (.regs f.val) →
      ∃ t, exec (.tblWrite f .regs .clean) s = .next t ∧ t.tables = s.tables) ∧
    (∀ (h : Handle) (l : TblLock), s.tables.locks.find? (fun l => l.handle = h) = some l →
      ∃ t, exec (.lockExpired h) s = .next t ∧ t.tables = { s.tables with locks := s.tables.locks.filter fun l => l.handle ≠ h } ∧
        Raised t 110)

/-- R237 to R240, R242, R256, R257: MSG_SEND, DGRAM_SEND and RAW_FRAME. -/
def Obligations.SendsBegin : Prop :=
  ∀ (s : State) (f : Fn) (r : Fin 2) (x : DescS), Runs s →
    (getRing s f.val r.val).descs = [x] → x.phase = .ready → x.ring = r.val →
    let near (h : Handle) (d : DirEnt) (n : Nbr) : Prop := dirGet s h = some d ∧ nbrGet s d.nbr = some n ∧ d.state = .heard ∧
      d.nbrValid = true ∧ d.depth = 1 ∧ d.bad = [] ∧ (f.val = hmFn s ∨ d.tenant = f.val)
    let names (h : Handle) (d : DirEnt) : Prop := h ≠ noNode ∧ x.num 28 4 = h ∧ BitVec.ofNat 64 (x.num 20 8) = d.eui
    let refusedWith (t : State) (st : Nat) : Prop := (getRing t f.val r.val).descs = [] ∧
      (getFn t f.val).out = (getFn s f.val).out ++ [(returnRing r.val, ⟨x.tag, st, x.op, false, 0, noNode, nowNs s, 0⟩)]
    (∀ (h : Handle) (d : DirEnt) (n : Nbr), x.op = opMsgSend → sendOn s = true → bodyStatus x.payload = none → near h d n → names h d →
      (sendSpec f.val x).sealed = false → (sendSpec f.val x).actAt = none → (sendSpec f.val x).deadline = none →
      s.svc.txns = [] → cellsOpen s (cellsFor (x.payload.length + 256)) = true → fget s 0 Fl.KEY_LINK_CFG_LEVEL = 0 →
      x.payload.length ≤ 1224 →
        ∃ t, exec (.msgSend f r .clean) s = .next t ∧
          t.svc.txns.map (fun y => (y.token, y.target, y.mid, y.phase)) =
            [((takeToken f.val s).1, d.eui, BitVec.ofNat 16 (fget s 0 Fl.SVC_MID_NEXT_MID), .sending)] ∧
          fget t 0 Fl.SVC_MID_NEXT_MID = (fget s 0 Fl.SVC_MID_NEXT_MID + 1) % 65536 ∧
          s.mac.queue.length < t.mac.queue.length) ∧
    (x.op = opMsgSend → sendOn s = false → s.claim.st ≠ .diag →
      ∃ t, exec (.msgSend f r .clean) s = .next t ∧ refusedWith t stRejected ∧ t.svc = s.svc ∧ t.mac = s.mac) ∧
    (x.op = opMsgSend → sendOn s = true → bodyStatus x.payload = none → s.claim.st ≠ .diag →
      resolve (x.num 28 4) (BitVec.ofNat 64 (x.num 20 8)) s = none →
        ∃ t, exec (.msgSend f r .clean) s = .next t ∧ refusedWith t stNodeUnknown ∧ t.svc = s.svc ∧ t.mac = s.mac) ∧
    (∀ (h : Handle) (d : DirEnt) (n : Nbr), x.op = opDgram → sendOn s = true → x.num 32 2 ≠ portLocal s → near h d n → names h d →
      (x.slotName 38).name = none → fget s 0 Fl.KEY_LINK_CFG_LEVEL = 0 → x.payload.length ≤ 1232 →
        ∃ t, exec (.dgramSend f r .clean) s = .next t ∧
          (t.svc.dgrams.drop s.svc.dgrams.length).map (fun j => (j.id, j.fn, j.index, j.handle, j.sent)) =
            [(s.svc.nextId, f.val, x.index, some h, false)] ∧ t.svc.nextId = s.svc.nextId + 1 ∧
          s.mac.queue.length < t.mac.queue.length) ∧
    (x.op = opDgram → sendOn s = false → s.claim.st ≠ .diag →
      ∃ t, exec (.dgramSend f r .clean) s = .next t ∧ refusedWith t stRejected ∧ t.svc = s.svc ∧ t.mac = s.mac) ∧
    (∀ at0 : SlotName, x.op = opRaw → sendOn s = true → (x.slotName 24).name = some at0 → 2 ≤ slotDist s.time.name at0 →
      ∃ t, exec (.rawFrame f r) s = .next t ∧ t.svc.raws = s.svc.raws ++ [⟨s.svc.nextId, f.val, x.ring, x.index, x.tag⟩] ∧
        (t.mac.queue.drop s.mac.queue.length).map (fun q => (q.owner, q.rawAt)) = [(.raw s.svc.nextId, some (at0, x.num 22 2))]) ∧
    (∀ at0 : SlotName, x.op = opRaw → sendOn s = true → (x.slotName 24).name = some at0 → slotDist s.time.name at0 < 2 →
      s.claim.st ≠ .diag →
      ∃ t, exec (.rawFrame f r) s = .next t ∧ refusedWith t stTooLate ∧ t.svc = s.svc ∧ t.mac = s.mac ∧
        Counted s t 0 Ct.SVC_TOO_LATE 1)

/-- R246 to R250: MSG_GROUP and MPL_TRICKLE_FIRE. -/
def Obligations.GroupMessages : Prop :=
  ∀ s : State, Runs s →
    let only (f : Fn) (r : Fin 2) (x : DescS) : Prop := (getRing s f.val r.val).descs = [x] ∧ x.phase = .ready ∧ x.ring = r.val ∧
      x.op = opMsgGroup ∧ sendOn s = true ∧ bodyStatus x.payload = none
    let nextMs (j : MplJob) : Nat := if j.doublings < fget s 0 Fl.SVC_MPL_CFG_DOUBLINGS then 2 * j.intervalMs else j.intervalMs
    (∀ (f : Fn) (r : Fin 2) (x : DescS), only f r x → x.byte 22 = 1 → (groupSpec f.val x).sealed = false →
      f.val = groupOwner s (x.num 20 2) → x.num 20 2 ≠ 4095 → (groupSpec f.val x).actAt = none →
      (groupSpec f.val x).deadline = none → x.payload.length ≤ 1216 → s.svc.mpls = [] →
        ∃ t, exec (.msgGroup f r .clean) s = .next t ∧
          t.svc.mpls.map (fun j => (j.group, j.waiting, j.copies, j.fired, j.heard, j.index)) = [(x.num 20 2, false, 0, 0, 0, x.index)] ∧
          fget t 0 Fl.SVC_FRAG_MPL_SEQ = (fget s 0 Fl.SVC_FRAG_MPL_SEQ + 1) % 256) ∧
    (∀ (f : Fn) (r : Fin 2) (x : DescS), only f r x → x.byte 22 = 2 → x.num 20 2 ≠ 4095 → s.tables.dir = [] → s.svc.groups = [] →
      s.claim.st ≠ .diag →
        ∃ t, exec (.msgGroup f r .clean) s = .next t ∧ t.svc.groups = [] ∧ Raised t 124 ∧ (getRing t f.val r.val).descs = [] ∧
          (getFn t f.val).out = (getFn s f.val).out ++ (if x.quietOk = true then [] else
            [(returnRing r.val, ⟨x.tag, stOk, x.op, false, 0, noNode, nowNs s, 0⟩)])) ∧
    (∀ (f : Fn) (r : Fin 2) (x : DescS), only f r x → x.byte 22 = 1 → f.val ≠ groupOwner s (x.num 20 2) → s.claim.st ≠ .diag →
      ∃ t, exec (.msgGroup f r .clean) s = .next t ∧ Raised t 124 ∧ t.svc = s.svc ∧ t.mac = s.mac ∧
        (getFn t f.val).out = (getFn s f.val).out ++ [(returnRing r.val, ⟨x.tag, stRejected, x.op, false,
          BitVec.ofNat 32 (groupMembers s (x.num 20 2)), noNode, nowNs s, 0⟩)]) ∧
    (∀ (id m : Nat) (j : MplJob), s.svc.mpls = [j] → j.id = id → j.fireMono = some m → j.actAt = none →
      fget s 0 Fl.SVC_MPL_CFG_K ≠ 0 → fget s 0 Fl.SVC_MPL_CFG_K ≤ j.heard → j.stopped = false →
        ∃ t, exec (.mplTrickleFire id) s = .next t ∧ t.mac = s.mac ∧
          t.svc.mpls.map (fun k => (k.copies, k.fired, k.doublings, k.heard, k.intervalMs, k.endMono)) =
            [(j.copies, j.fired, j.doublings + 1, 0, nextMs j, j.endMono + nextMs j * 1000000)]) ∧
    (∀ (id m : Nat) (j : MplJob), s.svc.mpls = [j] → j.id = id → j.fireMono = some m → j.actAt = none →
      fget s 0 Fl.SVC_MPL_CFG_K = 0 → j.fired + 1 < fget s 0 Fl.SVC_MPL_CFG_EXPIRATIONS →
        ∃ t, exec (.mplTrickleFire id) s = .next t ∧ s.mac.queue.length + (txBerths s).length ≤ t.mac.queue.length ∧
          t.svc.mpls.map (fun k => (k.fired, k.stopped, k.doublings, k.heard, k.intervalMs, k.endMono)) =
            [(j.fired + 1, false, j.doublings + 1, 0, nextMs j, j.endMono + nextMs j * 1000000)]) ∧
    (∀ (id m : Nat) (j : MplJob), s.svc.mpls = [j] → j.id = id → j.fireMono = some m → j.actAt = none →
      fget s 0 Fl.SVC_MPL_CFG_K = 0 → fget s 0 Fl.SVC_MPL_CFG_EXPIRATIONS ≤ j.fired + 1 → txBerths s ≠ [] →
        ∃ t, exec (.mplTrickleFire id) s = .next t ∧ s.mac.queue.length + (txBerths s).length ≤ t.mac.queue.length ∧
          t.svc.mpls.map (fun k => (k.fired, k.stopped, k.parts.length)) = [(j.fired + 1, true, j.parts.length + 1)]) ∧
    (∀ (id m : Nat) (j : MplJob), s.svc.mpls = [j] → j.id = id → j.fireMono = some m → j.actAt = none →
      fget s 0 Fl.SVC_MPL_CFG_K = 0 → fget s 0 Fl.SVC_MPL_CFG_EXPIRATIONS ≤ j.fired + 1 → txBerths s = [] → j.parts = [] →
        ∃ t, exec (.mplTrickleFire id) s = .next t ∧ t.svc.mpls = [] ∧ Raised t 124) ∧
    (∀ (f : Fn) (r : Fin 2) (m : HoldRead), ∃ t, exec (.msgGroup f r m) s = .next t ∧
      (readyDesc s f.val r.val (fun x => x.op = opMsgGroup) = none → t.svc = s.svc ∧ t.mac = s.mac)) ∧
    (∀ id : Nat, ∃ t, exec (.mplTrickleFire id) s = .next t ∧ (getMpl s id = none → t.svc = s.svc ∧ t.mac = s.mac))

/-- R240, R243, R250, R256, R259: COAP_ACK_TIMEOUT, RESP_WAIT_EXPIRY, DEADLINE_REACHED and TIMED_GUARD. -/
def Obligations.MessageTimers : Prop :=
  ∀ s : State, Runs s →
    let only (tok : Word) (x : Txn) : Prop := s.svc.txns = [x] ∧ x.token = tok ∧ x.group = none
    (∀ (tok : Word) (x : Txn) (m : Nat), only tok x → x.phase = .waitAck → x.ackMono = some m → x.actAt = none → x.retxLeft = 0 →
      ∃ t, exec (.coapAckTimeout tok .clean) s = .next t ∧ t.svc.txns = [] ∧ Counted s t 0 Ct.SVC_TXN_TIMEOUT 1) ∧
    (∀ (tok : Word) (x : Txn) (m : Nat), only tok x → x.phase = .waitAck → x.ackMono = some m → x.actAt ≠ none → x.retxLeft = 0 →
      ∃ t, exec (.coapAckTimeout tok .clean) s = .next t ∧ t.svc.txns = [] ∧ Counted s t 0 Ct.SVC_TOO_LATE 1 ∧ Raised t 123) ∧
    (∀ (tok : Word) (x : Txn) (m : Nat) (h : Handle) (d : DirEnt) (n : Nbr), only tok x → x.phase = .waitAck →
      x.ackMono = some m → x.actAt = none → 0 < x.retxLeft →
      x.handle = some h → dirGet s h = some d → nbrGet s d.nbr = some n → d.state = .heard → d.nbrValid = true → d.depth = 1 →
      d.eui = x.target → d.bad = [] → x.sealed = false → fget s 0 Fl.KEY_LINK_CFG_LEVEL = 0 → x.body.length ≤ 1224 →
        ∃ t, exec (.coapAckTimeout tok .clean) s = .next t ∧ Counted s t 0 Ct.SVC_COAP_RETX 1 ∧
          t.svc.txns.map (fun y => (y.token, y.phase, y.retxLeft, y.timeoutMs, y.mid)) =
            [(tok, .sending, x.retxLeft - 1, 2 * x.timeoutMs, x.mid)] ∧ s.mac.queue.length < t.mac.queue.length) ∧
    (∀ (tok : Word) (x : Txn) (m : Nat), only tok x → x.phase = .waitResp → x.respMono = some m →
      ∃ t, exec (.respWaitExpiry tok) s = .next t ∧ t.svc.txns = [] ∧ Counted s t 0 Ct.SVC_TXN_TIMEOUT 1) ∧
    (∀ (tok : Word) (x : Txn) (d : SlotName), only tok x → x.deadline = some d → slotReached s d = true → x.sent = false →
      x.made = 0 → anyTried s (.txn tok.toNat) = false →
      ∃ t, exec (.deadlineReached (.txn tok)) s = .next t ∧ t.svc.txns = [] ∧ Counted s t 0 Ct.SVC_TOO_LATE 1 ∧
        (t.mac.queue.any fun q => q.owner = .txn tok.toNat) = false) ∧
    (∀ (tok : Word) (x : Txn) (d : SlotName), only tok x → x.deadline = some d → slotReached s d = true → x.sent = true →
      ∃ t, exec (.deadlineReached (.txn tok)) s = .next t ∧ t.svc.txns = [] ∧ Counted s t 0 Ct.SVC_TXN_TIMEOUT 1 ∧
        (t.mac.queue.any fun q => q.owner = .txn tok.toNat) = false) ∧
    (∀ (tok : Word) (x : Txn), only tok x → guardReached s x.actAt = true → x.phase = .sending → x.begun = false →
      anyTried s (.txn tok.toNat) = false →
      ∃ t, exec (.timedGuard (.txn tok)) s = .next t ∧ t.svc.txns = [] ∧ Counted s t 0 Ct.SVC_TOO_LATE 1 ∧ Raised t 123) ∧
    (∀ (id : Nat) (j : DgramJob) (d : SlotName), s.svc.dgrams = [j] → j.id = id → j.deadline = some d → slotReached s d = true →
      ∃ t, exec (.deadlineReached (.dgram id)) s = .next t ∧ t.svc.dgrams = [] ∧
        (t.mac.queue.any fun q => q.owner = .datagram id) = false) ∧
    (∀ (id : Nat) (j : MplJob) (d : SlotName), s.svc.mpls = [j] → j.id = id → j.deadline = some d → slotReached s d = true →
      ∃ t, exec (.deadlineReached (.mpl id)) s = .next t ∧ t.svc.mpls = [] ∧ Raised t 124) ∧
    (∀ (id : Nat) (j : MplJob), s.svc.mpls = [j] → j.id = id → guardReached s j.actAt = true →
      ∃ t, exec (.timedGuard (.mpl id)) s = .next t ∧ t.svc.mpls = [] ∧ Raised t 124)

/-- R227, R235, R236, R251 to R256, R287: FRAGMENT_RECEIVED, REASM_TIMEOUT, UPWARD_COAP, UPWARD_DATAGRAM, UP_NOT_ACKED and
RECEIVE_DELIVERY. -/
def Obligations.UpwardItems : Prop :=
  ∀ s : State, Runs s →
    let whole (p : Packet) : Prop := isMpl p = false ∧ p.accepted = true ∧ p.rplOpt = none
    let knows (p : Packet) (h : Handle) (d : DirEnt) : Prop := lookup s p.src.node = some h ∧ dirGet s h = some d ∧ d.bad = []
    (∀ (u : UpPkt) (tag size off len digest : Nat) (p : Packet), s.svc.upq = [u] → u.upper = .fragment tag size off len digest p →
      s.svc.reasm = [] → size ≤ 1280 → off + len ≤ size → len < size →
        ∃ t, exec .fragmentReceived s = .next t ∧ t.svc.upq = [] ∧
          t.svc.reasm = [⟨u.link, tag, size, [⟨off, len, digest⟩], monoNs s, u.linkUnsec, u.poisoned⟩]) ∧
    (∀ (u : UpPkt) (tag size off len digest : Nat) (p : Packet) (r : Reasm) (g : Frag), s.svc.upq = [u] →
      u.upper = .fragment tag size off len digest p → s.svc.reasm = [r] → r.src = u.link → r.tag = tag → r.size = size →
      r.frags = [g] → g.offset = 0 → g.len = off → off + len = size → size ≤ 1280 → 0 < len → 0 < off →
        ∃ t, exec .fragmentReceived s = .next t ∧ t.svc.reasm = [] ∧ t.svc.upq = [{ u with
          upper := .packet p, linkUnsec := r.linkUnsec || u.linkUnsec, poisoned := r.poisoned || u.poisoned }]) ∧
    (∀ (u : UpPkt) (tag size off len digest : Nat) (p : Packet) (r : Reasm) (g : Frag), s.svc.upq = [u] →
      u.upper = .fragment tag size off len digest p → s.svc.reasm = [r] → r.src = u.link → r.tag = tag → r.size = size →
      r.frags = [g] → g ≠ ⟨off, len, digest⟩ → off < g.offset + g.len → g.offset < off + len →
        ∃ t, exec .fragmentReceived s = .next t ∧ t.svc.reasm = [] ∧ t.svc.upq = [] ∧ Raised t 121 ∧
          Counted s t 0 Ct.SVC_REASM_ERR 1) ∧
    (∀ (i : Nat) (r : Reasm), s.svc.reasm[i]? = some r →
      ∃ t, exec (.reasmTimeout i) s = .next t ∧ t.svc.reasm = s.svc.reasm.eraseIdx i ∧ Raised t 119 ∧
        Counted s t 0 Ct.SVC_REASM_TIMEOUT 1) ∧
    (∀ (u : UpPkt) (p : Packet) (m : Coap) (h : Handle) (d : DirEnt), s.svc.upq = [u] → u.upper = .packet p → whole p →
      coapOf s p.body = some m → u.poisoned = false → svcOn s = true → m.typ = .non →
      m.wellFormed = true → m.code = 2 → m.envelope = none → m.report = none → fbit s 0 Fl.SVC_CTRL_UP_REQUIRE_SEAL = false →
      knows p h d → d.state ≠ .suspect → d.mid0 ≠ m.mid → d.mid1 ≠ m.mid → d.tenant < s.fns.length → hasPlace s d.tenant = true →
        ∃ t, exec (.upwardCoap .clean) s = .next t ∧ t.svc.upq = [] ∧ Counted s t 0 Ct.SVC_UP_RX 1 ∧
          (dirGet t h).map (fun e => (e.mid0, e.mid1, e.rxCnt)) = some (m.mid, d.mid0, min 65535 (d.rxCnt + 1)) ∧
          ((getFn t d.tenant).ups.drop (getFn s d.tenant).ups.length).map (fun i => (i.node, i.kind, i.code, i.content)) =
            [(h, 1, 2, m.body)]) ∧
    (∀ (u : UpPkt) (p : Packet) (m : Coap) (h : Handle) (d : DirEnt), s.svc.upq = [u] → u.upper = .packet p → whole p →
      coapOf s p.body = some m → knows p h d → d.state = .suspect →
        ∃ t, exec (.upwardCoap .clean) s = .next t ∧ t.svc.upq = [] ∧ Raised t 101 ∧ t.mac = s.mac ∧
          ∀ f, (getFn t f).ups = (getFn s f).ups) ∧
    (∀ (u : UpPkt) (p : Packet) (m : Coap), s.svc.upq = [u] → u.upper = .packet p → whole p → coapOf s p.body = some m →
      (sourceRead p.src.node .clean s).1 = true → svcOn s = false →
        ∃ t, exec (.upwardCoap .clean) s = .next t ∧ t.svc.upq = [] ∧ Counted s t 0 Ct.SVC_UP_NOACK 1 ∧ Raised t 127) ∧
    (∀ (u : UpPkt) (p : Packet) (sp dp : Nat) (bs : List Byte) (h : Handle) (d : DirEnt), s.svc.upq = [u] → u.upper = .packet p →
      p.body = .udp sp dp bs → dp ≠ portLocal s → whole p → u.poisoned = false →
      svcOn s = true → knows p h d → d.state ≠ .suspect → d.tenant < s.fns.length → hasPlace s d.tenant = true →
        ∃ t, exec (.upwardDatagram .clean) s = .next t ∧ t.svc.upq = [] ∧ Counted s t 0 Ct.SVC_DGRAM_RX 1 ∧
          ((getFn t d.tenant).ups.drop (getFn s d.tenant).ups.length).map (fun i => (i.node, i.kind, i.midOrSport, i.dport, i.content)) =
            [(h, 3, sp, dp, bs)]) ∧
    (∀ (u : UpPkt) (bs : List Byte), s.svc.upq = [u] → u.upper = .octets bs →
      ∃ t, exec (.upwardDatagram .clean) s = .next t ∧ t.svc.upq = [] ∧ Counted s t 0 Ct.SVC_RX_DROP 1 ∧ Raised t 122) ∧
    (∀ w : UpWait, s.svc.waits = [w] → hasPlace s w.fn = false →
      ∃ t, exec .upNotAcked s = .next t ∧ t.svc.waits = [] ∧ Counted s t 0 Ct.SVC_UP_NOACK 1 ∧ Raised t 127) ∧
    (∀ (f : Fn) (i : UpItem) (p : RxPost) (k : Nat), (getFn s f.val).ups = [i] → (getFn s f.val).posts = [p] → dmaOn s f.val = true →
      i.abandoned = false → writer s f.val JobWhat.delivers = some k →
      (s.stevs.getD k none).all (fun j => j = writeJob f.val (.deliver none) p.addr i.octets.length) = true → s.svc.waits = [] →
        ∃ t, exec (.receiveDelivery f) s = .next t ∧ (getFn t f.val).ups = [] ∧ (getFn t f.val).posts = [] ∧
          Counted s t (fb f.val) Ct.RING_DESC 1 ∧
          (getFn t f.val).out = (getFn s f.val).out ++ (if p.quietOk = true ∧ i.status = stOk then [] else
            [(5, ⟨p.tag, i.status, deliverDone.kindOpcode i.kind, false, BitVec.ofNat 32 (i.octets.length + i.kind * 65536), i.node,
              i.ts, BitVec.ofNat 64 i.aux⟩)]) ∧
          ((getFn s f.val).ats = false → (getFn s f.val).maxPayload = 128 → p.addr % 128 + i.octets.length ≤ 128 →
            PutOut s t (.hostWrite f.val p.addr i.octets (i.status = stPoisoned)))) ∧
    (∀ f : Fn, writer s f.val JobWhat.delivers = none →
      ∃ t, exec (.receiveDelivery f) s = .next t ∧ (getFn t f.val).ups = (getFn s f.val).ups ∧
        (getFn t f.val).posts = (getFn s f.val).posts ∧ (getFn t f.val).out = (getFn s f.val).out)

/-- R267, R270, R275, R287: RING_NUDGE, DOORBELL_POLL, DOORBELL_COPY, NOP and RX_BUFFER_POST. -/
def Obligations.DoorbellsAndNops : Prop :=
  ∀ (s : State) (f : Fn), Works s →
    let mayRead : Prop := serving s = true ∧ (getFn s f.val).quiesced = false ∧ bitAt 0 (rd s (fb f.val + Reg.RING_DB_LO)) = true ∧
      ((faultAt s f.val fun w => w = .doorbell).any fun i => (getFault s f.val i).any FaultRec.auto) = false
    let asked (t : State) : Prop := Waits t fun j => j.fn = f.val && j.what = .doorbell
    (Accepts s f.val Reg.RING_NUDGE 0 = true → mayRead →
      ∃ t, exec (.ringNudge f) s = .next t ∧ asked t ∧ t.tables = s.tables ∧ t.svc = s.svc) ∧
    (bitsOf 9 0 (rd s (fb f.val + Reg.RING_POLL)) ≠ 0 → mayRead →
      ∃ t, exec (.doorbellPoll f) s = .next t ∧ asked t ∧ t.tables = s.tables ∧ t.svc = s.svc) ∧
    (∀ (bs : List Byte) (r : Fin 8), s.start.phase ≠ .halted → (getFn s f.val).doorbell = some bs →
      r.val < (getFn s f.val).rings.length →
        ∃ t, exec (.doorbellCopy f) s = .next t ∧ (getFn t f.val).doorbell = none ∧
          (getFn t f.val).seqSeen = BitVec.ofNat 16 (ofLeBytes ((bs.drop 32).take 2)) ∧
          (if r.val < 4 then (getRing t f.val r.val).tail else (getRing t f.val r.val).head) = dbWord bs r.val) ∧
    (∀ (r : Fin 3) (x : DescS), s.start.phase ≠ .halted → s.claim.st ≠ .diag → (getRing s f.val r.val).descs = [x] →
      x.phase = .ready → x.op = opNop →
        ∃ t, exec (.nop f r) s = .next t ∧ (getRing t f.val r.val).descs = [] ∧ Counted s t (fb f.val) Ct.RING_DESC 1 ∧
          (x.ring = r.val → (getFn t f.val).out = (getFn s f.val).out ++ (if x.quietOk = true then [] else
            [(returnRing r.val, ⟨x.tag, stOk, opNop, false, 0, noNode, nowNs s, 0⟩)]))) ∧
    (∀ x : DescS, s.start.phase ≠ .halted → (getRing s f.val 3).descs = [x] → x.phase = .ready → x.op = opNop →
      ∃ t, exec (.rxBufferPost f) s = .next t ∧ (getRing t f.val 3).descs = [] ∧ (getFn t f.val).out = (getFn s f.val).out ∧
        (getFn t f.val).posts = (getFn s f.val).posts ++ [⟨x.tag, x.bufAddr, x.index, x.quietOk⟩])

/-- R46 to R49, R268, R272, R274, R276, R288: RETURN_ENTRY_WRITE, RING_MOD_TIMER, C3_EVENT_ENTRY_WRITE, EVT_HOLDOFF_END and
MSIX_VECTOR_UNMASK. -/
def Obligations.EntriesAndMessages : Prop :=
  ∀ (s : State) (f : Fn), Works s →
    let fresh : Prop := s.start.phase ≠ .halted ∧ (getFn s f.val).held = [] ∧
      (List.range 8).findSome? (fun k => (s.stevs.getD k none).bind fun j => doReturnEntryWrite.retried f.val k j) = none
    let seq := fget s (fb f.val) Fl.EVT_STATUS_SEQ
    let c3 := getRing s f.val 7
    let writes (k : Nat) : Prop := c3On s f.val = true ∧ (c3.tail - c3.head).toNat < ringSize s f.val 7 ∧ eventWriter s f.val = some k
    let phase (c : Nat) : Bool := phaseAt s f.val c (getRing s f.val c).tail
    let put (c : Nat) (e : Entry) : Out :=
      .entry f.val c (getRing s f.val c).tail (phase c) e (entryAddr s f.val c) (e.octetsAt (phase c))
    let shows (t : State) : Prop := ∃ heads tails q st n i bs, Out.statusBlock f.val heads tails q st n i (sbAddr s f.val) bs ∈ t.outs ∧
      tails = ((getFn t f.val).rings.drop 4).map RingS.tail
    (∀ (c k : Nat) (e : Entry) (rest : List (Nat × Entry)), fresh → (getFn s f.val).out = (c, e) :: rest →
      (getFn s f.val).loss = none → c ≠ 7 → c < (getFn s f.val).rings.length → canTake s f.val c = true →
      writer s f.val doReturnEntryWrite.isReturn = some k →
        ∃ t, exec (.returnEntryWrite f) s = .next t ∧ rest <+: (getFn t f.val).out ∧ (getFn t f.val).held = [] ∧
          (getRing t f.val c).tail = (getRing s f.val c).tail + 1 ∧ Counted s t (fb f.val) Ct.RING_ENTRY 1 ∧ put c e ∈ t.outs ∧
          ((getFn s f.val).backPaused = false → faultAt s f.val (fun w => w = .status) = none →
            (getFn t f.val).out = rest ∧ (bitAt 0 (rd s (fb f.val + Reg.RING_SB_LO)) = true → shows t))) ∧
    (∀ (c : Nat) (e : Entry) (rest : List (Nat × Entry)), fresh → (getFn s f.val).out = (c, e) :: rest →
      (getFn s f.val).loss = none → ringOpen s f.val c = false →
        ∃ t, exec (.returnEntryWrite f) s = .next t ∧ (getFn t f.val).out = rest ∧ (getFn t f.val).held = [(c, e)] ∧
          Raised t (218 + 4 * f.val)) ∧
    (∀ (c : Nat) (e : Entry) (rest : List (Nat × Entry)), fresh → (getFn s f.val).out = (c, e) :: rest →
      (getFn s f.val).loss = none → ringOpen s f.val c = true →
      (dmaOn s f.val = false ∨ writer s f.val doReturnEntryWrite.isReturn = none) →
        ∃ t, exec (.returnEntryWrite f) s = .next t ∧ (getFn t f.val).out = (c, e) :: rest ∧ (getFn t f.val).held = [] ∧
          (getRing t f.val c).tail = (getRing s f.val c).tail) ∧
    (∀ n k : Nat, fresh → (getFn s f.val).loss = some n → f.val < s.fns.length → 6 < (getFn s f.val).rings.length →
      canTake s f.val 6 = true → writer s f.val doReturnEntryWrite.isReturn = some k →
        ∃ t, exec (.returnEntryWrite f) s = .next t ∧ (getFn t f.val).loss = none ∧
          (getRing t f.val 6).tail = (getRing s f.val 6).tail + 1 ∧ put 6 (lossEntry s n) ∈ t.outs) ∧
    (∀ (c : Fin 8) (m : Nat), s.start.phase ≠ .halted → (getRing s f.val c.val).oldest = some m → 4 ≤ c.val → c.val ≠ 7 →
      bitAt 4 (rd s (ringKey f.val c.val Reg.RING_MOD)) = true → (getRing s f.val c.val).unsignalled ≠ 0 →
      (getFn s f.val).quiesced = false → (getFn s f.val).statusDue = false →
      (getFn s f.val).masked (bitsOf 3 0 (rd s (ringKey f.val c.val Reg.RING_MOD))) = false →
        ∃ t, exec (.ringModTimer f c) s = .next t ∧ (getRing t f.val c.val).unsignalled = 0 ∧ (getRing t f.val c.val).oldest = none ∧
          Out.msix f.val (bitsOf 3 0 (rd s (ringKey f.val c.val Reg.RING_MOD))) ∈ t.outs) ∧
    (∀ (c : Fin 8) (m : Nat), s.start.phase ≠ .halted → (getRing s f.val c.val).oldest = some m → 4 ≤ c.val → c.val ≠ 7 →
      bitAt 4 (rd s (ringKey f.val c.val Reg.RING_MOD)) = true → (getRing s f.val c.val).unsignalled ≠ 0 → statusReady s f.val = true →
        ∃ t, exec (.ringModTimer f c) s = .next t ∧ (getFn t f.val).statusDue = false ∧ shows t) ∧
    (∀ (o : EvOcc) (rest : List EvOcc) (k : Nat), s.start.phase ≠ .halted → (getFn s f.val).evq = o :: rest → writes k →
      (getFn s f.val).holdoffs.find o.code = none → 7 < (getFn s f.val).rings.length →
        ∃ t, exec (.c3EventEntryWrite f) s = .next t ∧ (getRing t f.val 7).tail = c3.tail + 1 ∧
          fget t (fb f.val) Fl.EVT_STATUS_SEQ = (seq + 1) % 65536 ∧ put 7 (eventEntry o 1 seq) ∈ t.outs ∧
          (holdoffNs s f.val ≠ 0 → (getFn t f.val).holdoffs.find o.code = some ⟨monoNs s + holdoffNs s f.val, 0, none⟩)) ∧
    (∀ (o : EvOcc) (rest : List EvOcc), s.start.phase ≠ .halted → (getFn s f.val).evq = o :: rest → c3On s f.val = true →
      (getFn s f.val).holdoffs.find o.code = none → eventWriter s f.val = none →
        ∃ t, exec (.c3EventEntryWrite f) s = .next t ∧ getRing t f.val 7 = c3 ∧ (getFn t f.val).evq = o :: rest) ∧
    (∀ (o : EvOcc) (rest : List EvOcc) (h : Holdoff), s.start.phase ≠ .halted → (getFn s f.val).evq = o :: rest →
      c3On s f.val = true → (getFn s f.val).holdoffs.find o.code = some h →
        ∃ t, exec (.c3EventEntryWrite f) s = .next t ∧ getRing t f.val 7 = c3 ∧
          ((getFn t f.val).holdoffs.find o.code).map (fun x => (x.untilMono, x.merged)) = some (h.untilMono, h.merged + 1)) ∧
    (∀ (o : EvOcc) (rest : List EvOcc), s.start.phase ≠ .halted → (getFn s f.val).evq = o :: rest → c3On s f.val = true →
      ringSize s f.val 7 ≤ (c3.tail - c3.head).toNat → (getFn s f.val).holdoffs.find o.code = none →
        ∃ t, exec (.c3EventEntryWrite f) s = .next t ∧ getRing t f.val 7 = c3 ∧ Counted s t (fb f.val) Ct.EVT_LOST 1 ∧
          fbit t (fb f.val) Fl.EVT_STATUS_C3_OVF = true ∧ fget t (fb f.val) Fl.EVT_STATUS_SEQ = (seq + 1) % 65536) ∧
    (∀ (o : EvOcc) (rest : List EvOcc), s.start.phase ≠ .halted → (getFn s f.val).evq = o :: rest → c3On s f.val = false →
      (getFn s f.val).quiesced = false → o.newly = true → (getFn s f.val).masked (evtVector s f.val o.code) = false →
        ∃ t, exec (.c3EventEntryWrite f) s = .next t ∧ getRing t f.val 7 = c3 ∧
          Out.msix f.val (evtVector s f.val o.code) ∈ t.outs) ∧
    (∀ (code : Byte) (h : Holdoff), s.start.phase ≠ .halted → (getFn s f.val).holdoffs.find code.toNat = some h → h.latest = none →
      ∃ t, exec (.evtHoldoffEnd f code) s = .next t ∧ (getFn t f.val).holdoffs.find code.toNat = none ∧ getRing t f.val 7 = c3) ∧
    (∀ (code : Byte) (h : Holdoff) (o : EvOcc) (k : Nat), s.start.phase ≠ .halted →
      (getFn s f.val).holdoffs.find code.toNat = some h → h.latest = some o → writes k → 7 < (getFn s f.val).rings.length →
        ∃ t, exec (.evtHoldoffEnd f code) s = .next t ∧ (getRing t f.val 7).tail = c3.tail + 1 ∧
          put 7 (eventEntry o h.merged seq) ∈ t.outs) ∧
    (∀ (vec : Fin 16) (m : Bool), hostReady s f.val = true → vec.val < (getFn s f.val).msixMask.length → f.val < s.fns.length →
      ∃ t, exec (.msixVectorUnmask f (.vector vec m)) s = .next t ∧ (getFn t f.val).msixMask[vec.val]? = some m ∧
        (m = false → (getFn s f.val).msixEn = true → (getFn s f.val).msixFnMask = false → (getFn s f.val).quiesced = false →
          (getFn s f.val).msixPend.getD vec.val false = true →
            Out.msix f.val vec.val ∈ t.outs ∧ (getFn t f.val).msixPend[vec.val]? = some false)) ∧
    (∀ e m : Bool, hostReady s f.val = true → f.val < s.fns.length →
      ∃ t, exec (.msixVectorUnmask f (.control e m)) s = .next t ∧ (getFn t f.val).msixEn = e ∧ (getFn t f.val).msixFnMask = m ∧
        ∀ vec : Fin 16, e = true → m = false → (getFn s f.val).msixMask.getD vec.val false = false →
          (getFn s f.val).msixPend.getD vec.val false = true → (getFn s f.val).quiesced = false → Out.msix f.val vec.val ∈ t.outs)

/-- R268, R277, R278, R280 to R284: SLING_DONE, TRANSLATION_FAULT, PAGE_RESPONSE, PRI_TIMEOUT, DMA_FAULT, XLATE_FAULT_RETRY,
XLATE_FAULT_ABORT, XLATE_INV and ATS_INVALIDATE. -/
def Obligations.JobsAndFaults : Prop :=
  ∀ s : State, Works s →
    let moves (k : Fin 8) (j : Job) : Prop := s.start.phase ≠ .halted ∧ s.stevs.getD k.val none = some j ∧ j.abort = false ∧
      j.what.site < 4
    let parks (j : Job) (i : Nat) : Prop := j.fn < 8 ∧ j.fn < s.fns.length ∧ i < (getFn s j.fn).faults.length ∧
      recordFor s j.fn j = some i ∧ flushesFetch s j = false
    let after (j : Job) : Job := { j with moved := j.moved + slingLen j, paged := false }
    let paging (f : Fn) (i : Fin 16) (r : FaultRec) : Prop := s.start.phase ≠ .halted ∧ getFault s f.val i.val = some r ∧
      r.auto = true ∧ r.pageUntil.isSome = true
    let uncached (t : State) (f : Fn) (hit : AtcEnt → Bool) : Prop :=
      ((getPort t (portOf f.val)).atc.any fun e => e.fn = f.val && hit e) = false
    (∀ (k : Fin 8) (octets : List Byte) (j : Job) (x : DescS) (r : Nat) (e : Entry) (timed : Bool), moves k j → s.claim.st ≠ .diag →
      j.what = .respond r x.index e timed → j.write = true → j.total ≤ j.moved + slingLen j → (getRing s j.fn r).descs = [x] →
        ∃ t, exec (.slingDone k octets false) s = .next t ∧ (getRing t j.fn r).descs = [] ∧
          (∀ p ∈ tlpsOf s j.fn (j.addr + j.moved) ((j.octets.drop j.moved).take (slingLen j)),
            Out.hostWrite j.fn p.1 p.2 j.poisoned ∈ t.outs) ∧
          (getFn t j.fn).out = (getFn s j.fn).out ++ (if x.quietOk = true ∧ e.status = stOk then [] else
            [(returnRing r, if timed then e else { e with ts := nowNs s })])) ∧
    (∀ (k : Fin 8) (octets : List Byte) (j : Job) (x : DescS) (r : Nat), moves k j → s.hold.flushing = none →
      cellFree s = true → j.what = .gather r x.index → j.write = false → j.poisoned = false → j.total ≤ j.moved + slingLen j →
      (getRing s j.fn r).descs = [x] →
        ∃ t, exec (.slingDone k octets false) s = .next t ∧ (getRing t j.fn r).descs =
          [{ x with phase := .ready, payload := j.octets ++ fitOctets (slingLen j) octets, poisoned := false }]) ∧
    (∀ (k : Fin 8) (octets : List Byte) (j : Job), moves k j → j.write = true → j.moved + slingLen j < j.total →
      gatherStall s j = none → dmaOn s j.fn = true → isVictim s k.val = false →
        ∃ t, exec (.slingDone k octets false) s = .next t ∧ t.stevs.getD k.val none = some (after j)) ∧
    (∀ (k : Fin 8) (octets : List Byte) (j : Job), moves k j → j.write = true → j.moved + slingLen j < j.total →
      gatherStall s j = none → dmaOn s j.fn = true → isVictim s k.val = true →
        ∃ t, exec (.slingDone k octets false) s = .next t ∧ Counted s t (fb j.fn) Ct.RING_PREEMPT 1 ∧ Waits t fun q => q = after j) ∧
    (∀ (k : Fin 8) (octets : List Byte) (j : Job) (r i : Nat), s.start.phase ≠ .halted → s.stevs.getD k.val none = some j →
      j.what = .gather r i → j.abort = false → cellFree s = false → s.hold.stalled.contains (33 + 4 * j.fn) = false →
        ∃ t, exec (.slingDone k octets false) s = .next t ∧ t.stevs = s.stevs ∧ t.fns.map FnS.rings = s.fns.map FnS.rings ∧
          Counted s t 0 Ct.HOLD_POOL_STALL 1 ∧ Raised t 167) ∧
    (∀ (k : Fin 8) (octets : List Byte) (j : Job), s.start.phase ≠ .halted → s.stevs.getD k.val none = some j → j.what = .status →
      ∃ t, exec (.slingDone k octets false) s = .next t ∧ (getFn t j.fn).statusDue = false ∧
        ∃ heads tails q st n i bs, Out.statusBlock j.fn heads tails q st n i (sbAddr s j.fn) bs ∈ t.outs) ∧
    (∀ (k : Fin 8) (j : Job) (i : Nat), moves k j → parks j i → (getFn s j.fn).ats = true → (priAuto s j.fn && !j.paged) = false →
      ∃ t, exec (.translationFault k) s = .next t ∧ getFault t j.fn i = some ⟨{ j with slot := some i }, false, 0, none⟩ ∧
        Counted s t (fb j.fn) Ct.XLATE_FAULT 1 ∧ Raised t (217 + 4 * j.fn)) ∧
    (∀ (k : Fin 8) (j : Job) (i : Nat), moves k j → parks j i → (getFn s j.fn).ats = true → (priAuto s j.fn && !j.paged) = true →
      pagesOut s j.fn < 64 →
        ∃ t, exec (.translationFault k) s = .next t ∧ Counted s t (fb j.fn) Ct.XLATE_PRI 1 ∧
          Out.pageRequest j.fn (jobAt s j / 4096) ∈ t.outs ∧ getFault t j.fn i =
            some ⟨{ j with slot := some i }, true, 0, some (monoNs s + 1000000 * fget s (fb j.fn) Fl.XLATE_CTRL_PRI_TIMEOUT_MS)⟩) ∧
    (∀ (k : Fin 8) (timeout : Bool) (j : Job) (i : Nat), moves k j → parks j i → j.write = false →
      ∃ t, exec (.dmaFault k timeout) s = .next t ∧
        getFault t j.fn i = some ⟨{ j with slot := some i }, false, if timeout then 4 else 3, none⟩ ∧
        Counted s t (fb j.fn) Ct.XLATE_FAULT 1 ∧ Raised t (217 + 4 * j.fn)) ∧
    (∀ (f : Fn) (i : Fin 16) (r : FaultRec), paging f i r → r.job.open = false →
      ∃ t, exec (.pageResponse f i true) s = .next t ∧ getFault t f.val i.val = none ∧
        Waits t fun q => q = { r.job with paged := true, slot := some i.val }) ∧
    (∀ (f : Fn) (i : Fin 16) (r : FaultRec), paging f i r → flushesFetch s r.job = false →
      ∃ t, exec (.pageResponse f i false) s = .next t ∧
        getFault t f.val i.val = some { r with auto := false, kind := 1, pageUntil := none } ∧ Raised t (217 + 4 * f.val)) ∧
    (∀ (f : Fn) (i : Fin 16) (r : FaultRec), paging f i r → flushesFetch s r.job = false →
      ∃ t, exec (.priTimeout f i) s = .next t ∧
        getFault t f.val i.val = some { r with auto := false, kind := 2, pageUntil := none } ∧ Raised t (217 + 4 * f.val)) ∧
    (∀ (f : Fn) (i : Fin 16) (r : FaultRec), Accepts s f.val (actionOff i.val) 1 = true →
      getFault s f.val i.val = some r → r.auto = false → r.job.open = false →
        ∃ t, exec (.xlateFaultRetry f i) s = .next t ∧ getFault t f.val i.val = none ∧
          Waits t fun q => q = { r.job with paged := false, slot := some i.val }) ∧
    (∀ (f : Fn) (i : Fin 16), Accepts s f.val (actionOff i.val) 1 = true → getFault s f.val i.val = none →
      ∃ t, exec (.xlateFaultRetry f i) s = .next t ∧ Rejected t (fb f.val + Reg.XLATE_STATUS) ∧
        (getFn t f.val).faults = (getFn s f.val).faults ∧ t.landed = s.landed) ∧
    (∀ (f : Fn) (i : Fin 16) (r : FaultRec) (x : DescS) (q : Nat), Accepts s f.val (actionOff i.val) 2 = true →
      getFault s f.val i.val = some r → r.auto = false → r.job.fn = f.val → r.job.what = .gather q x.index →
      (getRing s f.val q).descs = [x] → x.ring = q → s.claim.st ≠ .diag → s.landed = [] →
        ∃ t, exec (.xlateFaultAbort f i) s = .next t ∧ getFault t f.val i.val = none ∧ (getRing t f.val q).descs = [] ∧
          ((getFn s f.val).out ++ [(returnRing q, ⟨x.tag, stFault, x.op, false, 0, noNode, nowNs s,
            BitVec.ofNat 64 (faultAux r.job.moved 2 r.kind)⟩)]) <+: (getFn t f.val).out) ∧
    (∀ (f : Fn) (i : Fin 16), Accepts s f.val (actionOff i.val) 2 = true → getFault s f.val i.val = none → s.landed = [] →
      ∃ t, exec (.xlateFaultAbort f i) s = .next t ∧ Rejected t (fb f.val + Reg.XLATE_STATUS) ∧
        (getFn t f.val).out = (getFn s f.val).out) ∧
    (∀ f : Fn, Accepts s f.val Reg.XLATE_INV 1 = true → ∃ t, exec (.xlateInv f) s = .next t ∧ uncached t f fun _ => true) ∧
    (∀ (f : Fn) (page count : Nat), (getFn s f.val).ats = true → (getPort s (portOf f.val)).invals.length < 32 →
      portOf f.val < s.ports.length →
        ∃ t, exec (.atsInvalidate f page count) s = .next t ∧ (uncached t f fun e => e.meets page count) ∧
          (slingsIn s f.val page count = [] → Counted s t (fb f.val) Ct.XLATE_INV 1 ∧ PutOut s t (.invalidated f.val page count)) ∧
          (slingsIn s f.val page count ≠ [] → rd t (fb f.val + Ct.XLATE_INV.off) = rd s (fb f.val + Ct.XLATE_INV.off) ∧
            (getPort t (portOf f.val)).invals =
              (getPort s (portOf f.val)).invals ++ [⟨f.val, page, count, slingsIn s f.val page count⟩]))

/-- R263, R265, R266, R289 to R291: RING_ENABLE, RING_DISABLE, RING_FLUSH, RING_DROP, FLUSH_TIMEOUT, RING_QUIESCED and
RING_GRANT_WRITE. -/
def Obligations.RingControl : Prop :=
  ∀ (s : State) (f : Fn), Works s →
    let ctrl (r : Nat) (bit : Nat) : Word := setBitAt bit (rd s (fb f.val + ctrlOff r)) true
    (∀ r : Fin 8, Accepts s f.val (ctrlOff r.val) 1 = true → ringEn s f.val r.val = false → blocksValid s f.val = true →
      indexError s f.val r.val = none → f.val < s.fns.length →
        ∃ t, exec (.ringEnable f r) s = .next t ∧ ringEn t f.val r.val = true ∧ (getFn t f.val).quiesced = false) ∧
    (∀ r : Fin 8, Accepts s f.val (ctrlOff r.val) 1 = true → ringEn s f.val r.val = false → blocksValid s f.val = false →
      ∃ t, exec (.ringEnable f r) s = .next t ∧ ringEn t f.val r.val = false ∧ Raised t (216 + 4 * f.val) ∧
        bitsOf 11 8 (rd t (fb f.val + Reg.RING_ERR)) = 3 ∧ bitAt r.val (rd t (fb f.val + Reg.RING_ERR)) = true) ∧
    (∀ r : Fin 8, Accepts s f.val (ctrlOff r.val) 0 = true →
      ∃ t, exec (.ringDisable f r) s = .next t ∧ ringEn t f.val r.val = false) ∧
    (∀ (r : Fin 3) (x : DescS), Accepts s f.val (ctrlOff r.val) (ctrl r.val 1) = true → (getRing s f.val r.val).descs = [x] →
      x.phase = .waiting → x.ring = r.val →
        ∃ t, exec (.ringFlush f ⟨r.val, by omega⟩) s = .next t ∧ (getRing t f.val r.val).descs = [] ∧
          (getRing t f.val r.val).flushTo = some (getRing s f.val r.val).tail ∧
          ((getFn s f.val).out ++ [(returnRing r.val, ⟨x.tag, stFlushed, x.op, false, 0, noNode, nowNs s, 0⟩)]) <+:
            (getFn t f.val).out) ∧
    (∀ p : RxPost, Accepts s f.val (ctrlOff 3) (ctrl 3 1) = true → (getFn s f.val).posts = [p] →
      ∃ t, exec (.ringFlush f 3) s = .next t ∧ (getFn t f.val).posts = [] ∧
        ((getFn s f.val).out ++ [(5, ⟨p.tag, stFlushed, opNop, false, 0, noNode, nowNs s, 0⟩)]) <+: (getFn t f.val).out) ∧
    (∀ (r : Fin 4) (x : DescS) (j : Job), Accepts s f.val (ctrlOff r.val) (ctrl r.val 2) = true → s.claim.st ≠ .diag →
      (getRing s f.val r.val).descs = [x] → x.phase = .gather → x.ring = r.val → s.jobs = [j] → j.fn = f.val →
      j.what = .gather r.val x.index →
        ∃ t, exec (.ringDrop f r) s = .next t ∧ (getRing t f.val r.val).descs = [] ∧ t.jobs.contains j = false ∧
          (getFn t f.val).out = (getFn s f.val).out ++ [(returnRing r.val, ⟨x.tag, stAborted, x.op, false, 0, noNode, nowNs s,
            BitVec.ofNat 64 j.moved⟩)]) ∧
    (∀ (r : Fin 4) (m : Nat), s.start.phase ≠ .halted → (getRing s f.val r.val).flushUntil = some m →
      ∃ t, exec (.flushTimeout f r) s = .next t ∧ (getRing t f.val r.val).flushUntil = none ∧ (getRing t f.val r.val).flushTo = none) ∧
    (∀ (r : Fin 8) (v : Word), ringQuiet s f.val r.val = true → s.pend = [(ringKey f.val r.val Reg.RING_SIZE, v)] → v.toNat < 32 →
      v ≠ rd s (ringKey f.val r.val Reg.RING_SIZE) → rd s (ringKey f.val r.val Reg.RING_SIZE) < 32 → f.val < s.fns.length →
      r.val < (getFn s f.val).rings.length →
        ∃ t, exec (.ringQuiesced f r) s = .next t ∧ rd t (ringKey f.val r.val Reg.RING_SIZE) = v ∧ t.pend = [] ∧
          (getRing t f.val r.val).head = 0 ∧ (getRing t f.val r.val).tail = 0) ∧
    (∀ (g : Fn) (v : Word), Accepts s f.val (Reg.RING_GRANT + 4 * g.val) v = true → g.val ≠ hmFn s → bitAt 19 v = false →
      bitAt 20 v = false →
        ∃ t, exec (.ringGrantWrite f g v) s = .next t ∧
          rd t (fb f.val + Reg.RING_GRANT + 4 * g.val) = v &&& (if s.otp.is2614 then 0x7FF9F else 0x7FFFF)) ∧
    (∀ (g : Fn) (v : Word), Accepts s f.val (Reg.RING_GRANT + 4 * g.val) v = true → (bitAt 19 v = true ∨ bitAt 20 v = true) →
      ∃ t, exec (.ringGrantWrite f g v) s = .next t ∧ Rejected t (fb f.val + Reg.RING_STATUS) ∧
        rd t (fb f.val + Reg.RING_GRANT + 4 * g.val) = rd s (fb f.val + Reg.RING_GRANT + 4 * g.val)) ∧
    (∀ (g : Fn) (v : Word), Accepts s f.val (Reg.RING_GRANT + 4 * g.val) v = true → g.val = hmFn s →
      ∃ t, exec (.ringGrantWrite f g v) s = .next t ∧
        rd t (fb f.val + Reg.RING_GRANT + 4 * g.val) = rd s (fb f.val + Reg.RING_GRANT + 4 * g.val))

/-- R261, R262, R291, R292, R402: LIVENESS_EXPIRY, PORT_LINK_DOWN, PORT_LINK_UP, BUS_MASTER_DISABLE and BUS_MASTER_ENABLE. -/
def Obligations.FunctionsAndPorts : Prop :=
  ∀ s : State, Works s →
    (∀ (f : Fn) (r : Fin 8), fget s (fb f.val) Fl.RING_FN_CTRL_LIVE_MS ≠ 0 → (getFn s f.val).quiesced = false → f.val < s.fns.length →
      ∃ t, exec (.livenessExpiry f) s = .next t ∧ (getFn t f.val).quiesced = true ∧ ringEn t f.val r.val = false ∧
        Raised t (219 + 4 * f.val)) ∧
    (∀ (p : Fin 2) (q : PortS) (i : Fin 4), s.ports[p.val]? = some q → q.linkUp = true → s.fns.length = 8 →
      ∃ t, exec (.portLinkDown p) s = .next t ∧ (t.ports[p.val]?).map (fun x => (x.linkUp, x.invals)) = some (false, []) ∧
        (getFn t (4 * p.val + i.val)).quiesced = true ∧ Raised t (219 + 4 * (4 * p.val + i.val))) ∧
    (∀ (p : Fin 2) (q : PortS), s.ports[p.val]? = some q →
      ∃ t, exec (.portLinkUp p) s = .next t ∧ (t.ports[p.val]?).map (fun x => x.linkUp) = some (q.linkUp || q.perstHigh)) ∧
    (∀ f : Fn, hostReady s f.val = true → f.val < s.fns.length →
      ∃ t, exec (.busMasterDisable f) s = .next t ∧ (getFn t f.val).busMaster = false ∧ (getFn t f.val).ats = (getFn s f.val).ats) ∧
    (∀ (f : Fn) (ats pri payload256 : Bool), hostReady s f.val = true → f.val < s.fns.length →
      ∃ t, exec (.busMasterEnable f ats pri payload256) s = .next t ∧ (getFn t f.val).maxPayload = (if payload256 then 256 else 128) ∧ (getFn t f.val).busMaster = true ∧
        (getFn t f.val).ats = ats ∧ (getFn t f.val).pri = pri)

/-- R300, R308, R310, R313: CAMPAIGN_REPORT, CAMPAIGN_PAUSE, CAMPAIGN_CONTINUE, CAMPAIGN_ABORT, CAMPAIGN_ADD_NODE,
CAMPAIGN_REMOVE_NODE and CAMPAIGN_CHECKPOINT. -/
def Obligations.CampaignControl : Prop :=
  ∀ (s : State) (f : Fn) (x : DescS), Runs s → (getRing s f.val 2).descs = [x] → x.phase = .ready → x.op = opCampCtrl → x.ring = 2 →
    s.claim.st ≠ .diag →
    let owned (c : Camp) (a : Nat) : Prop := x.byte 21 = a ∧ s.camp.camps = [c] ∧ c.id = x.byte 20 ∧ c.phase = .running ∧
      (f.val = c.owner ∨ f.val = hmFn s)
    let node : Nat := x.num 24 4 % 2 ^ 18
    let doneWith (t : State) (st : Nat) : Prop := (getRing t f.val 2).descs = [] ∧
      (getFn t f.val).out = (getFn s f.val).out ++ (if x.quietOk = true ∧ st = stOk then [] else
        [(6, ⟨x.tag, st, opCampCtrl, false, 0, noNode, nowNs s, 0⟩)])
    (∀ c : Camp, owned c 0 → x.bufLen = 0 → ∃ t, exec (.campaignReport f) s = .next t ∧ doneWith t stOk ∧ t.camp = s.camp) ∧
    (∀ c : Camp, owned c 0 → x.bufLen ≠ 0 →
      ∃ t, exec (.campaignReport f) s = .next t ∧ t.camp = s.camp ∧ Waits t fun j => j.fn = f.val && j.write &&
        j.addr = x.bufAddr && j.total = 32 && j.octets = campReportOctets s c) ∧
    (∀ c : Camp, owned c 1 → x.bufLen = 0 →
      ∃ t, exec (.campaignPause f) s = .next t ∧ doneWith t stOk ∧ t.camp.camps = [{ c with paused := true }] ∧
        (t.mac.queue.any fun q => q.owner = .campaign c.id) = false) ∧
    (∀ c : Camp, owned c 2 → x.bufLen = 0 →
      ∃ t, exec (.campaignContinue f) s = .next t ∧ doneWith t stOk ∧ t.camp.camps = [{ c with paused := false }] ∧ t.mac = s.mac) ∧
    (∀ c : Camp, owned c 3 → x.bufLen = 0 → c.records = [] →
      ∃ t, exec (.campaignAbort f) s = .next t ∧ doneWith t stOk ∧ Raised t 137 ∧
        t.camp.camps.map (fun y => (y.id, y.phase, y.records.map fun r => (r.seq, r.endReason))) = [(c.id, .ended 2, [(c.seq + 1, 2)])] ∧
        (t.mac.queue.any fun q => q.owner = .campaign c.id) = false ∧ Waits t fun j => j.what = .campRecord c.id (c.seq + 1) false) ∧
    (∀ (c : Camp) (d : DirEnt), owned c 4 → x.bufLen = 0 → dirGet s node = some d → mayTake s c.owner c.id d = true → c.id < 256 →
      ∃ t, exec (.campaignAddNode f) s = .next t ∧ doneWith t stOk ∧
        dirGet t node = some { d with campId := BitVec.ofNat 8 c.id, campPos := 0, campState := 1 } ∧
        t.camp.camps.map (fun y => (y.id, y.phase)) = [(c.id, .running)]) ∧
    (∀ c : Camp, owned c 4 → dirGet s node = none →
      ∃ t, exec (.campaignAddNode f) s = .next t ∧ doneWith t stNodeUnknown ∧ t.camp = s.camp ∧ t.tables = s.tables) ∧
    (∀ (c : Camp) (d : DirEnt), owned c 5 → x.bufLen = 0 → dirGet s node = some d → mayTake s c.owner c.id d = true →
      ∃ t, exec (.campaignRemoveNode f) s = .next t ∧ doneWith t stOk ∧ dirGet t node = some { d with campState := 5 }) ∧
    (∀ c : Camp, owned c 6 → x.bufLen = 0 → c.records = [] →
      ∃ t, exec (.campaignCheckpoint f) s = .next t ∧ doneWith t stOk ∧
        t.camp.camps.map (fun y => (y.phase, y.records.map fun r => (r.seq, r.endReason))) = [(.running, [(c.seq + 1, 0xFF)])] ∧
        Waits t fun j => j.what = .campRecord c.id (c.seq + 1) false) ∧
    (∀ c : Camp, x.byte 21 = 1 → s.camp.camps = [c] → c.id = x.byte 20 → c.phase = .running → f.val ≠ c.owner → f.val ≠ hmFn s →
      ∃ t, exec (.campaignPause f) s = .next t ∧ doneWith t stRejected ∧ t.camp = s.camp ∧ t.mac = s.mac) ∧
    (x.byte 21 = 3 → s.camp.camps = [] →
      ∃ t, exec (.campaignAbort f) s = .next t ∧ doneWith t stNodeUnknown ∧ t.camp = s.camp ∧ t.mac = s.mac)

/-- R298 to R300, R302, R305, R308, R310, R312: CAMPAIGN_START, CAMPAIGN_RECORD_CONFIRMED, CAMPAIGN_VISIT, BLOCK_PREPARED,
CAMPAIGN_BUDGET_WINDOW, CAMPAIGN_START_AT, CAMPAIGN_DEADLINE and CAMPAIGN_CKPT_TIMER. -/
def Obligations.CampaignProgress : Prop :=
  ∀ s : State, Runs s →
    let start (f : Fn) (x : DescS) : Prop := (getRing s f.val 2).descs = [x] ∧ x.phase = .ready ∧ x.op = opCampStart ∧ x.ring = 2 ∧
      s.landed = [] ∧ (x.byte 21).testBit 0 = false
    (∀ (f : Fn) (x : DescS) (h : Handle) (d : DirEnt), start f x → gateOpen s = true → drbgOn s = true → startFieldsOk x = true →
      s.camp.camps = [] →
      campCount s (x.num 24 2) ≠ 0 → (x.slotName 38).name = none → x.num 22 2 ≠ 4095 → s.tables.dir = [(h, d)] →
      d.groups.contains (x.num 22 2) = true → d.tenant = f.val → x.byte 20 < 256 →
        ∃ t, exec (.campaignStart f) s = .next t ∧ t.camp.camps.map (fun c => (c.id, c.owner, c.phase)) = [(x.byte 20, f.val, .starting)] ∧
          (dirGet t h).map (fun e => (e.campId.toNat, e.campPos, e.campState)) = some (x.byte 20, 0, 1) ∧
          Waits t fun j => j.what = .campRecord (x.byte 20) 1 false) ∧
    (∀ (f : Fn) (x : DescS), start f x → (gateOpen s = false ∨ startFieldsOk x = false) → s.claim.st ≠ .diag →
      ∃ t, exec (.campaignStart f) s = .next t ∧ t.camp = s.camp ∧ t.tables = s.tables ∧ (getRing t f.val 2).descs = [] ∧
        (getFn t f.val).out = (getFn s f.val).out ++
          [(6, ⟨x.tag, if gateOpen s = true then stBadDesc else stRejected, opCampStart, false, 0, noNode, nowNs s, 0⟩)]) ∧
    (∀ (id : Nat) (c : Camp) (j : Job) (q : Word) (back : Bool), s.camp.camps = [c] → c.id = id → c.phase = .starting → s.landed = [j] →
      j.what = .campRecord id q back → j.abort = false → j.poisoned = false → 0 < (q - c.seq).toInt → (pendingTargets s id).isEmpty = false →
        ∃ t, exec (.campaignRecordConfirmed id) s = .next t ∧ t.landed = [] ∧ Counted s t 0 Ct.CAMP_CKPT 1 ∧ Raised t 136 ∧
          t.camp.camps.map (fun y => (y.phase, y.seq)) = [(.running, q)]) ∧
    (∀ (id : Nat) (c : Camp) (j : Job) (q : Word) (back : Bool), s.camp.camps = [c] → c.id = id → c.phase = .running → s.landed = [j] →
      j.what = .campRecord id q back → j.abort = true →
        ∃ t, exec (.campaignRecordConfirmed id) s = .next t ∧ t.landed = [] ∧ Raised t 137 ∧
          t.camp.camps.map (fun y => y.phase) = [.ended 4]) ∧
    (∀ (c : Camp) (b : Nat), encoderFenced s = false → s.camp.visit = none → s.camp.camps = [c] → c.ready = true → c.nextBlock = some b →
      s.camp.prepared = [] → s.camp.preparing = [] → cellsOpen s (cellsFor (blockK c.f c.t c.kmax b * c.t)) = true →
        ∃ t, exec .campaignVisit s = .next t ∧ t.camp.preparing = [(c.id, b)] ∧ t.mac = s.mac ∧
          Waits t fun j => j.fn = c.owner && j.what = .campGather c.id b) ∧
    (∀ (c : Camp) (b : Nat) (src : List Byte), encoderFenced s = false → s.camp.visit = none → s.camp.camps = [c] → c.ready = true →
      c.nextBlock = some b → s.camp.prepared = [(c.id, b, src)] → fget s 0 Fl.CAMP_SCHED_VISIT_FRAMES = 1 → campCount s c.t ≠ 0 →
      (c.blk b).nextEsi + campCount s c.t ≤ (c.blk b).limit → (c.blk b).limit ≤ 16777216 →
      ((campBands s).any fun g => fget s 0 Fl.CAMP_CFG_QUEUED ≤ campQueued s g) = false →
        ∃ t, exec .campaignVisit s = .next t ∧ t.camp.visit = none ∧ t.camp.turn = c.id ∧
          t.camp.camps.map (fun y => ((y.blk b).nextEsi, y.windowUsed)) = [((c.blk b).nextEsi + campCount s c.t, c.windowUsed + 1)] ∧
          (t.mac.queue.drop s.mac.queue.length).map (fun q => q.dst) = (campBands s).map .band) ∧
    (∀ (id b : Nat) (c : Camp) (j : Job), s.camp.camps = [c] → c.id = id → c.phase = .running → s.landed = [j] →
      j.what = .campGather id b → j.abort = false → j.poisoned = false →
        ∃ t, exec (.blockPrepared id b) s = .next t ∧ t.landed = [] ∧ t.camp.camps = [c] ∧
          t.camp.prepared = s.camp.prepared ++ [(id, b, fitOctets ((c.blk b).k * c.t) j.octets)]) ∧
    (∀ (id b : Nat) (c : Camp) (j : Job), s.camp.camps = [c] → c.id = id → c.phase = .running → s.landed = [j] →
      j.what = .campGather id b → j.abort = false → j.poisoned = true →
        ∃ t, exec (.blockPrepared id b) s = .next t ∧ t.landed = [] ∧ t.camp.prepared = s.camp.prepared ∧ Raised t 141 ∧
          Counted s t 0 Ct.CAMP_POISON 1) ∧
    (∀ (id : Nat) (c : Camp), s.camp.camps = [c] → c.id = id → c.phase = .running → s.camp.visit = none →
      ∃ t, exec (.campaignBudgetWindow id) s = .next t ∧
        t.camp.camps = [{ c with windowMono := c.windowMono + 60000000000, windowUsed := 0 }]) ∧
    (∀ (id : Nat) (c : Camp) (n : SlotName), s.camp.camps = [c] → c.id = id → c.startAt = some n → slotReached s n = true →
      ∃ t, exec (.campaignStartAt id) s = .next t ∧ t.camp.camps = [{ c with started := true }]) ∧
    (∀ (id : Nat) (c : Camp) (n : SlotName), s.camp.camps = [c] → c.id = id → c.phase = .running → c.endBy = some n →
      slotReached s n = true →
        ∃ t, exec (.campaignDeadline id) s = .next t ∧ t.camp.camps.map (fun y => y.phase) = [.ended 1] ∧ Raised t 137) ∧
    (∀ (id : Nat) (c : Camp), s.camp.camps = [c] → c.id = id → c.phase = .running → c.records = [] →
      fget s 0 Fl.CAMP_SCHED_CKPT_S ≠ 0 →
        ∃ t, exec (.campaignCkptTimer id) s = .next t ∧
          t.camp.camps.map (fun y => y.records.map fun r => (r.seq, r.endReason)) = [[(c.seq + 1, 0xFF)]] ∧
          Waits t fun j => j.fn = c.owner && j.what = .campRecord id (c.seq + 1) false)

/-- R320, R324, R328, R337: MOULD_LOAD, MOULD_INVALIDATE, MOULD_ERASE, MOULD_END_GRACE, GRACE_ENDED, GEN_GRACE_ENDED, KEY_NODE_GEN,
ENTROPY_FAIL, ENTROPY_RECOVERED and DRBG_RESEED. -/
def Obligations.KeysAndRandomNumbers : Prop :=
  ∀ s : State, Works s →
    let zeroed (t : State) : Prop := t.keys.staging = List.replicate 4 none
    let noCasts (t : State) (i : Nat) : Prop := (t.keys.cache.any fun e => e.slot = i) = false
    (∀ (f : Fn) (v : Word) (i : Nat) (k : BitVec 128) (m : Mould), Accepts s f.val Reg.KEY_MOULD_CTRL (mouldWord 1 v) = true →
      i = bitsOf 3 0 v → s.keys.slots[i]? = some m → stagedKey s f.val = some k → bitsOf 5 4 v ≠ 0 → rootValid s = true →
      (m.prior = none ∨ m.priorUse = bitsOf 5 4 v) →
        ∃ t, exec (.mouldLoad f v) s = .next t ∧
          getMould t i = ⟨bitsOf 5 4 v, some k, m.current, m.use, if m.current.isSome then some (graceEnd s) else none, m.version + 1,
            false⟩ ∧ noCasts t i ∧ zeroed t ∧ Raised t 144) ∧
    (∀ (f : Fn) (v : Word), Accepts s f.val Reg.KEY_MOULD_CTRL (mouldWord 1 v) = true →
      (stagedKey s f.val = none ∨ bitsOf 5 4 v = 0 ∨ rootValid s = false) →
        ∃ t, exec (.mouldLoad f v) s = .next t ∧ Rejected t Reg.KEY_STATUS ∧ t.keys.slots = s.keys.slots ∧ zeroed t) ∧
    (∀ (f : Fn) (v : Word) (i : Nat) (m : Mould), Accepts s f.val Reg.KEY_MOULD_CTRL (mouldWord 2 v) = true → i = bitsOf 3 0 v →
      s.keys.slots[i]? = some m → m.current ≠ none →
        ∃ t, exec (.mouldInvalidate f v) s = .next t ∧
          getMould t i = ⟨m.use, none, m.current, m.use, some (graceEnd s), m.version + 1, true⟩ ∧ noCasts t i ∧ zeroed t ∧
          Raised t 145) ∧
    (∀ (f : Fn) (v : Word), Accepts s f.val Reg.KEY_MOULD_CTRL (mouldWord 2 v) = true → (getMould s (bitsOf 3 0 v)).current = none →
      ∃ t, exec (.mouldInvalidate f v) s = .next t ∧ Rejected t Reg.KEY_STATUS ∧ t.keys.slots = s.keys.slots ∧ zeroed t) ∧
    (∀ (f : Fn) (v : Word) (i : Nat) (m : Mould), Accepts s f.val Reg.KEY_MOULD_CTRL (mouldWord 3 v) = true → i = bitsOf 3 0 v →
      s.keys.slots[i]? = some m →
        ∃ t, exec (.mouldErase f v) s = .next t ∧ (getMould t i).state = 0 ∧ (getMould t i).prior = none ∧
          (getMould t i).version = m.version + 1 ∧ noCasts t i ∧ zeroed t ∧ Raised t 145) ∧
    (∀ (f : Fn) (v : Word) (i : Nat) (m : Mould), Accepts s f.val Reg.KEY_MOULD_CTRL (mouldWord 4 v) = true → i = bitsOf 3 0 v →
      s.keys.slots[i]? = some m → m.prior ≠ none →
        ∃ t, exec (.mouldEndGrace f v) s = .next t ∧ getMould t i = { m with prior := none, graceMono := none } ∧ zeroed t ∧
          (t.keys.cache.any fun e => e.slot = i ∧ e.fromPrior = true) = false ∧ Raised t 146) ∧
    (∀ (i : Fin 16) (m : Mould), s.start.phase ≠ .halted → s.keys.slots[i.val]? = some m → m.prior ≠ none → m.graceMono ≠ none →
      ∃ t, exec (.graceEnded i) s = .next t ∧ getMould t i.val = { m with prior := none, graceMono := none } ∧ Raised t 146) ∧
    (∀ (e : Eui) (g : GenGrace), s.start.phase ≠ .halted → s.keys.graces = [g] → g.eui = e →
      ∃ t, exec (.genGraceEnded e) s = .next t ∧ t.keys.graces = [] ∧ Raised t 146) ∧
    (∀ (f : Fn) (v : Word) (h : Handle) (d : DirEnt), Accepts s f.val Reg.KEY_NODE_GEN (setBitAt 31 v true) = true →
      h = bitsOf 17 0 v → dirGet s h = some d → s.keys.graces.length < 1024 →
        ∃ t, exec (.keyNodeGen f v) s = .next t ∧ dirGet t h = some { d with castGen := d.castGen + 1, sealTxSeq := 0 } ∧
          t.keys.graces.getLast? = some ⟨d.eui, d.castGen, graceEnd s⟩) ∧
    (∀ (f : Fn) (v : Word), Accepts s f.val Reg.KEY_NODE_GEN (setBitAt 31 v true) = true → dirGet s (bitsOf 17 0 v) = none →
      ∃ t, exec (.keyNodeGen f v) s = .next t ∧ Rejected t Reg.KEY_STATUS ∧ t.tables = s.tables ∧ t.keys = s.keys) ∧
    (s.keys.entropyFail = false →
      ∃ t, exec .entropyFail s = .next t ∧ t.keys = { s.keys with entropyFail := true } ∧ fget t 0 Fl.KEY_STATUS_ENTROPY_FAIL = 1 ∧
        Counted s t 0 Ct.KEY_ENTROPY_FAIL 1 ∧ Raised t 152) ∧
    (s.keys.entropyFail = true → s.keys.drbgBlocked = true →
      ∃ t, exec .entropyRecovered s = .next t ∧
        t.keys = { s.keys with entropyFail := false, drbgBlocked := false, reseedMono := reseedAt s } ∧
        fget t 0 Fl.KEY_STATUS_ENTROPY_FAIL = 0 ∧ fget t 0 Fl.KEY_STATUS_DRBG_BLOCKED = 0 ∧ Raised t 152) ∧
    (s.keys.drbgReady = true → s.keys.drbgBlocked = false → s.keys.entropyFail = true →
      ∃ t, exec .drbgReseed s = .next t ∧ t.keys = { s.keys with drbgBlocked := true } ∧ fget t 0 Fl.KEY_STATUS_DRBG_BLOCKED = 1 ∧
        Raised t 153) ∧
    (s.keys.drbgReady = true → s.keys.drbgBlocked = false → s.keys.entropyFail = false →
      ∃ t, exec .drbgReseed s = .next t ∧ t.keys = { s.keys with reseedMono := reseedAt t } ∧
        fget t 0 Fl.KEY_STATUS_DRBG_BLOCKED = 0)

/-- R330 to R333, R336: TAMPER_TRIP, HOST_SCUTTLE, SCUTTLE_RESET, TAMPER_LOCK, VBAT_APPLIED, VBAT_LOSS, GENERATE, FUSE_IMGKEY,
PROVISIONED and ATTEST_REQ. -/
def Obligations.PlinthCommands : Prop :=
  ∀ s : State, Works s →
    let seen (t : State) (src : Nat) : Bool := (fget t 0 Fl.PLINTH_TAMPER_SEEN_SRC).testBit src
    let scuttled (t : State) (cause : Nat) : Prop := t.plinth.root = none ∧ t.keys.slots = List.replicate 16 Mould.reset ∧
      t.keys.cache = [] ∧ fget t 0 Fl.PLINTH_SCUTTLE_INFO_CAUSE = cause ∧ t.claim.st = .diag ∧ Raised t 155
    let noneOnAir : Prop := ∀ n : Fin 6, (getBerth s n.val).onAir = none
    let go (op : Nat) : Word := BitVec.ofNat 32 (2 ^ 31 + op)
    let prov (t : State) (op result : Nat) : Prop := fget t 0 Fl.PLINTH_PROV_STATUS_OP = op ∧ fget t 0 Fl.PLINTH_PROV_STATUS_RESULT = result
    (∀ (src : Fin 4) (n : Nat), s.plinth.vbat = true → n ≠ 0 → fget s 0 Fl.PLINTH_TAMPER_CFG_FILTER ≤ n → tamperAction s src.val = 1 →
      ∃ t, exec (.tamperTrip src n) s = .next t ∧ seen t src.val = true ∧ Raised t 154 ∧ t.keys = s.keys ∧
        t.plinth = { s.plinth with lfsr := s.plinth.lfsr.map (Nat.repeat lfsrNext n) }) ∧
    (∀ (src : Fin 4) (n : Nat), s.plinth.vbat = true → n ≠ 0 → fget s 0 Fl.PLINTH_TAMPER_CFG_FILTER ≤ n → tamperAction s src.val = 2 →
      noneOnAir →
      ∃ t, exec (.tamperTrip src n) s = .next t ∧ seen t src.val = true ∧ Raised t 154 ∧ scuttled t (src.val + 1) ∧
        t.plinth.scuttleMono.isSome = true) ∧
    (∀ (src : Fin 4) (n : Nat), n < fget s 0 Fl.PLINTH_TAMPER_CFG_FILTER →
      ∃ t, exec (.tamperTrip src n) s = .next t ∧ seen t src.val = seen s src.val ∧ t.keys = s.keys ∧
        t.plinth = if s.plinth.vbat = true then { s.plinth with lfsr := s.plinth.lfsr.map (Nat.repeat lfsrNext n) } else s.plinth) ∧
    (∀ (f : Fn) (v : Word), Accepts s f.val Reg.PLINTH_SCUTTLE v = true → f.val = hmFn s → bitAt 31 v = true → bitsOf 15 0 v = 0xA5C7 →
      noneOnAir →
      ∃ t, exec (.hostScuttle f v) s = .next t ∧ scuttled t 5) ∧
    (∀ (f : Fn) (v : Word), Accepts s f.val Reg.PLINTH_SCUTTLE v = true → bitAt 31 v = true → (f.val ≠ hmFn s ∨ bitsOf 15 0 v ≠ 0xA5C7) →
      ∃ t, exec (.hostScuttle f v) s = .next t ∧ Rejected t Reg.PLINTH_STATUS ∧ t.plinth = s.plinth ∧ t.keys = s.keys) ∧
    (∀ m : Nat, s.plinth.scuttleMono = some m →
      ∃ t, exec .scuttleReset s = .next t ∧ t.start.phase = .fuses ∧ t.start.cause = 3 ∧ t.plinth.scuttleMono = none ∧
        t.plinth.root = s.plinth.root ∧ t.flash = s.flash) ∧
    (∀ (f : Fn) (v : Word), Accepts s f.val Reg.PLINTH_TAMPER_CFG (v ||| 0x80000000) = true → fget s 0 Fl.PLINTH_TAMPER_CFG_LOCK = 0 →
      ∃ t, exec (.tamperLock f v) s = .next t ∧ fget t 0 Fl.PLINTH_TAMPER_CFG_LOCK = 1 ∧
        fget t 0 Fl.PLINTH_TAMPER_CFG_FILTER = bitsOf 11 8 v ∧
        ∀ src : Fin 4, tamperAction t src.val = bitsOf (2 * src.val + 1) (2 * src.val) v) ∧
    (∀ (f : Fn) (v : Word), Accepts s f.val Reg.PLINTH_TAMPER_CFG (v ||| 0x80000000) = true → fget s 0 Fl.PLINTH_TAMPER_CFG_LOCK = 1 →
      ∃ t, exec (.tamperLock f v) s = .next t ∧ rd t Reg.PLINTH_TAMPER_CFG = rd s Reg.PLINTH_TAMPER_CFG) ∧
    (s.plinth.vbat = false →
      ∃ t, exec .vbatApplied s = .next t ∧ t.plinth.vbat = true ∧ t.plinth.root = none ∧ t.plinth.ticks = 0 ∧
        fget t 0 Fl.PLINTH_SCUTTLE_INFO_CAUSE = if s.otp.imgKeys = [] then 7 else 6) ∧
    (∃ t, exec .vbatLoss s = .next t ∧ t.plinth.vbat = false ∧ t.plinth.root = none ∧ t.plinth.ticks = 0 ∧ t.plinth.provisioning = none ∧
        rd t Reg.PLINTH_TAMPER_CFG = regReset (hmFn s) Reg.PLINTH_TAMPER_CFG ∧ t.otp = s.otp) ∧
    (∀ f : Fn, Accepts s f.val Reg.PLINTH_PROV_CTRL (go 1) = true → f.val = hmFn s → drbgOn s = true → s.plinth.root = none →
      ∃ t, exec (.generate f) s = .next t ∧ t.plinth = { s.plinth with provisioning := some 1 } ∧ prov t 1 0) ∧
    (∀ f : Fn, Accepts s f.val Reg.PLINTH_PROV_CTRL (go 1) = true → f.val = hmFn s → s.plinth.root ≠ none →
      ∃ t, exec (.generate f) s = .next t ∧ t.plinth = s.plinth ∧ prov t 1 2 ∧ Raised t 156) ∧
    (∀ (f : Fn) (k : BitVec 256), Accepts s f.val Reg.PLINTH_PROV_CTRL (go 2) = true → f.val = hmFn s → drbgOn s = true →
      s.plinth.root ≠ none → stagedImgKey s f.val = some k → s.otp.imgKeys.length < 4 →
        ∃ t, exec (.fuseImgkey f) s = .next t ∧ t.plinth = { s.plinth with provisioning := some 2 } ∧ prov t 2 0) ∧
    (∀ f : Fn, Accepts s f.val Reg.PLINTH_PROV_CTRL (go 2) = true → f.val = hmFn s →
      (s.plinth.root = none ∨ stagedImgKey s f.val = none ∨ s.otp.imgKeys.length = 4) →
        ∃ t, exec (.fuseImgkey f) s = .next t ∧ t.plinth = s.plinth ∧ prov t 2 2 ∧ Raised t 156) ∧
    (s.plinth.provisioning = some 1 →
      ∃ t, exec (.provisioned true) s = .next t ∧ t.plinth.root = some (Config.draw256 s.draws) ∧ t.plinth.provisioning = none ∧
        t.fw.idValid = true ∧ prov t 1 1 ∧ fget t 0 Fl.PLINTH_SCUTTLE_INFO_CAUSE = 0 ∧ Raised t 156) ∧
    (∀ (ok : Bool) (k r : BitVec 256), s.plinth.provisioning = some 2 → stagedImgKey s (hmFn s) = some k → s.plinth.root = some r →
      ∃ t, exec (.provisioned ok) s = .next t ∧ t.otp.imgKeys = s.otp.imgKeys ++ [⟨k, r, !ok⟩] ∧ t.plinth.root = some r ∧
        t.plinth.imgStaging = List.replicate 8 none ∧ prov t 2 (if ok = true then 1 else 3) ∧ Raised t 156) ∧
    (∀ (f : Fn) (x : DescS), s.start.phase ≠ .halted → nextAttest s = some (f.val, x) → x.ring = 2 → 608 ≤ x.bufLen → unitOut s 28 = false → unitOut s 29 = false → drbgOn s = true →
        ∃ t, exec (.attestReq f) s = .next t ∧ Counted s t 0 Ct.KEY_ATTEST 1 ∧ Waits t fun j => j.fn = f.val && j.write &&
          j.addr = x.bufAddr && (statement s x).isPrefixOf j.octets) ∧
    (∀ (f : Fn) (x : DescS), s.start.phase ≠ .halted → nextAttest s = some (f.val, x) → x.ring = 2 → (getRing s f.val 2).descs = [x] →
      s.claim.st ≠ .diag → x.bufLen < 608 →
        ∃ t, exec (.attestReq f) s = .next t ∧ (getRing t f.val 2).descs = [] ∧
          (getFn t f.val).out = (getFn s f.val).out ++ [(6, ⟨x.tag, stBadDesc, opAttest, false, 0, noNode, nowNs s, 0⟩)])

/-- R18, R20, R21, R27 to R32, R349: LINK_PARITY_FAILURE, PILOT_WATCHDOG, PILOT_BUS_FAULT, FABRIC_UNFENCE, FABRIC_UNFENCE_DONE,
FABRIC_RATE_WINDOW and CLR_LOW_WATER. -/
def Obligations.FabricFaultsAndRate : Prop :=
  ∀ s : State, Works s →
    let run (l : Link) (again : Bool) : Nat := if again then refusals s l + 1 else 1
    let noneOnAir : Prop := ∀ n : Fin 6, (getBerth s n.val).onAir = none
    let diag (t : State) (cause : Nat) : Prop := t.claim.st = .diag ∧ fget t 0 Fl.CLAIM_DIAG_CAUSE = cause ∧ t.claim.gate = false ∧
      t.fabric.pilots = List.replicate 4 3 ∧ Raised t 196
    (∀ (l : Link) (again : Bool), run l again < 3 →
      ∃ t, exec (.linkParityFailure l again) s = .next t ∧ refusals t l = run l again ∧ Counted s t 0 Ct.FABRIC_REPLAY 1 ∧
        rd t Reg.FABRIC_FENCED = rd s Reg.FABRIC_FENCED ∧ t.fabric.replays.head? = some (monoNs s)) ∧
    (∀ (u : Fin 31) (again : Bool), 3 ≤ run (.unit u) again → unitFenced s u.val = false → breaksFloor s u.val = false → noneOnAir →
      ∃ t, exec (.linkParityFailure (.unit u) again) s = .next t ∧ refusals t (.unit u) = 0 ∧
        rd t Reg.FABRIC_FENCED = setBitAt u.val (rd s Reg.FABRIC_FENCED) true ∧
        rd t Reg.FABRIC_LINK_FAULT = setBitAt u.val (rd s Reg.FABRIC_LINK_FAULT) true ∧ Raised t 176 ∧ Raised t 177) ∧
    (∀ (u : Fin 31) (again : Bool) (j : Job), 3 ≤ run (.unit u) again → unitFenced s u.val = false → breaksFloor s u.val = false →
      4 ≤ u.val → u.val < 12 → s.stevs.getD (u.val - 4) none = some j → j.what.site < 4 →
        ∃ t, exec (.linkParityFailure (.unit u) again) s = .next t ∧
          Waits t fun q => q.fn = j.fn && q.what = j.what && j.moved ≤ q.moved && q.moved < j.moved + max 1 (slingLen j)) ∧
    (∀ (u : Fin 31) (again : Bool), 3 ≤ run (.unit u) again → unitFenced s u.val = false → breaksFloor s u.val = true → noneOnAir →
      s.claim.st ≠ .diag →
      ∃ t, exec (.linkParityFailure (.unit u) again) s = .next t ∧ rd t Reg.FABRIC_FENCED = rd s Reg.FABRIC_FENCED ∧ diag t 3 ∧
        Raised t 187) ∧
    (∀ (b : Fin 16) (again : Bool), 3 ≤ run (.core b) again → noneOnAir → s.claim.st ≠ .diag →
      ∃ t, exec (.linkParityFailure (.core b) again) s = .next t ∧ diag t 2 ∧
        rd t Reg.FABRIC_CORE_FAULT = setBitAt b.val (rd s Reg.FABRIC_CORE_FAULT) true ∧ Raised t 186) ∧
    (∀ (c : Fin 4) (back : Nat), s.fabric.pilots[c.val]? = some 1 → back ≤ monoNs s → unitFenced s c.val = false →
      breaksFloor s c.val = false → ∃ t, exec (.pilotWatchdog c back) s = .next t ∧ rd t Reg.FABRIC_FENCED = setBitAt c.val (rd s Reg.FABRIC_FENCED) true ∧
        t.fabric.pilots[c.val]? = some 2 ∧ Raised t 185 ∧ Raised t 177 ∧ Raised t 184) ∧
    (∀ (c : Fin 4) (fetch : Bool) (cls : UeClass) (loc : BitVec 26), s.fabric.pilots[c.val]? = some 1 → noneOnAir → s.claim.st ≠ .diag →
      ∃ t, exec (.pilotBusFault c fetch cls loc) s = .next t ∧ diag t 1 ∧ fget t 0 Fl.HOLD_LAST_UE_LOC_LOC = loc.toNat ∧ Raised t 168) ∧
    (∀ (f : Fn) (v : Word), Accepts s f.val Reg.FABRIC_UNFENCE v = true → bitAt 31 v = true → f.val = hmFn s → 4 ≤ bitsOf 4 0 v →
      bitsOf 4 0 v ≠ 31 → s.fabric.unfencing = none →
        ∃ t, exec (.fabricUnfence f v) s = .next t ∧ t.fabric = { s.fabric with unfencing := some (bitsOf 4 0 v) } ∧
          fget t 0 Fl.FABRIC_STATUS_UNIT = bitsOf 4 0 v ∧ fget t 0 Fl.FABRIC_STATUS_PASS = 0) ∧
    (∀ (f : Fn) (v : Word), Accepts s f.val Reg.FABRIC_UNFENCE v = true → bitAt 31 v = true →
      (f.val ≠ hmFn s ∨ bitsOf 4 0 v < 4 ∨ bitsOf 4 0 v = 31 ∨ s.fabric.unfencing ≠ none) →
        ∃ t, exec (.fabricUnfence f v) s = .next t ∧ t.fabric = s.fabric ∧ fget t 0 Fl.FABRIC_STATUS_REFUSED = 1) ∧
    (∀ (u : Nat) (pass : Bool), s.fabric.unfencing = some u →
      ∃ t, exec (.fabricUnfenceDone pass) s = .next t ∧ t.fabric = { s.fabric with unfencing := none } ∧ Raised t 178 ∧
        fget t 0 Fl.FABRIC_STATUS_PASS = (if pass = true then 1 else 0) ∧
        rd t Reg.FABRIC_FENCED = if pass = true then setBitAt u (rd s Reg.FABRIC_FENCED) false else rd s Reg.FABRIC_FENCED) ∧
    (∀ rate : BitVec 16,
      ∃ t, exec (.fabricRateWindow rate) s = .next t ∧ fget t 0 Fl.FABRIC_RATE_RATE = rate.toNat ∧
        fget t 0 Fl.FABRIC_RATE_LOW_WATER = min rate.toNat (fget s 0 Fl.FABRIC_RATE_LOW_WATER)) ∧
    (∀ rate : BitVec 16, rate.toNat < fget s 0 Fl.FABRIC_RATE_WARN_THRESHOLD → s.fabric.lowLatched = false →
      ∃ t, exec (.fabricRateWindow rate) s = .next t ∧ t.fabric.lowLatched = true ∧ Raised t 180) ∧
    (∀ rate : BitVec 16, fbit s 0 Fl.FABRIC_VPOLICY_ENABLE = true → rate.toNat < targetRate s → s.fabric.lowRun = 99 →
      fget s 0 Fl.FABRIC_VREQ_VREQ_MV + 10 ≤ ceilMv s →
        ∃ t, exec (.fabricRateWindow rate) s = .next t ∧ fget t 0 Fl.FABRIC_VREQ_VREQ_MV = fget s 0 Fl.FABRIC_VREQ_VREQ_MV + 10 ∧
          Raised t 181 ∧ bitAt 0 t.mgmt.alert = true) ∧
    (∀ (f : Fn) (v : Word), Accepts s f.val Reg.FABRIC_CTRL v = true → bitAt 16 v = true → bitAt 0 v = true →
      ∃ t, exec (.clrLowWater f v) s = .next t ∧ fget t 0 Fl.FABRIC_RATE_LOW_WATER = 0xFFFF ∧
        fget t 0 Fl.FABRIC_RATE_RATE = fget s 0 Fl.FABRIC_RATE_RATE)

/-- R345, R353, R355, R357, R360, R361: QUEUE_RESET, HOLD_QCMD_FLUSH, HOLD_QCMD_DROP_ITEM, HOLD_QCMD_RESET, QUEUE_FLUSH_FORCED,
HOLD_LOG_CLEAR, FIELD_REPAIR and FIELD_REPAIR_DONE. -/
def Obligations.QueuesAndRepair : Prop :=
  ∀ s : State, Works s →
    let cmd (op : Nat) (v : Word) : Word := setBitAt 31 (putBits 9 8 v op) true
    let others (q : Nat) : List RxRec := s.mac.records.filter fun r => r.berth ≠ q
    let isReset (t : State) : Prop := Counted s t 0 Ct.HOLD_QRESET 1 ∧ Raised t 164
    (∀ q : Nat, q < 6 → ∃ t, exec (.queueReset q) s = .next t ∧ t.mac = { s.mac with records := others q } ∧ isReset t) ∧
    (∃ t, exec (.queueReset 20) s = .next t ∧ t.svc = { s.svc with upq := [] } ∧ isReset t) ∧
    (∀ f : Fn, (getFn s f.val).ups ≠ [] →
      ∃ t, exec (.queueReset (35 + 4 * f.val)) s = .next t ∧ (getFn t f.val).ups = [] ∧
        Counted s t (fb f.val) Ct.RING_LOST (getFn s f.val).ups.length ∧ fget t (fb f.val) Fl.RING_STATUS_LOST = 1 ∧ isReset t) ∧
    (∀ (f : Fn) (v : Word) (q : Nat), Accepts s f.val Reg.HOLD_QCMD (cmd 1 v) = true → q = bitsOf 6 0 v → q < 6 → openItems s q = [] →
      ∃ t, exec (.holdQcmdFlush f v) s = .next t ∧ t.mac = { s.mac with records := others q } ∧ t.hold.flushing = s.hold.flushing) ∧
    (∀ (f : Fn) (v : Word) (q : Nat), Accepts s f.val Reg.HOLD_QCMD (cmd 1 v) = true → q = bitsOf 6 0 v → q < 6 → openItems s q ≠ [] →
      ∃ t, exec (.holdQcmdFlush f v) s = .next t ∧ t.mac = { s.mac with records := others q } ∧
        t.hold.flushing = some (q, monoNs s + 1000 * fget s 0 Fl.HOLD_FLUSH_CFG_WAIT_US, openItems s q)) ∧
    (∀ (f : Fn) (v : Word) (q : Nat) (r : RxRec), Accepts s f.val Reg.HOLD_QCMD (cmd 2 v) = true → q = bitsOf 6 0 v → q < 6 →
      s.mac.records = [r] → r.berth = q → ∃ t, exec (.holdQcmdDropItem f v) s = .next t ∧ t.mac = { s.mac with records := [] }) ∧
    (∀ (f g : Fn) (v : Word) (u : UpItem) (rest : List UpItem), Accepts s f.val Reg.HOLD_QCMD (cmd 2 v) = true →
      bitsOf 6 0 v = 35 + 4 * g.val → (getFn s g.val).ups = u :: rest →
        ∃ t, exec (.holdQcmdDropItem f v) s = .next t ∧ (getFn t g.val).ups = { u with abandoned := true } :: rest) ∧
    (∀ (f : Fn) (v : Word) (q : Nat), Accepts s f.val Reg.HOLD_QCMD (cmd 3 v) = true → q = bitsOf 6 0 v → q < 6 →
      ∃ t, exec (.holdQcmdReset f v) s = .next t ∧ t.mac = { s.mac with records := others q } ∧ isReset t) ∧
    (∀ (q m : Nat) (items : List Nat), s.hold.flushing = some (q, m, items) → q < 6 → (openItems s q).any items.contains = true →
      ∃ t, exec .queueFlushForced s = .next t ∧ t.hold.flushing = none ∧ t.mac = s.mac ∧
        Counted s t 0 Ct.HOLD_FLUSH_FORCED 1 ∧ Raised t 165) ∧
    (∀ (f : Fn) (v : Word), Accepts s f.val Reg.HOLD_LOG_SEL (setBitAt 31 v true) = true →
      ∃ t, exec (.holdLogClear f v) s = .next t ∧ t.hold.log = [] ∧ fget t 0 Fl.HOLD_STATUS_LOG_FULL = 0 ∧ t.hold.ces = s.hold.ces) ∧
    (∀ (f : Fn) (v : Word), Accepts s f.val Reg.HOLD_REPAIR_CTRL (setBitAt 31 v true) = true → f.val = hmFn s →
      repairable s (bitsOf 15 12 v) (bitsOf 10 0 v) = true →
        ∃ t, exec (.fieldRepair f v) s = .next t ∧ t.hold.repairing = some (bitsOf 15 12 v, bitsOf 10 0 v) ∧ t.otp = s.otp) ∧
    (∀ (f : Fn) (v : Word), Accepts s f.val Reg.HOLD_REPAIR_CTRL (setBitAt 31 v true) = true → f.val = hmFn s →
      repairable s (bitsOf 15 12 v) (bitsOf 10 0 v) = false →
        ∃ t, exec (.fieldRepair f v) s = .next t ∧ t.hold.repairing = s.hold.repairing ∧ t.otp = s.otp ∧
          fget t 0 Fl.HOLD_REPAIR_STATUS_RESULT = 2 ∧ Raised t 169) ∧
    (∀ (f : Fn) (v : Word), Accepts s f.val Reg.HOLD_REPAIR_CTRL (setBitAt 31 v true) = true → f.val ≠ hmFn s →
      ∃ t, exec (.fieldRepair f v) s = .next t ∧ Rejected t Reg.HOLD_STATUS ∧ t.hold.repairing = s.hold.repairing ∧ t.otp = s.otp) ∧
    (∀ (b row : Nat) (ok : Bool), s.hold.repairing = some (b, row) →
      ∃ t, exec (.fieldRepairDone ok) s = .next t ∧ t.hold.repairing = none ∧
        t.otp = { s.otp with repairs := s.otp.repairs ++ [⟨b, row, !ok, ok⟩] } ∧
        fget t 0 Fl.HOLD_REPAIR_STATUS_RESULT = (if ok = true then 1 else 3) ∧ Raised t 169)

/-- R364 to R369, R371, R373, R376, R377: BOLLARD_BUS_CHANGE, QUIET_REACHED, CLAIM_RISE, RELEASE_PROBE, TAKEOVER_DONE, YIELD, CLAIM_DIAG,
SELF_DIAG_DONE and FAILOVER_SEEN. -/
def Obligations.ClaimAndTakeover : Prop :=
  ∀ s : State, Works s →
    let noneOnAir : Prop := ∀ n : Fin 6, (getBerth s n.val).onAir = none
    let ctrl (bit : Nat) : Word := setBitAt bit (rd s Reg.CLAIM_CTRL) true
    let down (t : State) : Prop := t.claim.st = .standby ∧ t.claim.gate = false ∧ Raised t 192
    (∀ o : BitVec 4, s.claim.st = .standby → o.getLsbD 3 = true →
      ∃ t, exec (.bollardBusChange o) s = .next t ∧ t.claim.others = o ∧ t.claim.bus = o ∧ t.claim.quiet = false ∧
        t.claim.quietFrom = none ∧ t.claim.st = .standby) ∧
    (∀ o : BitVec 4, s.claim.st = .standby → o.getLsbD 3 = false → s.claim.bus.getLsbD 3 = true →
      ∃ t, exec (.bollardBusChange o) s = .next t ∧ t.claim.bus = busValue (BitVec.ofNat 4 s.start.straps.claim.val) o ∧
        t.claim.quietFrom = some (monoNs s) ∧ Raised t 198) ∧
    (∀ o : BitVec 4, (s.claim.st = .rising ∨ s.claim.st = .active) → 8 + s.start.straps.claim.val < o.toNat → noneOnAir →
      ∃ t, exec (.bollardBusChange o) s = .next t ∧ down t ∧ t.claim.bus = o ∧ fget t 0 Fl.CLAIM_CTRL_TAKEOVER = 0 ∧ Raised t 199) ∧
    (∀ m : Nat, s.claim.st = .standby → s.claim.quiet = false → s.claim.quietFrom = some m →
      ∃ t, exec .quietReached s = .next t ∧ t.claim.quiet = true ∧ t.claim.st = .standby ∧
        (fbit s 0 Fl.CLAIM_CTRL_TAKEOVER = true → riseFault s ≠ none → Raised t 195)) ∧
    (mayRise s = true → s.claim.others.toNat ≤ 8 + s.start.straps.claim.val →
      ∃ t, exec .claimRise s = .next t ∧ t.claim.st = .rising ∧ t.claim.heldMono = some (monoNs s) ∧ t.claim.gate = s.claim.gate ∧
        t.claim.bus = ownClaim t ∧ Raised t 192) ∧
    (∀ (o : BitVec 4) (m : Nat), probeDue s = some m → o ≠ ownClaim s →
      ∃ t, exec (.releaseProbe o) s = .next t ∧ t.claim.probed = true ∧ t.claim.probeMono.isSome = true ∧ t.claim.st = s.claim.st ∧
        Counted s t 0 Ct.CLAIM_PROBE 1) ∧
    (∀ m : Nat, probeDue s = some m → noneOnAir →
      ∃ t, exec (.releaseProbe (ownClaim s)) s = .next t ∧ down t ∧ fget t 0 Fl.CLAIM_CTRL_TAKEOVER = 0 ∧
        fget t 0 Fl.CLAIM_STATUS_CONFLICT = 1 ∧ Counted s t 0 Ct.CLAIM_CONFLICT 1 ∧ Raised t 193) ∧
    (s.claim.st = .rising → s.claim.probed = true → fget s 0 Fl.CLAIM_CTRL_FRESH = 1 →
      ∃ t, exec .takeoverDone s = .next t ∧ t.claim.st = .active ∧ t.claim.gate = true ∧ t.claim.nextFull = true ∧
        t.fns.map FnS.loss = s.fns.map (fun _ => some 0xFFFFFFFF) ∧ t.svc.txns = [] ∧ t.camp.camps = [] ∧ t.flash = s.flash ∧
        Raised t 194) ∧
    (∀ (h : CkptHeader) (k : Handle) (d : DirEnt), s.claim.st = .rising → s.claim.probed = true → fget s 0 Fl.CLAIM_CTRL_FRESH = 0 →
      s.claim.lastHeader = some h → s.tables.dir = [(k, d)] → runDescs s = [] → s.camp.camps = [] → s.mac.queue = [] →
        ∃ t, exec .takeoverDone s = .next t ∧ t.claim.st = .active ∧ t.claim.gate = true ∧
          t.flash.boot.incarnation = h.incarnation + 1 ∧ dirGet t k = some (sealBump d) ∧
          fget t 0 Fl.SVC_MID_NEXT_MID = (h.mid.toNat + 0x1000) % 65536 ∧ fget t 0 Fl.SVC_FRAG_TAG = (h.frag.toNat + 0x1000) % 65536 ∧
          fget t 0 Fl.SVC_FRAG_MPL_SEQ = (h.mplSeq.toNat + 128) % 256 ∧
          fget t 0 Fl.ROUTE_RPL_INST_VERSION = seqNext h.rplVersion.toNat ∧ fget t 0 Fl.CLAIM_CTRL_TAKEOVER = 0) ∧
    (Accepts s (hmFn s) Reg.CLAIM_CTRL (ctrl 2) = true → s.claim.st = .active → bitAt 3 (rd s Reg.CLAIM_CTRL) = false → noneOnAir →
      ∃ t, exec .claimYield s = .next t ∧ down t ∧ t.svc.txns = []) ∧
    (Accepts s (hmFn s) Reg.CLAIM_CTRL (ctrl 3) = true → s.claim.st ≠ .diag → s.claim.st ≠ .none → bitAt 2 (rd s Reg.CLAIM_CTRL) = false →
      noneOnAir →
        ∃ t, exec .claimDiag s = .next t ∧ t.claim.st = .diag ∧ t.claim.gate = false ∧ t.claim.failoverOut = true ∧
          fget t 0 Fl.CLAIM_DIAG_CAUSE = 5 ∧ fget t 0 Fl.CLAIM_DIAG_RESULT = 0 ∧ Raised t 196) ∧
    (∀ pass : Bool, s.claim.st = .diag → fget s 0 Fl.CLAIM_DIAG_RESULT = 0 →
      ∃ t, exec (.selfDiagDone pass) s = .next t ∧ fget t 0 Fl.CLAIM_DIAG_RESULT = (if pass = true then 1 else 2) ∧ Raised t 196 ∧
        t.claim = s.claim) ∧
    (s.claim.failoverOut = false →
      ∃ t, exec .failoverSeen s = .next t ∧ t.claim = { s.claim with failoverIn := true } ∧ Raised t 197) ∧
    (Accepts s (hmFn s) Reg.CLAIM_CTRL (ctrl 4) = true → s.claim.st ≠ .diag → s.claim.st ≠ .none → bitAt 2 (rd s Reg.CLAIM_CTRL) = false →
      bitAt 3 (rd s Reg.CLAIM_CTRL) = false →
        ∃ t, exec .ckptFull s = .next t ∧ t.claim = { s.claim with nextFull := true })

/-- R378 to R380: CKPT_AREA, CHECKPOINT_DUE, CKPT_WRITTEN, CKPT_LOAD and CKPT_LOADED. -/
def Obligations.Checkpoints : Prop :=
  ∀ s : State, Runs s →
    let ready (f : Fn) (x : DescS) (op : Nat) : Prop := (getRing s f.val 2).descs = [x] ∧ x.phase = .ready ∧ x.op = op ∧ x.ring = 2
    let refused (t : State) (f : Fn) (x : DescS) (st : Nat) : Prop := (getRing t f.val 2).descs = [] ∧
      (getFn t f.val).out = (getFn s f.val).out ++ [(6, ⟨x.tag, st, opCkptLoad, false, 0, noNode, nowNs s, 0⟩)] ∧
      t.claim = { s.claim with loading := s.claim.loading.filter fun l => !(l.fn = f.val && l.ring = 2 && l.index = x.index) } ∧
      t.tables = s.tables ∧ Counted s t 0 Ct.CLAIM_CKPT_REJECT 1 ∧ Raised t 202
    let clear (l : CkptLoad) : Prop := (parkedJobs s l.fn).any l.reads = false ∧
      atWork s l.fn (fun j => l.reads j && j.poisoned) = false
    (∀ (f : Fn) (x : DescS), ready f x opCkptArea → s.claim.area = none →
      ∃ t, exec (.ckptArea f) s = .next t ∧
        t.claim = { s.claim with area := some (areaOf f.val x), nextFull := true, dueMono := monoNs s + (areaOf f.val x).intervalNs } ∧
        (getRing t f.val 2).descs = [{ x with phase := .engine }]) ∧
    (∀ a : CkptArea, s.claim.area = some a → s.claim.st = .active → s.claim.writing = none → s.landed = [] →
      ∃ t, exec .checkpointDue s = .next t ∧
        t.claim.writing.map (fun w => (w.header.seq, w.header.full, w.header.writing)) =
          some (s.claim.ckptSeq + 1, s.claim.nextFull || a.fullEach, true) ∧
        t.claim.ckptSeq = s.claim.ckptSeq + 1 ∧ t.claim.nextFull = false ∧ t.claim.dirChanged = [] ∧
        Waits t fun j => j.fn = a.fn && j.what = .ckptWrite && j.addr = a.addr) ∧
    (∀ (j : Job) (w : CkptWrite) (a : CkptArea), s.landed = [j] → j.what = .ckptBack → j.abort = false → s.claim.writing = some w →
      s.claim.area = some a → a.fn < s.fns.length → monoNs s < s.claim.dueMono →
        ∃ t, exec .ckptWritten s = .next t ∧ t.claim = { s.claim with writing := none } ∧ rd t Reg.CLAIM_CKPT_OUT_SEQ = w.header.seq ∧
          Counted s t 0 Ct.CLAIM_CKPT_OUT 1 ∧ Raised t 200 ∧
          (getFn t a.fn).out = (getFn s a.fn).out ++ [(6, ⟨a.tag, stOk, opCkptArea, true, w.header.seq, noNode, nowNs s,
            BitVec.ofNat 64 ((if w.header.full then 1 else 0) + w.header.dirMarked * 2 ^ 4 + w.header.nbrMarked * 2 ^ 24)⟩)]) ∧
    (∀ (f : Fn) (x : DescS) (r : CkptRead), ready f x opCkptLoad → s.claim.st ≠ .standby → s.claim.st ≠ .diag →
      ∃ t, exec (.ckptLoad f r) s = .next t ∧ refused t f x stRejected) ∧
    (∀ (f : Fn) (x : DescS), ready f x opCkptLoad → ckptAreaLen ≤ x.bufLen → s.claim.st = .standby →
      ∃ t, exec (.ckptLoad f .poisoned) s = .next t ∧ refused t f x stPoisoned) ∧
    (∀ (f : Fn) (x : DescS) (im : CkptImage), ready f x opCkptLoad → ckptAreaLen ≤ x.bufLen → s.claim.st = .standby →
      (im.header.formatOk = false ∨ im.header.writing = true ∨ im.header.crcOk = false) →
        ∃ t, exec (.ckptLoad f (.ok im)) s = .next t ∧ refused t f x stBadDesc) ∧
    (∀ (f : Fn) (x : DescS) (im : CkptImage), ready f x opCkptLoad → ckptAreaLen ≤ x.bufLen → s.claim.st = .standby → s.claim.loading = none →
      headerFault s ((x.byte 20).testBit 0) im.header = none →
        ∃ t, exec (.ckptLoad f (.ok im)) s = .next t ∧ t.claim.loading = some ⟨f.val, 2, x.index, x.tag, im⟩ ∧
          t.tables = s.tables ∧ (getRing t f.val 2).descs = [{ x with phase := .engine }] ∧
          Waits t fun j => j = loadJob f.val x ckptAreaLen) ∧
    (∀ (f : Fn) (x : DescS) (timeout : Bool) (i : Nat), ready f x opCkptLoad → ckptAreaLen ≤ x.bufLen → s.claim.st = .standby →
      f.val < s.fns.length → recordFor s f.val (loadJob f.val x 64) = some i → i < (getFn s f.val).faults.length →
        ∃ t, exec (.ckptLoad f (.fault timeout)) s = .next t ∧ t.claim = s.claim ∧ t.tables = s.tables ∧
          getFault t f.val i = some ⟨{ loadJob f.val x 64 with slot := some i }, false, if timeout then 4 else 3, none⟩ ∧
          Counted s t (fb f.val) Ct.XLATE_FAULT 1 ∧ Raised t (217 + 4 * f.val)) ∧
    (∀ l : CkptLoad, s.claim.loading = some l → (parkedJobs s l.fn).any l.reads = true →
      ∃ t, exec .ckptLoaded s = .next t ∧ t.claim = s.claim ∧ t.tables = s.tables) ∧
    (∀ l : CkptLoad, s.claim.loading = some l → (parkedJobs s l.fn).any l.reads = false →
      atWork s l.fn (fun j => l.reads j && j.poisoned) = true →
        ∃ t, exec .ckptLoaded s = .next t ∧ t.claim.loading = none ∧ t.tables = s.tables ∧ Counted s t 0 Ct.CLAIM_CKPT_REJECT 1 ∧
          Raised t 202) ∧
    (∀ l : CkptLoad, s.claim.loading = some l → clear l →
      ∃ t, exec .ckptLoaded s = .next t ∧ t.claim.loading = none ∧ t.claim.ckptLoaded = true ∧
        t.claim.lastHeader = some l.image.header ∧ rd t Reg.CLAIM_CKPT_IN_SEQ = l.image.header.seq ∧ Raised t 201) ∧
    (∀ l : CkptLoad, s.claim.loading = some l → clear l → l.image.header.full = true → l.image.dir = [] → l.image.nbrs = [] →
      ∃ t, exec .ckptLoaded s = .next t ∧ t.tables.dir = [] ∧ t.tables.nbrs = [] ∧ Counted s t 0 Ct.CLAIM_CKPT_IN 1)

/-- R387, R396 to R398: FW_STAGE_OPEN, FW_STAGE_CHUNK, FW_STAGE_CLOSE_COMMIT, FW_STAGE_CLOSE_ABANDON, FW_LEASE_EXPIRY and FW_BREAK. -/
def Obligations.FirmwareStaging : Prop :=
  ∀ s : State, Runs s →
    let ready (f : Fn) (x : DescS) (op : Nat) : Prop :=
      (getRing s f.val 2).descs = [x] ∧ x.phase = .ready ∧ x.op = op ∧ x.ring = 2 ∧ s.claim.st ≠ .diag
    let until120 : Nat := monoNs s + 120000000000
    let doneWith (t : State) (f : Fn) (x : DescS) (st aux : Nat) : Prop := (getRing t f.val 2).descs = [] ∧
      (getFn t f.val).out = (getFn s f.val).out ++ (if x.quietOk = true ∧ st = stOk then [] else
        [(6, ⟨x.tag, st, x.op, false, 0, noNode, nowNs s, BitVec.ofNat 64 aux⟩)])
    (∀ (f : Fn) (x : DescS), ready f x opFwOpen → s.fw.lease = none → s.fw.mode ≠ 1 → 1025 ≤ x.num 20 4 → x.num 20 4 ≤ 8388608 →
      ∃ t, exec (.fwStageOpen f true) s = .next t ∧ t.fw.lease = some ⟨f.val, x.num 20 4, 0, until120⟩ ∧ doneWith t f x stOk 0 ∧
        t.flash.boot.slot (targetSlot s) = .incomplete ∧ t.flash.image (targetSlot s) = [] ∧
        t.flash.boot.slot (!targetSlot s) = s.flash.boot.slot (!targetSlot s) ∧ Raised t 208) ∧
    (∀ (f : Fn) (x : DescS) (l : Lease) (ok : Bool), ready f x opFwOpen → s.fw.lease = some l → l.holder ≠ f.val →
      ∃ t, exec (.fwStageOpen f ok) s = .next t ∧ doneWith t f x stBusy l.holder ∧ t.fw = s.fw ∧ t.flash = s.flash ∧
        Counted s t 0 Ct.FW_STAGE_BUSY 1 ∧ Raised t 208) ∧
    (∀ (f : Fn) (x : DescS) (l : Lease), ready f x opFwChunk → s.fw.lease = some l → l.holder = f.val → x.poisoned = false →
      x.num 20 4 = l.staged → l.staged + x.payload.length ≤ l.len →
        ∃ t, exec (.fwStageChunk f true) s = .next t ∧ doneWith t f x stOk 0 ∧
          t.fw.lease = some ⟨f.val, l.len, l.staged + x.payload.length, until120⟩ ∧
          t.flash.image (targetSlot s) = s.flash.image (targetSlot s) ++ x.payload ∧ t.flash.boot = s.flash.boot) ∧
    (∀ (f : Fn) (x : DescS) (l : Lease) (ok : Bool), ready f x opFwChunk → s.fw.lease = some l → l.holder = f.val →
      x.poisoned = false → x.num 20 4 ≠ l.staged → l.staged < x.num 20 4 + x.payload.length →
        ∃ t, exec (.fwStageChunk f ok) s = .next t ∧ doneWith t f x stBadDesc 0 ∧ t.flash = s.flash ∧
          t.fw.lease = some { l with untilMono := until120 }) ∧
    (∀ (f : Fn) (x : DescS) (l : Lease), ready f x opFwClose → x.byte 20 = 0 → s.fw.lease = some l → l.holder = f.val → l.staged = l.len →
      ∃ t, exec (.fwStageCloseCommit f) s = .next t ∧ doneWith t f x stOk 0 ∧ t.fw.lease = none ∧
        t.flash.boot.slot (targetSlot s) = .staged ∧ t.flash.boot.seq = s.flash.boot.seq + 1 ∧
        t.flash.imageA = s.flash.imageA ∧ t.flash.imageB = s.flash.imageB ∧ Raised t 209) ∧
    (∀ (f : Fn) (x : DescS) (l : Lease), ready f x opFwClose → x.byte 20 = 0 → s.fw.lease = some l → l.holder = f.val → l.staged ≠ l.len →
      ∃ t, exec (.fwStageCloseCommit f) s = .next t ∧ doneWith t f x stBadDesc 0 ∧ t.flash = s.flash ∧
        t.fw.lease = some { l with untilMono := until120 }) ∧
    (∀ (f : Fn) (x : DescS) (l : Lease), ready f x opFwClose → x.byte 20 = 1 → s.fw.lease = some l → l.holder = f.val →
      ∃ t, exec (.fwStageCloseAbandon f) s = .next t ∧ doneWith t f x stOk 0 ∧ t.fw.lease = none ∧ t.flash = s.flash ∧ Raised t 209) ∧
    (∀ l : Lease, s.fw.lease = some l → stagingNow s l.holder = false →
      ∃ t, exec .fwLeaseExpiry s = .next t ∧ t.fw = { s.fw with lease := none } ∧ t.flash = s.flash ∧
        Counted s t 0 Ct.FW_LEASE_END 1 ∧ Raised t 210) ∧
    (∀ (f : Fn) (l : Lease), Accepts s f.val Reg.FW_CTRL 4 = true → f.val = hmFn s → s.fw.lease = some l →
      ∃ t, exec (.fwBreak f) s = .next t ∧ t.fw = { s.fw with lease := none } ∧ Counted s t 0 Ct.FW_LEASE_END 1 ∧ Raised t 210) ∧
    (∀ f : Fn, Accepts s f.val Reg.FW_CTRL 4 = true → f.val ≠ hmFn s →
      ∃ t, exec (.fwBreak f) s = .next t ∧ Rejected t Reg.FW_STATUS ∧ t.fw = s.fw)

/-- R389, R392, R394, R398: FW_VOUCH, FW_REJECT, TRIAL_CONFIRM_CHECK, TRIAL_WINDOW_EXPIRY, TRIAL_RESET, FW_SIGNER_FUSE, FW_SIGNER_REVOKE,
FW_SET_WRITE and FALLBACK_CLEAR. -/
def Obligations.TrialSignersAndSettings : Prop :=
  ∀ s : State, Works s →
    let go (op : Nat) (v : Word) : Word := setBitAt 31 (putBits 9 8 v op) true
    let fell (t : State) : Prop := t.flash.boot.seq = s.flash.boot.seq + 1 ∧ t.flash.boot.lastFallback = 7 ∧
      t.flash.boot.fallbacks = min 0xFFFFFFFF (s.flash.boot.fallbacks + 1) ∧ t.flash.boot.slot s.fw.slotB = .rejected
    (∀ f : Fn, Accepts s f.val Reg.FW_CTRL 1 = true → f.val = hmFn s →
      ∃ t, exec (.fwVouch f) s = .next t ∧ t.fw = { s.fw with vouched := true }) ∧
    (∀ f : Fn, Accepts s f.val Reg.FW_CTRL 2 = true → s.fw.mode = 1 → s.fw.resetMono = none →
      ∃ t, exec (.fwReject f) s = .next t ∧ fell t ∧ t.fw = { s.fw with trialMono := none, resetMono := some (monoNs s + 10000000, 5) } ∧
        Raised t 213) ∧
    (s.start.phase ≠ .halted → mayConfirm s = true →
      ∃ t, exec .trialConfirmCheck s = .next t ∧ t.fw = { s.fw with mode := 0, trialMono := none } ∧
        (∀ b : Bool, (s.flash.boot.slot b = .trial → t.flash.boot.slot b = .confirmed) ∧
          (s.flash.boot.slot b = .confirmed → t.flash.boot.slot b = .previous)) ∧
        t.otp.secver = max s.otp.secver s.fw.secVersion ∧ Raised t 212) ∧
    (s.start.phase ≠ .halted → mayConfirm s = false →
      ∃ t, exec .trialConfirmCheck s = .next t ∧ t.fw = s.fw ∧ t.flash = s.flash ∧ t.otp = s.otp) ∧
    (∀ m : Nat, s.fw.trialMono = some m →
      ∃ t, exec .trialWindowExpiry s = .next t ∧ t.fw = { s.fw with trialMono := none, resetMono := some (monoNs t + 10000000, 4) } ∧
        t.flash = s.flash ∧ Raised t 213) ∧
    (∀ m cause : Nat, s.fw.resetMono = some (m, cause) →
      ∃ t, exec .trialReset s = .next t ∧ t.start.phase = .fuses ∧ t.start.cause = cause ∧ t.fw = FwS.reset ∧ t.flash = s.flash ∧
        t.otp.signers = s.otp.signers) ∧
    (∀ (f : Fn) (v : Word) (ok : Bool) (h : BitVec 256) (x : Signer), Accepts s f.val Reg.FW_SIGNER_CTRL (go 1 v) = true → f.val = hmFn s →
      stagedHash s f.val = some h → s.otp.signers[bitsOf 1 0 v]? = some x → x.fused = false →
        ∃ t, exec (.fwSignerFuse f v ok) s = .next t ∧ getSigner t (bitsOf 1 0 v) = ⟨true, h, x.revoked, !ok⟩ ∧
          t.fw = { s.fw with signStaging := List.replicate 8 none } ∧
          (ok = false → fget t 0 Fl.FW_STATUS_SIGN_FAIL = 1) ∧ Raised t 214) ∧
    (∀ (f : Fn) (v : Word) (ok : Bool), Accepts s f.val Reg.FW_SIGNER_CTRL (go 1 v) = true →
      (f.val ≠ hmFn s ∨ stagedHash s f.val = none ∨ (getSigner s (bitsOf 1 0 v)).fused = true) →
        ∃ t, exec (.fwSignerFuse f v ok) s = .next t ∧ Rejected t Reg.FW_STATUS ∧ t.otp = s.otp ∧
          t.fw = { s.fw with signStaging := List.replicate 8 none }) ∧
    (∀ (f : Fn) (v : Word) (x : Signer), Accepts s f.val Reg.FW_SIGNER_CTRL (go 2 v) = true → f.val = hmFn s →
      s.otp.signers[bitsOf 1 0 v]? = some x →
      ((s.otp.signers.set (bitsOf 1 0 v) { x with revoked := true }).any Signer.accepts) = true →
        ∃ t, exec (.fwSignerRevoke f v) s = .next t ∧
          t.otp = { s.otp with signers := s.otp.signers.set (bitsOf 1 0 v) { x with revoked := true } } ∧ Raised t 214) ∧
    (∀ (f : Fn) (v : Word), Accepts s f.val Reg.FW_SIGNER_CTRL (go 2 v) = true → f.val = hmFn s →
      (∀ i : Fin 4, (i.val = bitsOf 1 0 v ∨ (getSigner s i.val).accepts = false)) → s.otp.signers.length = 4 →
        ∃ t, exec (.fwSignerRevoke f v) s = .next t ∧ Rejected t Reg.FW_STATUS ∧ t.otp = s.otp) ∧
    (∀ (f : Fn) (v : Word) (x : Store), Accepts s f.val Reg.FW_SET_VAL v = true → itemOk (fget s 0 Fl.FW_SET_SEL_ITEM) v = true →
      s.flash.stores[s.fw.store]? = some x → x.journal.length < journalRoom →
        ∃ t, exec (.fwSetWrite f v) s = .next t ∧
          t.flash.stores[s.fw.store]? = some { x with journal := x.journal ++ [(fget s 0 Fl.FW_SET_SEL_ITEM, v)] } ∧
          t.flash.boot = s.flash.boot ∧ t.fw = s.fw) ∧
    (∀ (f : Fn) (v : Word), Accepts s f.val Reg.FW_SET_VAL v = true → itemOk (fget s 0 Fl.FW_SET_SEL_ITEM) v = false →
      ∃ t, exec (.fwSetWrite f v) s = .next t ∧ Rejected t Reg.FW_STATUS ∧ t.flash = s.flash ∧ t.fw = s.fw) ∧
    (∀ f : Fn, Accepts s f.val Reg.FW_CNT_SAT 4 = true →
      ∃ t, exec (.fallbackClear f) s = .next t ∧ t.flash.boot = { s.flash.boot with fallbacks := 0, seq := s.flash.boot.seq + 1 } ∧
        bitAt 2 (rd t Reg.FW_CNT_SAT) = false)

/-- R293, R400 to R403, R416, R417, R419: POWER_ON_RESET, POR_N_ASSERT, BROWN_OUT, BROWN_OUT_END, TEST_RESET, TAP_INSTRUCTION, TAP_RESET,
FLR, PORT_RESET_ASSERT and PORT_RESET_RELEASE. -/
def Obligations.Resets : Prop :=
  ∀ s : State,
    let fresh (t : State) (cause : Nat) : Prop := t.start.phase = .fuses ∧ t.start.cause = cause ∧ t.keys = KeysS.reset ∧
      t.regs = (s.regs.filter fun p => 0x7400 ≤ p.1 && p.1 < 0x7800) ∧ t.plinth.root = s.plinth.root ∧ t.flash = s.flash ∧
      t.pending = s.pending
    (∀ (x : Straps) (b33 : Bool),
      ∃ t, exec (.powerOnReset x b33) s = .next t ∧ fresh t 0 ∧ t.start.straps = x ∧ t.start.bankB33 = b33 ∧ t.start.resets = 0 ∧
        t.start.porLow = false ∧ t.start.held = (s.start.brownOut || s.start.tap.holds)) ∧
    (∃ t, exec .porNAssert s = .next t ∧ fresh t 0 ∧ t.start.held = true ∧ t.pins.resetOutN = .low) ∧
    (∃ t, exec .brownOut s = .next t ∧ fresh t 1 ∧ t.start.held = true ∧ t.pins.resetOutN = .low) ∧
    (∀ (x : Straps) (b33 : Bool), s.start.brownOut = true →
      ∃ t, exec (.brownOutEnd x b33) s = .next t ∧ fresh t 1 ∧ t.start.straps = x ∧ t.start.brownOut = false ∧
        t.start.held = (s.start.porLow || s.start.tap.holds)) ∧
    (∀ (f : Fn) (v : Word), Works s → Accepts s f.val Reg.TEST_RESET v = true → testResetOk s f.val v = true →
      ∃ t, exec (.testReset f v) s = .next t ∧ fresh t 2 ∧ t.start.resets = min 65535 (s.start.resets + 1) ∧
        t.start.straps = s.start.straps) ∧
    (∀ (f : Fn) (v : Word), Works s → Accepts s f.val Reg.TEST_RESET v = true → testResetOk s f.val v = false →
      ∃ t, exec (.testReset f v) s = .next t ∧ Rejected t Reg.TEST_STATUS ∧ t.start.phase = s.start.phase ∧ t.keys = s.keys) ∧
    (∀ i : TapInstr, s.start.held = false → i.holds = true →
      ∃ t, exec (.tapInstruction i) s = .next t ∧ fresh t 6 ∧ t.start.held = true ∧ t.start.tap = i) ∧
    (∀ i : TapInstr, s.start.porLow = false → s.start.brownOut = false → i.holds = false →
      ∃ t, exec (.tapInstruction i) s = .next t ∧ t.start.held = false ∧ t.start.tap = i ∧ t.keys = s.keys) ∧
    (s.start.porLow = false → s.start.brownOut = false →
      ∃ t, exec .tapReset s = .next t ∧ t.start.held = false ∧ t.start.tap = .idcode ∧ t.keys = s.keys) ∧
    (∀ f : Fn, Works s → s.start.functionsReady = true → (getPort s (portOf f.val)).linkUp = true →
      f.val < s.fns.length →
        ∃ t, exec (.flr f) s = .next t ∧ (getFn t f.val).rings = FnS.reset.rings ∧ (getFn t f.val).tokenSeq = (getFn s f.val).tokenSeq ∧
          (hasWork s f.val = true → (getFn t f.val).loss = some 0xFFFFFFFF) ∧ (∀ r : Fin 8, ringEn t f.val r.val = false) ∧
          (t.jobs.any fun j => j.fn = f.val) = false ∧ (t.svc.txns.any fun x => x.fn = f.val) = false ∧ Raised t (219 + 4 * f.val)) ∧
    (∀ (p : Fin 2) (q : PortS), Works s → s.ports[p.val]? = some q → q.perstHigh = true →
      ∃ t, exec (.portResetAssert p) s = .next t ∧ t.ports[p.val]?.map (fun x => (x.linkUp, x.perstHigh)) = some (false, false) ∧
        Raised t 253) ∧
    (∀ (p : Fin 2) (q : PortS), Works s → s.ports[p.val]? = some q → q.perstHigh = false →
      ∃ t, exec (.portResetRelease p) s = .next t ∧ t.ports[p.val]?.map (fun x => (x.perstHigh, x.atc)) = some (true, []) ∧ Raised t 253)

/-- R347, R391, R405 to R407: FILL_DONE, SELFTEST_DONE, FUNCTIONS_READY, FW_BOOTED and SERVICE_READY. -/
def Obligations.StartUpPhases : Prop :=
  ∀ s : State, Works s →
    let boots : Prop := s.start.phase = .maquette ∧ s.fw.booted = false ∧ s.keys.drbgReady = true ∧ s.keys.drbgBlocked = false
    let noTrial : Prop := s.flash.boot.findSlot .trial = none ∧ s.flash.boot.store0 ≠ .trial ∧ s.flash.boot.store1 ≠ .trial
    let noneGood : Prop := s.flash.boot.findSlot .confirmed = none ∧ s.flash.boot.findSlot .previous = none
    let alone (t : State) : Prop := t.fw.mode = 2 ∧ t.fw.booted = true ∧ t.start.phase = .maquette ∧ Raised t 211
    (s.start.phase = .fuses ∨ s.start.phase = .fill → ∃ t, exec .fillDone s = .next t ∧ t.start.phase = .selftest) ∧
    (s.start.phase = .selftest →
      ∃ t, exec (.selftestDone 0xFFFF 0xF) s = .next t ∧ t.start.phase = .maquette ∧ t.start.selftestOk = true ∧
        t.flash.boot = { bootTaken s.flash.copies with
          incarnation := (bootTaken s.flash.copies).incarnation + 1, seq := (bootTaken s.flash.copies).seq + 1 } ∧
        t.fabric.pilots = List.replicate 4 1 ∧ t.keys.drbgReady = true) ∧
    (∀ (b : BitVec 16) (p : BitVec 4), s.start.phase = .selftest → (b ≠ 0xFFFF ∨ p ≠ 0xF) →
      ∃ t, exec (.selftestDone b p) s = .next t ∧ t.start.phase = .halted ∧ bitAt 3 t.mgmt.alert = true ∧ t.flash = s.flash ∧
        Raised t 248) ∧
    (pastSelftest s = true → s.start.functionsReady = false →
      ∃ t, exec .functionsReady s = .next t ∧ t.start.functionsReady = true ∧ rd t Reg.BRINGUP_T_READY = sinceReset s) ∧
    (boots → s.start.straps.boot = 1 → ∃ t, exec .fwBooted s = .next t ∧ alone t ∧ t.flash.boot = s.flash.boot) ∧
    (boots → s.start.straps.boot ≠ 1 → noTrial → noneGood → s.flash.boot.findSlot .staged = none →
      ∃ t, exec .fwBooted s = .next t ∧ alone t ∧ t.flash.boot = s.flash.boot) ∧
    (∀ b : Bool, boots → s.start.straps.boot ≠ 1 → s.start.straps.boot ≠ 2 → noTrial → noneGood →
      s.flash.boot.findSlot .staged = some b → headerOk s (s.flash.image b) = false →
        ∃ t, exec .fwBooted s = .next t ∧ alone t ∧ t.flash.boot.slot b = .rejected ∧ t.flash.boot.lastFallback = 1 ∧
          t.flash.boot.fallbacks = min 0xFFFFFFFF (s.flash.boot.fallbacks + 1)) ∧
    (s.start.phase = .init → s.keys.drbgBlocked = false → calibrating s = false →
      ∃ t, exec .serviceReady s = .next t ∧ t.start.phase = .service ∧ bitAt 3 t.mgmt.alert = true ∧
        rd t Reg.BRINGUP_T_SERVICE = sinceReset s ∧ Raised t 252) ∧
    (s.start.phase = .maquette → s.fw.booted = true → s.keys.drbgBlocked = false →
      ∃ t, exec .serviceReady s = .next t ∧ t.start.phase = .recovery ∧ bitAt 3 t.mgmt.alert = true ∧ Raised t 252)

/-- R408, R409, R411 to R415, R430, R431: DOCK_ENTER, DOCK_LEAVE, DOCK_TEST_DONE, KAT_ROTATION, KAT_PASS_OVER, KAT_DONE, TEST_FENCE,
BRINGUP_PORT_READ, BRINGUP_STALL_EXPIRY, I2C_WRITE, I2C_READ and MGMT_REFRESH. -/
def Obligations.InServiceTest : Prop :=
  ∀ s : State, Works s →
    let noneOnAir : Prop := ∀ n : Fin 6, (getBerth s n.val).onAir = none
    let dock (enter : Bool) (v : Word) : Word := setBitAt 31 (setBitAt 8 (setBitAt 9 v (!enter)) enter) true
    let fenced (t : State) (u : Nat) : Prop := rd t Reg.FABRIC_FENCED = setBitAt u (rd s Reg.FABRIC_FENCED) true ∧ Raised t 177
    (∀ (f : Fn) (v : Word), Accepts s f.val Reg.TEST_DOCK (dock true v) = true → dockOk s (bitsOf 2 0 v) = true →
      ∃ t, exec (.dockEnter f v) s = .next t ∧ t.start.dock = some ⟨bitsOf 2 0 v, true, 2⟩ ∧ t.start.docked = s.start.docked) ∧
    (∀ (f : Fn) (v : Word), Accepts s f.val Reg.TEST_DOCK (dock true v) = true → dockOk s (bitsOf 2 0 v) = false →
      ∃ t, exec (.dockEnter f v) s = .next t ∧ t.start.dock = s.start.dock ∧ Rejected t Reg.TEST_STATUS) ∧
    (∀ (f : Fn) (v : Word), Accepts s f.val Reg.TEST_DOCK (dock false v) = true → s.start.docked = some (bitsOf 2 0 v) →
      ∃ t, exec (.dockLeave f v) s = .next t ∧ t.start.dock = some ⟨bitsOf 2 0 v, false, 2⟩) ∧
    (∀ (f : Fn) (v : Word), Accepts s f.val Reg.TEST_DOCK (dock false v) = true → s.start.docked ≠ some (bitsOf 2 0 v) →
      ∃ t, exec (.dockLeave f v) s = .next t ∧ t.start.dock = s.start.dock ∧ Rejected t Reg.TEST_STATUS) ∧
    (∀ (r : DockResult) (n : Nat), s.start.docked = some n → n < 6 → s.start.dockTesting = true →
      ∃ t, exec (.dockTestDone r) s = .next t ∧ t.start.dockTesting = false ∧ t.start.docked = some n ∧ Counted s t 0 Ct.TEST_DOCK 1 ∧
        fget t 0 Fl.TEST_DOCK_RESULT_RESULT = (if (r.fails n).isSome = true then 3 else 2) ∧
        fget t 0 Fl.TEST_DOCK_RESULT_FAIL_STEP = (r.fails n).getD 0 ∧
        fget t 0 Fl.TEST_DOCK_RESULT_FRAMES = r.frames.toNat ∧ Raised t 250) ∧
    (s.start.phase ≠ .halted → fbit s 0 Fl.TEST_KAT_CFG_EN = true → s.start.katUnit = none → 12 ≤ s.start.katNext →
      s.start.katNext ≤ 30 → unitFenced s s.start.katNext = false →
        ∃ t, exec .katRotation s = .next t ∧ t.start.katUnit = some s.start.katNext ∧
          t.start.katNext = if s.start.katNext = 30 then 12 else s.start.katNext + 1) ∧
    (∀ u : Nat, s.start.phase ≠ .halted → s.start.katUnit = some u → engineIdle s u = false →
      ∃ t, exec .katPassOver s = .next t ∧ t.start.katUnit = none ∧ rd t Reg.FABRIC_FENCED = rd s Reg.FABRIC_FENCED) ∧
    (∀ u : Nat, s.start.phase ≠ .halted → s.start.katUnit = some u → engineIdle s u = true →
      ∃ t, exec (.katDone true) s = .next t ∧ t.start.katUnit = none ∧ Counted s t 0 Ct.TEST_KAT 1 ∧
        rd t Reg.TEST_KAT_LAST = BitVec.ofNat 32 (u + 256)) ∧
    (∀ u : Nat, s.start.phase ≠ .halted → s.start.katUnit = some u → u < 31 → engineIdle s u = true → unitFenced s u = false →
      breaksFloor s u = false → noneOnAir →
        ∃ t, exec (.katDone false) s = .next t ∧ t.start.katUnit = none ∧ Counted s t 0 Ct.TEST_KAT_FAIL 1 ∧ fenced t u ∧ Raised t 249) ∧
    (∀ (f : Fn) (v : Word), Accepts s f.val Reg.TEST_FENCE v = true → bitAt 31 v = true → testFenceOk s f.val v = true → noneOnAir →
      ∃ t, exec (.testFence f v) s = .next t ∧ fenced t (bitsOf 4 0 v) ∧ Raised t 254) ∧
    (∀ (f : Fn) (v : Word), Accepts s f.val Reg.TEST_FENCE v = true → testFenceOk s f.val v = false →
      ∃ t, exec (.testFence f v) s = .next t ∧ rd t Reg.FABRIC_FENCED = rd s Reg.FABRIC_FENCED ∧ Rejected t Reg.TEST_STATUS) ∧
    (∀ (f : Fn) (p : Fin 4) (x : PortTap) (w : TapWord) (rest : List TapWord),
      Readable s f.val (Reg.BRINGUP_PORT_DATA + 0x10 * p.val) = true → s.start.ports[p.val]? = some x → x.fifo = w :: rest →
        ∃ t, exec (.bringupPortRead f p) s = .next t ∧ PutOut s t (.readData f.val (Reg.BRINGUP_PORT_DATA + 0x10 * p.val) w.value)) ∧
    (∀ (f : Fn) (p : Fin 4) (x : PortTap), Readable s f.val (Reg.BRINGUP_PORT_DATA + 0x10 * p.val) = true →
      s.start.ports[p.val]? = some x → x.fifo = [] → stalling s = true → (∀ q : Fin 4, fbit s (0x10 * q.val) Fl.BRINGUP_PORT_CFG_TAP_EN = false) →
        ∃ t, exec (.bringupPortRead f p) s = .next t ∧ t.outs = s.outs ∧ (getTap t p.val).stalled =
          x.stalled ++ [(f.val, monoNs s + 1000 * fget s 0 Fl.BRINGUP_STALL_LIMIT_US)]) ∧
    (∀ (p : Fin 4) (x : PortTap) (f m : Nat) (rest : List (Nat × Nat)), s.start.ports[p.val]? = some x → x.fifo = [] →
      x.stalled = (f, m) :: rest →
        ∃ t, exec (.bringupStallExpiry p) s = .next t ∧ PutOut s t (.readData f (Reg.BRINGUP_PORT_DATA + 0x10 * p.val) x.last)) ∧
    (∀ w : Word, mgmtOn s = true →
      ∃ t, exec (.i2cWrite 4 (leBytes 4 w.toNat)) s = .next t ∧
        t.mgmt = { s.mgmt with pointer := 5, alert := s.mgmt.alert &&& ~~~w }) ∧
    (∀ w : Word, mgmtOn s = true →
      ∃ t, exec (.i2cWrite 5 (leBytes 4 w.toNat)) s = .next t ∧ t.mgmt = { s.mgmt with pointer := 6, limit := w &&& 0xFFFF }) ∧
    (∀ (p : Byte) (n : Nat), mgmtOn s = true →
      ∃ t, exec (.i2cRead p n) s = .next t ∧ PutOut s t (.i2c (mgmtOctets s.mgmt p n)) ∧
        t.mgmt = { s.mgmt with pointer := p + BitVec.ofNat 8 (n / 4) }) ∧
    (∀ temp : Int,
      ∃ t, exec (.mgmtRefresh temp) s = .next t ∧ t.mgmt.vreq = mgmtVreq s ∧ t.mgmt.state = mgmtState s ∧ t.mgmt.temp = temp ∧
        (s.mgmt.hotArmed = true → signedOf 16 s.mgmt.limit.toNat < temp → bitAt 4 t.mgmt.alert = true))

/-- R37 to R39, R41, R42, R54, R460: REGISTER_WRITE, POSTED_WRITE_ACK, CNT_SAT_CLEAR, GEVT_INJECT and READ_BUS_ERROR. -/
def Obligations.RegisterAccesses : Prop :=
  ∀ s : State, Works s →
    let onlyAt (t : State) (k : Nat) : Prop := ∀ j : Nat, ownKey j = true → j ≠ k → rd t j = rd s j
    (∀ (f : Fn) (off : Nat) (v : Word) (shape : Shape) (c : BusCause), hostReady s f.val = true → reach s f.val off shape = .err c →
      ∃ t, exec (.registerWrite f off v shape) s = .next t ∧ bitAt 1 (rd t (keyOf f.val Reg.IDENT_BUS_ERR)) = true ∧
        bitAt c.bit (rd t (keyOf f.val Reg.IDENT_BUS_ERR)) = true ∧ onlyAt t (keyOf f.val Reg.IDENT_BUS_ERR) ∧ t.posted = s.posted ∧
        t.pend = s.pend) ∧
    (∀ (f : Fn) (off : Nat) (v : Word) (b : Block) (r : RegRow) (i : Nat), hostReady s f.val = true →
      reach s f.val off .word = .reg b r i → blockLive s b = true → isStatus b r = false → blockBusy s b = false → checksOk r v = false →
        ∃ t, exec (.registerWrite f off v .word) s = .next t ∧ Rejected t (statusKey f.val b) ∧ onlyAt t (statusKey f.val b) ∧
          t.posted = s.posted ∧ t.pend = s.pend) ∧
    (∀ (f : Fn) (off : Nat) (v : Word) (b : Block) (r : RegRow) (i : Nat), hostReady s f.val = true →
      reach s f.val off .word = .reg b r i → blockLive s b = true → isStatus b r = false → blockBusy s b = true →
        ∃ t, exec (.registerWrite f off v .word) s = .next t ∧ bitAt 3 (rd t (statusKey f.val b)) = true ∧
          onlyAt t (statusKey f.val b) ∧ t.posted = s.posted ∧ t.pend = s.pend) ∧
    (∀ (f : Fn) (v : Word), Accepts s f.val Reg.CLAIM_CFG v = true →
      ∃ t, exec (.registerWrite f Reg.CLAIM_CFG v .word) s = .next t ∧ t.posted = s.posted ++ [⟨.claim, f, Reg.CLAIM_CFG, v⟩] ∧
        (∀ j : Nat, ownKey j = true → rd t j = rd s j) ∧ blockBusy t .claim = true) ∧
    (∀ (f : Fn) (v : Word), s.posted = [⟨.claim, f, Reg.CLAIM_CFG, v⟩] →
      ∃ t, exec (.postedWriteAck .claim) s = .next t ∧ t.posted = [] ∧ onlyAt t Reg.CLAIM_CFG ∧
        rd t Reg.CLAIM_CFG = (rd s Reg.CLAIM_CFG &&& ~~~0x7F013FFF#32) ||| (v &&& 0x7F013FFF)) ∧
    (∀ (f : Fn) (off : Nat) (v : Word) (r : RegRow) (i : Nat), Accepts s f.val off v = true →
      reach s f.val off .word = .reg .camp r i → off ≠ Reg.CAMP_CNT_SAT →
        ∃ t, exec (.registerWrite f off v .word) s = .next t ∧ rd t off = mixWord r (rd s off) v ∧ onlyAt t off) ∧
    (∀ (f : Fn) (v : Word) (i : Fin 10), Accepts s f.val Reg.KEY_CNT_SAT v = true → bitAt i.val v = true →
        ∃ t, exec (.cntSatClear f Reg.KEY_CNT_SAT v) s = .next t ∧ bitAt i.val (rd t Reg.KEY_CNT_SAT) = false ∧
          rd t (Reg.KEY_DERIVE_CNT + 4 * i.val) = 0) ∧
    (∀ (f : Fn) (v : Word), Accepts s f.val Reg.GEVT_INJECT v = true → bitAt 31 v = true →
      ∃ t, exec (.gevtInject f v) s = .next t ∧ Raised t (bitsOf 7 0 v)) ∧
    (∀ (f : Fn) (off : Nat) (shape : Shape) (m : HoldRead) (c : BusCause), hostReady s f.val = true → reach s f.val off shape = .err c →
      ∃ t, exec (.readBusError f off shape m) s = .next t ∧ PutOut s t (.completerAbort f.val off) ∧
        bitAt 0 (rd t (keyOf f.val Reg.IDENT_BUS_ERR)) = true ∧ bitAt c.bit (rd t (keyOf f.val Reg.IDENT_BUS_ERR)) = true) ∧
    (∀ (f : Fn) (off : Nat) (r : RegRow) (i : Nat) (b : Block), hostReady s f.val = true → reach s f.val off .word = .reg b r i →
      b ≠ .time → b ≠ .mac → b ≠ .bringup → b ≠ .tbl →
        ∃ t, exec (.readBusError f off .word .clean) s = .next t ∧ PutOut s t (.readData f.val off (regShown s f.val b r off)))

/-- R278, R356, R404: the state after reset is at rest. -/
def Obligations.AtRestAfterReset : Prop := AtRest State.reset

/-- R127, R278, R356, R364, R404, R432: what follows of itself from a state has happened after every step. -/
def Obligations.AtRestKept : Prop :=
  ∀ s t : State, AtRest s → step s = .next t → AtRest t

/-- R400, R403, R417: the device held in reset. -/
def Obligations.HeldDeviceWaits : Prop :=
  ∀ (c : Instr) (s : State), s.start.held = true →
    (s.pending = [] → step s = .next s) ∧
    ((match c with
      | .powerOnReset _ _ | .porNAssert | .brownOut | .brownOutEnd _ _ | .tapReset | .tapInstruction _ | .vbatApplied | .vbatLoss
      | .tamperTrip _ _ | .bollardBusChange _ | .portResetAssert _ | .portResetRelease _ => true
      | _ => false) = false → exec c s = .next s)

/-- R377: FAILOVER_SEEN. -/
def Obligations.FailoverOnlyInforms : Prop :=
  ∀ s : State,
    (Works s → s.claim.failoverOut = false →
      ∃ t, exec .failoverSeen s = .next t ∧ Raised t 197 ∧ t.claim = { s.claim with failoverIn := true } ∧
        (∀ k : Nat, ownKey k = true → rd t k = rd s k) ∧ t.time = s.time ∧ t.berths = s.berths) ∧
    (Works s → s.claim.failoverOut = true →
      ∃ t, exec .failoverSeen s = .next t ∧ t.claim = s.claim ∧ (Raised t 197 ↔ Raised s 197) ∧
        (∀ k : Nat, ownKey k = true → rd t k = rd s k))

/-- R404: RESET_OUT_N. -/
def Obligations.ResetOutLevel : Prop :=
  ∀ s : State,
    let low (c : Instr) : Prop := ∃ t, exec c s = .next t ∧ t.start.phase = .fuses ∧ t.pins.resetOutN = .low
    let kept (c : Instr) : Prop := ∃ t, exec c s = .next t ∧ t.pins.resetOutN = s.pins.resetOutN
    low .porNAssert ∧ low .brownOut ∧
    (∀ (x : Straps) (b33 : Bool), low (.powerOnReset x b33)) ∧
    (∀ (x : Straps) (b33 : Bool), s.start.brownOut = true → low (.brownOutEnd x b33)) ∧
    (∀ (f : Fn) (v : Word), Works s → Accepts s f.val Reg.TEST_RESET v = true → testResetOk s f.val v = true → low (.testReset f v)) ∧
    (∀ i : TapInstr, s.start.held = false → i.holds = true → low (.tapInstruction i)) ∧
    (∀ (p : Nat × Nat), Works s → s.fw.resetMono = some p → low .trialReset) ∧
    (∀ m : Nat, Works s → s.plinth.scuttleMono = some m → low .scuttleReset) ∧
    (∀ (c : Instr) (t : State), AtRest s → exec c s = .next t →
      t.start.phase = .fuses ∨ t.start.phase = .fill ∨ t.start.phase = .selftest ∨ t.start.phase = .halted → t.pins.resetOutN = .low) ∧
    (Works s → s.start.phase = .selftest →
      ∃ t, exec (.selftestDone 0xFFFF 0xF) s = .next t ∧ t.pins.resetOutN = .high) ∧
    (∀ (b : BitVec 16) (p : BitVec 4), Works s → s.start.phase = .selftest → (b ≠ 0xFFFF ∨ p ≠ 0xF) →
      ∃ t, exec (.selftestDone b p) s = .next t ∧ t.pins.resetOutN = .low) ∧
    (Works s → heldNow s.start = false → AtRest s → kept .tapReset ∧ (∀ p : Fin 2, kept (.portResetAssert p) ∧ kept (.portResetRelease p)) ∧ ∀ f : Fn, kept (.flr f))

/-- R71: rsn_to_x, x_to_rsn and TIME_CONV. -/
def Obligations.RsnConversion : Prop :=
  (∀ r : Rsn, r.toX = (r.r256.val * 275285505 + r.r255.val * 520216576 + r.r253.val * 344090880 + r.r251.val * 3005882880) % 4145475840 ∧
    Rsn.ofX r.toX = r) ∧
  (∀ x : Nat, x < 4145475840 → (Rsn.ofX x).toX = x ∧ (Rsn.ofX x).r256.val = x % 256 ∧ (Rsn.ofX x).r255.val = x % 255 ∧
    (Rsn.ofX x).r253.val = x % 253 ∧ (Rsn.ofX x).r251.val = x % 251) ∧
  (∀ (s : State) (v : Word), Works s →
    let outs (t : State) : Word × Word × Word × Word × Word := (rd t Reg.TIME_CONV_OUT_RSN, rd t Reg.TIME_CONV_OUT_EPOCH,
      rd t Reg.TIME_CONV_OUT_X, rd t Reg.TIME_CONV_OUT_ASN_LO, rd t Reg.TIME_CONV_OUT_ASN_HI)
    let hi := (rd s Reg.TIME_CONV_IN_HI).toNat
    let asn1 := hi % 256 * 4294967296 + (rd s Reg.TIME_CONV_IN_LO).toNat
    (∀ r : Rsn, bitAt 31 v = true → bitAt 0 v = false → Rsn.ofWord (rd s Reg.TIME_CONV_IN_LO) = some r →
      let asn := (hi % 65536 * 4145475840 + r.toX) % 2 ^ 40
      ∃ t, exec (.timeConv v) s = .next t ∧ fbit t 0 Fl.TIME_STATUS_CONV_VALID = true ∧
        outs t = (rd s Reg.TIME_CONV_IN_LO, BitVec.ofNat 32 (hi % 65536), BitVec.ofNat 32 r.toX, BitVec.ofNat 32 asn,
          BitVec.ofNat 32 (asn / 4294967296))) ∧
    (bitAt 31 v = true → bitAt 0 v = true →
      ∃ t, exec (.timeConv v) s = .next t ∧ fbit t 0 Fl.TIME_STATUS_CONV_VALID = true ∧
        outs t = ((Rsn.ofX (asn1 % 4145475840)).word, BitVec.ofNat 32 (asn1 / 4145475840), BitVec.ofNat 32 (asn1 % 4145475840),
          BitVec.ofNat 32 asn1, BitVec.ofNat 32 (asn1 / 4294967296))) ∧
    (bitAt 31 v = true → bitAt 0 v = false → Rsn.ofWord (rd s Reg.TIME_CONV_IN_LO) = none →
      ∃ t, exec (.timeConv v) s = .next t ∧ Rejected t Reg.TIME_STATUS ∧ outs t = outs s) ∧
    (bitAt 31 v = false → ∃ t, exec (.timeConv v) s = .next t ∧ outs t = outs s ∧ rd t Reg.TIME_STATUS = rd s Reg.TIME_STATUS))

/-- R70, R72, R73, R76: the order of slot names. -/
def Obligations.SlotOrder : Prop :=
  ∀ a b : SlotName,
    a.count = a.epoch.toNat * 4145475840 + a.rsn.toX ∧ a.rsn.toX < 4145475840 ∧ a.asn = a.count % 2 ^ 40 ∧
    slotDist a b = ((b.epoch.toNat : Int) - a.epoch.toNat) * 4145475840 + ((b.rsn.toX : Int) - a.rsn.toX) ∧
    (0 < slotDist a b ↔ a.epoch.toNat < b.epoch.toNat ∨ (a.epoch = b.epoch ∧ a.rsn.toX < b.rsn.toX)) ∧
    (slotDist a b = 0 ↔ a = b) ∧
    (a.epoch ≠ 65535 → slotDist ⟨a.epoch, ⟨255, 254, 252, 250⟩⟩ ⟨a.epoch + 1, ⟨0, 0, 0, 0⟩⟩ = 1) ∧
    (∀ k : Nat, a.count + k < 65536 * 4145475840 →
      slotDist a (a.addSlots k) = k ∧ (a.addSlots k).rsn = a.rsn.add k ∧
        (a.rsn.add k).r256.val = (a.rsn.r256.val + k) % 256 ∧ (a.rsn.add k).r255.val = (a.rsn.r255.val + k) % 255 ∧
        (a.rsn.add k).r253.val = (a.rsn.r253.val + k) % 253 ∧ (a.rsn.add k).r251.val = (a.rsn.r251.val + k) % 251)

/-- R4, R7, R69: words and octets of slot names. -/
def Obligations.StoredForms : Prop :=
  (∀ r : Rsn, Rsn.ofWord r.word = some r) ∧
  (∀ (w : Word) (r : Rsn), Rsn.ofWord w = some r → r.word = w) ∧
  (∀ w : Word, Rsn.ofWord w = none ↔ bitsOf 23 16 w = 255 ∨ 252 < bitsOf 15 8 w ∨ 250 < bitsOf 7 0 w) ∧
  (∀ n v : Nat, ofLeBytes (leBytes n v) = v % 256 ^ n ∧ (leBytes n v).length = n) ∧
  (∀ bs : List Byte, leBytes bs.length (ofLeBytes bs) = bs) ∧
  (∀ n : SlotName, slotFieldOf (leBytes 4 n.rsn.word.toNat ++ leBytes 2 n.epoch.toNat) =
    if n = ⟨0, ⟨0, 0, 0, 0⟩⟩ then .none else .slot n) ∧
  (∀ (w : Word) (e : BitVec 16), Rsn.ofWord w = none → slotFieldOf (leBytes 4 w.toNat ++ leBytes 2 e.toNat) = .invalid)

/-- R45, R48, R276: the shared operation that raises events. -/
def Obligations.EventsRaised : Prop :=
  ∀ (o : EvOcc) (s : State), o.code < 256 → s.fns.length = 8 →
    let t := raiseOcc o s
    let pendKey (f c : Nat) : Nat := fb f + Reg.EVT_PEND + c / 32 * 4
    let enabled (f : Nat) : Bool := fbit s (fb f) Fl.EVT_CTRL_ENABLE &&
      bitAt (o.code % 32) (rd s (fb f + Reg.EVT_ENABLE + o.code / 32 * 4)) && !(getFn s f).quiesced
    Raised t o.code ∧ (∀ c : Fin 256, c.val ≠ o.code → (Raised t c.val ↔ Raised s c.val)) ∧
    (∀ (f : Fn) (c : Fin 256), bitAt (c.val % 32) (rd t (pendKey f.val c.val)) =
      (bitAt (c.val % 32) (rd s (pendKey f.val c.val)) || ((c.val = o.code) && (routeMask s o.code).testBit f.val))) ∧
    (∀ k : Nat, eventKey k = false → rd t k = rd s k) ∧
    (∀ f : Fn, (getFn t f.val).evq = if (routeMask s o.code).testBit f.val && enabled f.val then
      (getFn s f.val).evq ++ [{ o with newly := !bitAt (o.code % 32) (rd s (pendKey f.val o.code)) }] else (getFn s f.val).evq) ∧
    (∀ f : Fn, (getFn t f.val).out = (getFn s f.val).out ∧ (getFn t f.val).rings = (getFn s f.val).rings)

/-- R42, R43: the shared operation that counts. -/
def Obligations.CountersStop : Prop :=
  ∀ (base n : Nat) (c : Cnt) (s : State), c.off ≠ c.sat → c.bit < 32 → eventKey (base + c.off) = false → eventKey (base + c.sat) = false →
    let t := bumpBy base c n s
    Counted s t base c n ∧
    ((rd s (base + c.off)).toNat + n < 0xFFFFFFFF → (∀ k : Nat, k ≠ base + c.off → rd t k = rd s k) ∧ t.fns = s.fns) ∧
    (0xFFFFFFFF ≤ (rd s (base + c.off)).toNat + n → bitAt c.bit (rd t (base + c.sat)) = true ∧
      (bitAt c.bit (rd s (base + c.sat)) = false → Raised t 255 ∧
        (∀ k : Nat, eventKey k = false → k ≠ base + c.off → k ≠ base + c.sat → rd t k = rd s k)) ∧
      (bitAt c.bit (rd s (base + c.sat)) = true → t.fns = s.fns ∧ (∀ k : Nat, k ≠ base + c.off → rd t k = rd s k)))

/-- R143, R333, R359, R373, R385, R389 to R391, R401: what may change the state that outlives a reset. -/
def Obligations.LastingStateKept : Prop :=
  ∀ (c : Instr) (s t : State), exec c s = .next t →
    (match c with
      | .registerWrite _ _ _ _ | .postedWriteAck _ | .cntSatClear _ _ _ | .profileFuseDone _ | .scuttleReset | .provisioned _
      | .fieldRepairDone _ | .takeoverDone | .fwStageOpen _ _ | .fwStageChunk _ _ | .fwStageCloseCommit _ | .fwStageCloseAbandon _
      | .fwBreak _ | .fwVouch _ | .fwReject _ | .trialConfirmCheck | .trialReset | .fwSignerFuse _ _ _ | .fwSignerRevoke _ _
      | .fwSetWrite _ _ | .fallbackClear _ | .powerOnReset _ _ | .brownOut | .brownOutEnd _ _ | .porNAssert | .testReset _ _
      | .tapInstruction _ | .selftestDone _ _ | .fwBooted => true
      | _ => false) = false → t.otp = s.otp ∧ t.flash = s.flash

/-- R72, R74, R75, R152, R154: positions and hopping indices. R152's x mod LEN is read under R74, as it says (DEDUCED, log 12). -/
def Obligations.SlotframePositions : Prop :=
  ∀ (s : State) (n : SlotName) (h q o : Nat), 0 < sfLen s h → 4145475840 % sfLen s h = 0 → 0 < hopLen s q →
    let len := sfLen s h
    let k : Nat := n.count / 2 ^ 40
    let e := (((n.epoch.toNat : Int) * 4145475840 - (k : Int) * 2 ^ 40) % (hopLen s q : Int)).toNat
    sfPos s h n = n.asn % len ∧ sfPos s h n = (n.rsn.toX % len + ((-((k : Int) * 2 ^ 40)) % (len : Int)).toNat) % len ∧
    (n.epoch.toNat < 265 → sfPos s h n = n.rsn.toX % len) ∧
    (n.epoch.toNat < 265 → len = 256 → sfPos s h n = n.rsn.r256.val) ∧
    (n.epoch.toNat < 265 → len = 255 → sfPos s h n = n.rsn.r255.val) ∧
    (n.epoch.toNat < 265 → len = 253 → sfPos s h n = n.rsn.r253.val) ∧
    (n.epoch.toNat < 265 → len = 251 → sfPos s h n = n.rsn.r251.val) ∧
    hopChan s q n o = hopAt s q ((e + n.rsn.toX % hopLen s q + o) % hopLen s q)
end

