-- ==== Sys2Proof/Laws/Bits.lean ====
section
/-!
SUPPORT. Bit fields: reading a field after it, or one beside it, was written.
-/

namespace Sys2Proof.Machine

theorem getLsbD_maskOf {hi lo i : Nat} (h : lo ≤ hi) : (maskOf hi lo).testBit i = (decide (lo ≤ i) && decide (i ≤ hi)) := by
  unfold maskOf
  rw [Nat.testBit_shiftLeft, Nat.testBit_two_pow_sub_one]
  by_cases h1 : lo ≤ i
  · simp [h1]; omega
  · simp [h1]

theorem testBit_bitsOf (hi lo i : Nat) (w : Word) : (bitsOf hi lo w).testBit i = (decide (i < hi + 1 - lo) && w.getLsbD (lo + i)) := by
  unfold bitsOf
  rw [Nat.testBit_mod_two_pow, Nat.testBit_shiftRight]
  rfl

theorem getLsbD_putBits {hi lo i v : Nat} {w : Word} (h : lo ≤ hi) (hi32 : i < 32) :
    (putBits hi lo w v).getLsbD i = if lo ≤ i ∧ i ≤ hi then v.testBit (i - lo) else w.getLsbD i := by
  unfold putBits
  simp only [BitVec.getLsbD_or, BitVec.getLsbD_and, BitVec.getLsbD_not, BitVec.getLsbD_ofNat, getLsbD_maskOf h, hi32, decide_true,
    Bool.true_and, Nat.testBit_shiftLeft]
  by_cases h1 : lo ≤ i <;> by_cases h2 : i ≤ hi <;> simp [h1, h2]

/-- A field reads what was written to it, as far as it has room. -/
theorem bitsOf_putBits_self {hi lo v : Nat} {w : Word} (h : lo ≤ hi) (h32 : hi < 32) :
    bitsOf hi lo (putBits hi lo w v) = v % 2 ^ (hi + 1 - lo) := by
  apply Nat.eq_of_testBit_eq
  intro i
  rw [testBit_bitsOf, Nat.testBit_mod_two_pow]
  by_cases hi' : i < hi + 1 - lo
  · have h3 : lo + i < 32 := by omega
    rw [getLsbD_putBits h h3]
    have h4 : lo ≤ lo + i ∧ lo + i ≤ hi := by omega
    simp [hi', h4]
  · simp [hi']

/-- A field beside a written one keeps its value. -/
theorem bitsOf_putBits_ne {hi lo hi' lo' v : Nat} {w : Word} (h : lo ≤ hi) (h32 : hi' < 32) (hd : hi' < lo ∨ hi < lo') :
    bitsOf hi' lo' (putBits hi lo w v) = bitsOf hi' lo' w := by
  apply Nat.eq_of_testBit_eq
  intro i
  rw [testBit_bitsOf, testBit_bitsOf]
  by_cases hi1 : i < hi' + 1 - lo'
  · have h3 : lo' + i < 32 := by omega
    rw [getLsbD_putBits h h3]
    have h4 : ¬(lo ≤ lo' + i ∧ lo' + i ≤ hi) := by omega
    simp [hi1, h4]
  · simp [hi1]

theorem getLsbD_oneAt (i j : Nat) : (BitVec.ofNat 32 (1 <<< i)).getLsbD j = (decide (j < 32) && decide (j = i)) := by
  rw [BitVec.getLsbD_ofNat, Nat.shiftLeft_eq, Nat.one_mul, Nat.testBit_two_pow]
  simp only [eq_comm]

@[simp] theorem bitAt_setBitAt_self {i : Nat} {w : Word} {b : Bool} (h : i < 32) : bitAt i (setBitAt i w b) = b := by
  unfold bitAt setBitAt
  cases b
  · rw [if_neg (by decide), BitVec.getLsbD_and, BitVec.getLsbD_not, getLsbD_oneAt]
    simp only [h, decide_true, Bool.and_self, Bool.not_true, Bool.and_false]
  · rw [if_pos rfl, BitVec.getLsbD_or, getLsbD_oneAt]
    simp only [h, decide_true, Bool.and_self, Bool.or_true]

theorem bitAt_setBitAt_ne {i j : Nat} {w : Word} {b : Bool} (h : j ≠ i) : bitAt j (setBitAt i w b) = bitAt j w := by
  unfold bitAt setBitAt
  by_cases hj : j < 32
  · cases b
    · rw [if_neg (by decide), BitVec.getLsbD_and, BitVec.getLsbD_not, getLsbD_oneAt]
      simp only [hj, h, decide_true, decide_false, Bool.and_false, Bool.not_false, Bool.and_true]
    · rw [if_pos rfl, BitVec.getLsbD_or, getLsbD_oneAt]
      simp only [h, decide_false, Bool.and_false, Bool.or_false]
  · rw [BitVec.getLsbD_of_ge _ _ (by omega), BitVec.getLsbD_of_ge _ _ (by omega)]

theorem bitsOf_lt (hi lo : Nat) (w : Word) : bitsOf hi lo w < 2 ^ (hi + 1 - lo) := Nat.mod_lt _ (Nat.two_pow_pos _)

end Sys2Proof.Machine
end

