-- ==== Sys2Proof/Laws/SMap.lean ====
section
/-!
SUPPORT. Reading a sparse table after a write or a removal, and the canonical form (strictly rising keys), which both keep.
-/

namespace Sys2Proof.Machine

variable {α : Type}

@[simp] theorem SMap.find_nil (k : Nat) : SMap.find ([] : SMap α) k = none := rfl

@[simp] theorem SMap.find_put_self (m : SMap α) (k : Nat) (v : α) : (m.put k v).find k = some v := by
  induction m with
  | nil => simp [SMap.put, SMap.find]
  | cons p t ih =>
    obtain ⟨j, u⟩ := p
    simp only [SMap.put]
    split
    · simp [SMap.find]
    · split
      · simp [SMap.find]
      · rename_i h; simp [SMap.find, h, ih]

theorem SMap.find_put_ne (m : SMap α) {k k' : Nat} (h : k' ≠ k) (v : α) : (m.put k v).find k' = m.find k' := by
  induction m with
  | nil => simp [SMap.put, SMap.find, h.symm]
  | cons p t ih =>
    obtain ⟨j, u⟩ := p
    simp only [SMap.put]
    split
    · simp [SMap.find, h.symm]
    · split
      · rename_i hjk; subst hjk; simp [SMap.find, h.symm]
      · simp [SMap.find, ih]

@[simp] theorem SMap.find_del_self (m : SMap α) (k : Nat) : (m.del k).find k = none := by
  induction m with
  | nil => rfl
  | cons p t ih =>
    obtain ⟨j, u⟩ := p
    by_cases h : j = k
    · subst h; simpa [SMap.del, List.filter] using ih
    · have : (SMap.del ((j, u) :: t) k) = (j, u) :: SMap.del t k := by simp [SMap.del, List.filter, h]
      rw [this]; simp [SMap.find, h, ih]

theorem SMap.find_del_ne (m : SMap α) {k k' : Nat} (h : k' ≠ k) : (m.del k).find k' = m.find k' := by
  induction m with
  | nil => rfl
  | cons p t ih =>
    obtain ⟨j, u⟩ := p
    by_cases hj : j = k
    · subst hj
      have : (SMap.del ((j, u) :: t) j) = SMap.del t j := by simp [SMap.del, List.filter]
      rw [this, ih]; simp [SMap.find, h.symm]
    · have : (SMap.del ((j, u) :: t) k) = (j, u) :: SMap.del t k := by simp [SMap.del, List.filter, hj]
      rw [this]; simp [SMap.find, ih]

theorem SMap.risesFrom_weaken {t : SMap α} {a b : Nat} (h : a ≤ b) (ht : SMap.risesFrom (some b) t = true) :
    SMap.risesFrom (some a) t = true := by
  cases t with
  | nil => rfl
  | cons p t => obtain ⟨j, u⟩ := p; simp [SMap.risesFrom] at ht ⊢; exact ⟨by omega, ht.2⟩

theorem SMap.risesFrom_put {b : Option Nat} {m : SMap α} {k : Nat} (v : α) (hm : SMap.risesFrom b m = true)
    (hb : ∀ a, b = some a → a < k) : SMap.risesFrom b (m.put k v) = true := by
  induction m generalizing b with
  | nil => cases b <;> simp [SMap.put, SMap.risesFrom]; exact hb _ rfl
  | cons p t ih =>
    obtain ⟨j, u⟩ := p
    simp only [SMap.put]
    split
    · rename_i hlt
      cases b with
      | none => simp [SMap.risesFrom, hlt] at hm ⊢; exact hm
      | some a => simp [SMap.risesFrom, hlt] at hm ⊢; exact ⟨hb _ rfl, hm.2⟩
    · split
      · rename_i _ hjk; subst hjk
        cases b <;> simpa [SMap.risesFrom] using hm
      · rename_i h1 h2
        have hj : j < k := by omega
        cases b with
        | none =>
          simp [SMap.risesFrom] at hm ⊢
          exact ih hm (by intro a ha; cases ha; exact hj)
        | some a =>
          simp [SMap.risesFrom] at hm ⊢
          exact ⟨hm.1, ih hm.2 (by intro c hc; cases hc; exact hj)⟩

theorem SMap.risesFrom_filter {b : Option Nat} {m : SMap α} (p : Nat × α → Bool) (hm : SMap.risesFrom b m = true) :
    SMap.risesFrom b (m.filter p) = true := by
  induction m generalizing b with
  | nil => cases b <;> rfl
  | cons q t ih =>
    obtain ⟨j, u⟩ := q
    by_cases hp : p (j, u) = true
    · rw [List.filter_cons_of_pos hp]
      cases b with
      | none => simp [SMap.risesFrom] at hm ⊢; exact ih hm
      | some a => simp [SMap.risesFrom] at hm ⊢; exact ⟨hm.1, ih hm.2⟩
    · rw [List.filter_cons_of_neg hp]
      cases b with
      | none =>
        simp [SMap.risesFrom] at hm
        have h2 := ih hm
        cases hf : t.filter p with
        | nil => rfl
        | cons q' t' => obtain ⟨j', u'⟩ := q'; rw [hf] at h2; simp [SMap.risesFrom] at h2 ⊢; exact h2.2
      | some a =>
        simp [SMap.risesFrom] at hm
        exact ih (SMap.risesFrom_weaken (by omega) hm.2)

/-- A write keeps the canonical form. -/
theorem SMap.put_wf {m : SMap α} (k : Nat) (v : α) (h : m.wf = true) : (m.put k v).wf = true :=
  SMap.risesFrom_put v h (by intro a ha; cases ha)

/-- A removal keeps the canonical form. -/
theorem SMap.del_wf {m : SMap α} (k : Nat) (h : m.wf = true) : (m.del k).wf = true := SMap.risesFrom_filter _ h

end Sys2Proof.Machine
end

