-- ==== Sys2Proof/Laws/State.lean ====
section
/-!
SUPPORT. What each update of the state leaves alone and what it sets: one lemma for every field and every named update, by rfl.
-/

namespace Sys2Proof.Machine

variable (s : State)

/-! `emit` -/

@[simp] theorem emit_regs (o : Out) : (emit o s).regs = s.regs := rfl
@[simp] theorem emit_pend (o : Out) : (emit o s).pend = s.pend := rfl
@[simp] theorem emit_posted (o : Out) : (emit o s).posted = s.posted := rfl
@[simp] theorem emit_time (o : Out) : (emit o s).time = s.time := rfl
@[simp] theorem emit_berths (o : Out) : (emit o s).berths = s.berths := rfl
@[simp] theorem emit_dec (o : Out) : (emit o s).dec = s.dec := rfl
@[simp] theorem emit_bcom (o : Out) : (emit o s).bcom = s.bcom := rfl
@[simp] theorem emit_mac (o : Out) : (emit o s).mac = s.mac := rfl
@[simp] theorem emit_tables (o : Out) : (emit o s).tables = s.tables := rfl
@[simp] theorem emit_svc (o : Out) : (emit o s).svc = s.svc := rfl
@[simp] theorem emit_camp (o : Out) : (emit o s).camp = s.camp := rfl
@[simp] theorem emit_fns (o : Out) : (emit o s).fns = s.fns := rfl
@[simp] theorem emit_ports (o : Out) : (emit o s).ports = s.ports := rfl
@[simp] theorem emit_jobs (o : Out) : (emit o s).jobs = s.jobs := rfl
@[simp] theorem emit_stevs (o : Out) : (emit o s).stevs = s.stevs := rfl
@[simp] theorem emit_landed (o : Out) : (emit o s).landed = s.landed := rfl
@[simp] theorem emit_lastServed (o : Out) : (emit o s).lastServed = s.lastServed := rfl
@[simp] theorem emit_fabric (o : Out) : (emit o s).fabric = s.fabric := rfl
@[simp] theorem emit_keys (o : Out) : (emit o s).keys = s.keys := rfl
@[simp] theorem emit_plinth (o : Out) : (emit o s).plinth = s.plinth := rfl
@[simp] theorem emit_hold (o : Out) : (emit o s).hold = s.hold := rfl
@[simp] theorem emit_claim (o : Out) : (emit o s).claim = s.claim := rfl
@[simp] theorem emit_fw (o : Out) : (emit o s).fw = s.fw := rfl
@[simp] theorem emit_flash (o : Out) : (emit o s).flash = s.flash := rfl
@[simp] theorem emit_otp (o : Out) : (emit o s).otp = s.otp := rfl
@[simp] theorem emit_start (o : Out) : (emit o s).start = s.start := rfl
@[simp] theorem emit_mgmt (o : Out) : (emit o s).mgmt = s.mgmt := rfl
@[simp] theorem emit_pins (o : Out) : (emit o s).pins = s.pins := rfl
@[simp] theorem emit_outs (o : Out) : (emit o s).outs = o :: s.outs := rfl
@[simp] theorem emit_draws (o : Out) : (emit o s).draws = s.draws := rfl
@[simp] theorem emit_pending (o : Out) : (emit o s).pending = s.pending := rfl

/-! `advanceDraws` -/

@[simp] theorem advanceDraws_regs : (advanceDraws s).regs = s.regs := rfl
@[simp] theorem advanceDraws_pend : (advanceDraws s).pend = s.pend := rfl
@[simp] theorem advanceDraws_posted : (advanceDraws s).posted = s.posted := rfl
@[simp] theorem advanceDraws_time : (advanceDraws s).time = s.time := rfl
@[simp] theorem advanceDraws_berths : (advanceDraws s).berths = s.berths := rfl
@[simp] theorem advanceDraws_dec : (advanceDraws s).dec = s.dec := rfl
@[simp] theorem advanceDraws_bcom : (advanceDraws s).bcom = s.bcom := rfl
@[simp] theorem advanceDraws_mac : (advanceDraws s).mac = s.mac := rfl
@[simp] theorem advanceDraws_tables : (advanceDraws s).tables = s.tables := rfl
@[simp] theorem advanceDraws_svc : (advanceDraws s).svc = s.svc := rfl
@[simp] theorem advanceDraws_camp : (advanceDraws s).camp = s.camp := rfl
@[simp] theorem advanceDraws_fns : (advanceDraws s).fns = s.fns := rfl
@[simp] theorem advanceDraws_ports : (advanceDraws s).ports = s.ports := rfl
@[simp] theorem advanceDraws_jobs : (advanceDraws s).jobs = s.jobs := rfl
@[simp] theorem advanceDraws_stevs : (advanceDraws s).stevs = s.stevs := rfl
@[simp] theorem advanceDraws_landed : (advanceDraws s).landed = s.landed := rfl
@[simp] theorem advanceDraws_lastServed : (advanceDraws s).lastServed = s.lastServed := rfl
@[simp] theorem advanceDraws_fabric : (advanceDraws s).fabric = s.fabric := rfl
@[simp] theorem advanceDraws_keys : (advanceDraws s).keys = s.keys := rfl
@[simp] theorem advanceDraws_plinth : (advanceDraws s).plinth = s.plinth := rfl
@[simp] theorem advanceDraws_hold : (advanceDraws s).hold = s.hold := rfl
@[simp] theorem advanceDraws_claim : (advanceDraws s).claim = s.claim := rfl
@[simp] theorem advanceDraws_fw : (advanceDraws s).fw = s.fw := rfl
@[simp] theorem advanceDraws_flash : (advanceDraws s).flash = s.flash := rfl
@[simp] theorem advanceDraws_otp : (advanceDraws s).otp = s.otp := rfl
@[simp] theorem advanceDraws_start : (advanceDraws s).start = s.start := rfl
@[simp] theorem advanceDraws_mgmt : (advanceDraws s).mgmt = s.mgmt := rfl
@[simp] theorem advanceDraws_pins : (advanceDraws s).pins = s.pins := rfl
@[simp] theorem advanceDraws_outs : (advanceDraws s).outs = s.outs := rfl
@[simp] theorem advanceDraws_draws : (advanceDraws s).draws = s.draws + 1 := rfl
@[simp] theorem advanceDraws_pending : (advanceDraws s).pending = s.pending := rfl

/-! `drawFree` -/

@[simp] theorem drawFree_regs : (drawFree s).regs = s.regs := rfl
@[simp] theorem drawFree_pend : (drawFree s).pend = s.pend := rfl
@[simp] theorem drawFree_posted : (drawFree s).posted = s.posted := rfl
@[simp] theorem drawFree_time : (drawFree s).time = s.time := rfl
@[simp] theorem drawFree_berths : (drawFree s).berths = s.berths := rfl
@[simp] theorem drawFree_dec : (drawFree s).dec = s.dec := rfl
@[simp] theorem drawFree_bcom : (drawFree s).bcom = s.bcom := rfl
@[simp] theorem drawFree_mac : (drawFree s).mac = s.mac := rfl
@[simp] theorem drawFree_tables : (drawFree s).tables = s.tables := rfl
@[simp] theorem drawFree_svc : (drawFree s).svc = s.svc := rfl
@[simp] theorem drawFree_camp : (drawFree s).camp = s.camp := rfl
@[simp] theorem drawFree_fns : (drawFree s).fns = s.fns := rfl
@[simp] theorem drawFree_ports : (drawFree s).ports = s.ports := rfl
@[simp] theorem drawFree_jobs : (drawFree s).jobs = s.jobs := rfl
@[simp] theorem drawFree_stevs : (drawFree s).stevs = s.stevs := rfl
@[simp] theorem drawFree_landed : (drawFree s).landed = s.landed := rfl
@[simp] theorem drawFree_lastServed : (drawFree s).lastServed = s.lastServed := rfl
@[simp] theorem drawFree_fabric : (drawFree s).fabric = s.fabric := rfl
@[simp] theorem drawFree_keys : (drawFree s).keys = s.keys := rfl
@[simp] theorem drawFree_plinth : (drawFree s).plinth = s.plinth := rfl
@[simp] theorem drawFree_hold : (drawFree s).hold = s.hold := rfl
@[simp] theorem drawFree_claim : (drawFree s).claim = s.claim := rfl
@[simp] theorem drawFree_fw : (drawFree s).fw = s.fw := rfl
@[simp] theorem drawFree_flash : (drawFree s).flash = s.flash := rfl
@[simp] theorem drawFree_otp : (drawFree s).otp = s.otp := rfl
@[simp] theorem drawFree_start : (drawFree s).start = s.start := rfl
@[simp] theorem drawFree_mgmt : (drawFree s).mgmt = s.mgmt := rfl
@[simp] theorem drawFree_pins : (drawFree s).pins = s.pins := rfl
@[simp] theorem drawFree_outs : (drawFree s).outs = s.outs := rfl
@[simp] theorem drawFree_draws : (drawFree s).draws = s.draws + 1 := rfl
@[simp] theorem drawFree_pending : (drawFree s).pending = s.pending := rfl

/-! `wr` -/

@[simp] theorem wr_pend (k : Nat) (v : Word) : (wr k v s).pend = s.pend := rfl
@[simp] theorem wr_posted (k : Nat) (v : Word) : (wr k v s).posted = s.posted := rfl
@[simp] theorem wr_time (k : Nat) (v : Word) : (wr k v s).time = s.time := rfl
@[simp] theorem wr_berths (k : Nat) (v : Word) : (wr k v s).berths = s.berths := rfl
@[simp] theorem wr_dec (k : Nat) (v : Word) : (wr k v s).dec = s.dec := rfl
@[simp] theorem wr_bcom (k : Nat) (v : Word) : (wr k v s).bcom = s.bcom := rfl
@[simp] theorem wr_mac (k : Nat) (v : Word) : (wr k v s).mac = s.mac := rfl
@[simp] theorem wr_tables (k : Nat) (v : Word) : (wr k v s).tables = s.tables := rfl
@[simp] theorem wr_svc (k : Nat) (v : Word) : (wr k v s).svc = s.svc := rfl
@[simp] theorem wr_camp (k : Nat) (v : Word) : (wr k v s).camp = s.camp := rfl
@[simp] theorem wr_fns (k : Nat) (v : Word) : (wr k v s).fns = s.fns := rfl
@[simp] theorem wr_ports (k : Nat) (v : Word) : (wr k v s).ports = s.ports := rfl
@[simp] theorem wr_jobs (k : Nat) (v : Word) : (wr k v s).jobs = s.jobs := rfl
@[simp] theorem wr_stevs (k : Nat) (v : Word) : (wr k v s).stevs = s.stevs := rfl
@[simp] theorem wr_landed (k : Nat) (v : Word) : (wr k v s).landed = s.landed := rfl
@[simp] theorem wr_lastServed (k : Nat) (v : Word) : (wr k v s).lastServed = s.lastServed := rfl
@[simp] theorem wr_fabric (k : Nat) (v : Word) : (wr k v s).fabric = s.fabric := rfl
@[simp] theorem wr_keys (k : Nat) (v : Word) : (wr k v s).keys = s.keys := rfl
@[simp] theorem wr_plinth (k : Nat) (v : Word) : (wr k v s).plinth = s.plinth := rfl
@[simp] theorem wr_hold (k : Nat) (v : Word) : (wr k v s).hold = s.hold := rfl
@[simp] theorem wr_claim (k : Nat) (v : Word) : (wr k v s).claim = s.claim := rfl
@[simp] theorem wr_fw (k : Nat) (v : Word) : (wr k v s).fw = s.fw := rfl
@[simp] theorem wr_flash (k : Nat) (v : Word) : (wr k v s).flash = s.flash := rfl
@[simp] theorem wr_otp (k : Nat) (v : Word) : (wr k v s).otp = s.otp := rfl
@[simp] theorem wr_start (k : Nat) (v : Word) : (wr k v s).start = s.start := rfl
@[simp] theorem wr_mgmt (k : Nat) (v : Word) : (wr k v s).mgmt = s.mgmt := rfl
@[simp] theorem wr_pins (k : Nat) (v : Word) : (wr k v s).pins = s.pins := rfl
@[simp] theorem wr_outs (k : Nat) (v : Word) : (wr k v s).outs = s.outs := rfl
@[simp] theorem wr_draws (k : Nat) (v : Word) : (wr k v s).draws = s.draws := rfl
@[simp] theorem wr_pending (k : Nat) (v : Word) : (wr k v s).pending = s.pending := rfl

/-! `fset` -/

@[simp] theorem fset_pend (b : Nat) (f : Fld) (v : Nat) : (fset b f v s).pend = s.pend := rfl
@[simp] theorem fset_posted (b : Nat) (f : Fld) (v : Nat) : (fset b f v s).posted = s.posted := rfl
@[simp] theorem fset_time (b : Nat) (f : Fld) (v : Nat) : (fset b f v s).time = s.time := rfl
@[simp] theorem fset_berths (b : Nat) (f : Fld) (v : Nat) : (fset b f v s).berths = s.berths := rfl
@[simp] theorem fset_dec (b : Nat) (f : Fld) (v : Nat) : (fset b f v s).dec = s.dec := rfl
@[simp] theorem fset_bcom (b : Nat) (f : Fld) (v : Nat) : (fset b f v s).bcom = s.bcom := rfl
@[simp] theorem fset_mac (b : Nat) (f : Fld) (v : Nat) : (fset b f v s).mac = s.mac := rfl
@[simp] theorem fset_tables (b : Nat) (f : Fld) (v : Nat) : (fset b f v s).tables = s.tables := rfl
@[simp] theorem fset_svc (b : Nat) (f : Fld) (v : Nat) : (fset b f v s).svc = s.svc := rfl
@[simp] theorem fset_camp (b : Nat) (f : Fld) (v : Nat) : (fset b f v s).camp = s.camp := rfl
@[simp] theorem fset_fns (b : Nat) (f : Fld) (v : Nat) : (fset b f v s).fns = s.fns := rfl
@[simp] theorem fset_ports (b : Nat) (f : Fld) (v : Nat) : (fset b f v s).ports = s.ports := rfl
@[simp] theorem fset_jobs (b : Nat) (f : Fld) (v : Nat) : (fset b f v s).jobs = s.jobs := rfl
@[simp] theorem fset_stevs (b : Nat) (f : Fld) (v : Nat) : (fset b f v s).stevs = s.stevs := rfl
@[simp] theorem fset_landed (b : Nat) (f : Fld) (v : Nat) : (fset b f v s).landed = s.landed := rfl
@[simp] theorem fset_lastServed (b : Nat) (f : Fld) (v : Nat) : (fset b f v s).lastServed = s.lastServed := rfl
@[simp] theorem fset_fabric (b : Nat) (f : Fld) (v : Nat) : (fset b f v s).fabric = s.fabric := rfl
@[simp] theorem fset_keys (b : Nat) (f : Fld) (v : Nat) : (fset b f v s).keys = s.keys := rfl
@[simp] theorem fset_plinth (b : Nat) (f : Fld) (v : Nat) : (fset b f v s).plinth = s.plinth := rfl
@[simp] theorem fset_hold (b : Nat) (f : Fld) (v : Nat) : (fset b f v s).hold = s.hold := rfl
@[simp] theorem fset_claim (b : Nat) (f : Fld) (v : Nat) : (fset b f v s).claim = s.claim := rfl
@[simp] theorem fset_fw (b : Nat) (f : Fld) (v : Nat) : (fset b f v s).fw = s.fw := rfl
@[simp] theorem fset_flash (b : Nat) (f : Fld) (v : Nat) : (fset b f v s).flash = s.flash := rfl
@[simp] theorem fset_otp (b : Nat) (f : Fld) (v : Nat) : (fset b f v s).otp = s.otp := rfl
@[simp] theorem fset_start (b : Nat) (f : Fld) (v : Nat) : (fset b f v s).start = s.start := rfl
@[simp] theorem fset_mgmt (b : Nat) (f : Fld) (v : Nat) : (fset b f v s).mgmt = s.mgmt := rfl
@[simp] theorem fset_pins (b : Nat) (f : Fld) (v : Nat) : (fset b f v s).pins = s.pins := rfl
@[simp] theorem fset_outs (b : Nat) (f : Fld) (v : Nat) : (fset b f v s).outs = s.outs := rfl
@[simp] theorem fset_draws (b : Nat) (f : Fld) (v : Nat) : (fset b f v s).draws = s.draws := rfl
@[simp] theorem fset_pending (b : Nat) (f : Fld) (v : Nat) : (fset b f v s).pending = s.pending := rfl

/-! `reject` -/

@[simp] theorem reject_pend (k : Nat) : (reject k s).pend = s.pend := rfl
@[simp] theorem reject_posted (k : Nat) : (reject k s).posted = s.posted := rfl
@[simp] theorem reject_time (k : Nat) : (reject k s).time = s.time := rfl
@[simp] theorem reject_berths (k : Nat) : (reject k s).berths = s.berths := rfl
@[simp] theorem reject_dec (k : Nat) : (reject k s).dec = s.dec := rfl
@[simp] theorem reject_bcom (k : Nat) : (reject k s).bcom = s.bcom := rfl
@[simp] theorem reject_mac (k : Nat) : (reject k s).mac = s.mac := rfl
@[simp] theorem reject_tables (k : Nat) : (reject k s).tables = s.tables := rfl
@[simp] theorem reject_svc (k : Nat) : (reject k s).svc = s.svc := rfl
@[simp] theorem reject_camp (k : Nat) : (reject k s).camp = s.camp := rfl
@[simp] theorem reject_fns (k : Nat) : (reject k s).fns = s.fns := rfl
@[simp] theorem reject_ports (k : Nat) : (reject k s).ports = s.ports := rfl
@[simp] theorem reject_jobs (k : Nat) : (reject k s).jobs = s.jobs := rfl
@[simp] theorem reject_stevs (k : Nat) : (reject k s).stevs = s.stevs := rfl
@[simp] theorem reject_landed (k : Nat) : (reject k s).landed = s.landed := rfl
@[simp] theorem reject_lastServed (k : Nat) : (reject k s).lastServed = s.lastServed := rfl
@[simp] theorem reject_fabric (k : Nat) : (reject k s).fabric = s.fabric := rfl
@[simp] theorem reject_keys (k : Nat) : (reject k s).keys = s.keys := rfl
@[simp] theorem reject_plinth (k : Nat) : (reject k s).plinth = s.plinth := rfl
@[simp] theorem reject_hold (k : Nat) : (reject k s).hold = s.hold := rfl
@[simp] theorem reject_claim (k : Nat) : (reject k s).claim = s.claim := rfl
@[simp] theorem reject_fw (k : Nat) : (reject k s).fw = s.fw := rfl
@[simp] theorem reject_flash (k : Nat) : (reject k s).flash = s.flash := rfl
@[simp] theorem reject_otp (k : Nat) : (reject k s).otp = s.otp := rfl
@[simp] theorem reject_start (k : Nat) : (reject k s).start = s.start := rfl
@[simp] theorem reject_mgmt (k : Nat) : (reject k s).mgmt = s.mgmt := rfl
@[simp] theorem reject_pins (k : Nat) : (reject k s).pins = s.pins := rfl
@[simp] theorem reject_outs (k : Nat) : (reject k s).outs = s.outs := rfl
@[simp] theorem reject_draws (k : Nat) : (reject k s).draws = s.draws := rfl
@[simp] theorem reject_pending (k : Nat) : (reject k s).pending = s.pending := rfl

/-! `postDrop` -/

@[simp] theorem postDrop_pend (k : Nat) : (postDrop k s).pend = s.pend := rfl
@[simp] theorem postDrop_posted (k : Nat) : (postDrop k s).posted = s.posted := rfl
@[simp] theorem postDrop_time (k : Nat) : (postDrop k s).time = s.time := rfl
@[simp] theorem postDrop_berths (k : Nat) : (postDrop k s).berths = s.berths := rfl
@[simp] theorem postDrop_dec (k : Nat) : (postDrop k s).dec = s.dec := rfl
@[simp] theorem postDrop_bcom (k : Nat) : (postDrop k s).bcom = s.bcom := rfl
@[simp] theorem postDrop_mac (k : Nat) : (postDrop k s).mac = s.mac := rfl
@[simp] theorem postDrop_tables (k : Nat) : (postDrop k s).tables = s.tables := rfl
@[simp] theorem postDrop_svc (k : Nat) : (postDrop k s).svc = s.svc := rfl
@[simp] theorem postDrop_camp (k : Nat) : (postDrop k s).camp = s.camp := rfl
@[simp] theorem postDrop_fns (k : Nat) : (postDrop k s).fns = s.fns := rfl
@[simp] theorem postDrop_ports (k : Nat) : (postDrop k s).ports = s.ports := rfl
@[simp] theorem postDrop_jobs (k : Nat) : (postDrop k s).jobs = s.jobs := rfl
@[simp] theorem postDrop_stevs (k : Nat) : (postDrop k s).stevs = s.stevs := rfl
@[simp] theorem postDrop_landed (k : Nat) : (postDrop k s).landed = s.landed := rfl
@[simp] theorem postDrop_lastServed (k : Nat) : (postDrop k s).lastServed = s.lastServed := rfl
@[simp] theorem postDrop_fabric (k : Nat) : (postDrop k s).fabric = s.fabric := rfl
@[simp] theorem postDrop_keys (k : Nat) : (postDrop k s).keys = s.keys := rfl
@[simp] theorem postDrop_plinth (k : Nat) : (postDrop k s).plinth = s.plinth := rfl
@[simp] theorem postDrop_hold (k : Nat) : (postDrop k s).hold = s.hold := rfl
@[simp] theorem postDrop_claim (k : Nat) : (postDrop k s).claim = s.claim := rfl
@[simp] theorem postDrop_fw (k : Nat) : (postDrop k s).fw = s.fw := rfl
@[simp] theorem postDrop_flash (k : Nat) : (postDrop k s).flash = s.flash := rfl
@[simp] theorem postDrop_otp (k : Nat) : (postDrop k s).otp = s.otp := rfl
@[simp] theorem postDrop_start (k : Nat) : (postDrop k s).start = s.start := rfl
@[simp] theorem postDrop_mgmt (k : Nat) : (postDrop k s).mgmt = s.mgmt := rfl
@[simp] theorem postDrop_pins (k : Nat) : (postDrop k s).pins = s.pins := rfl
@[simp] theorem postDrop_outs (k : Nat) : (postDrop k s).outs = s.outs := rfl
@[simp] theorem postDrop_draws (k : Nat) : (postDrop k s).draws = s.draws := rfl
@[simp] theorem postDrop_pending (k : Nat) : (postDrop k s).pending = s.pending := rfl

/-! `pendPut` -/

@[simp] theorem pendPut_regs (k : Nat) (v : Word) : (pendPut k v s).regs = s.regs := rfl
@[simp] theorem pendPut_pend (k : Nat) (v : Word) : (pendPut k v s).pend = s.pend.put k v := rfl
@[simp] theorem pendPut_posted (k : Nat) (v : Word) : (pendPut k v s).posted = s.posted := rfl
@[simp] theorem pendPut_time (k : Nat) (v : Word) : (pendPut k v s).time = s.time := rfl
@[simp] theorem pendPut_berths (k : Nat) (v : Word) : (pendPut k v s).berths = s.berths := rfl
@[simp] theorem pendPut_dec (k : Nat) (v : Word) : (pendPut k v s).dec = s.dec := rfl
@[simp] theorem pendPut_bcom (k : Nat) (v : Word) : (pendPut k v s).bcom = s.bcom := rfl
@[simp] theorem pendPut_mac (k : Nat) (v : Word) : (pendPut k v s).mac = s.mac := rfl
@[simp] theorem pendPut_tables (k : Nat) (v : Word) : (pendPut k v s).tables = s.tables := rfl
@[simp] theorem pendPut_svc (k : Nat) (v : Word) : (pendPut k v s).svc = s.svc := rfl
@[simp] theorem pendPut_camp (k : Nat) (v : Word) : (pendPut k v s).camp = s.camp := rfl
@[simp] theorem pendPut_fns (k : Nat) (v : Word) : (pendPut k v s).fns = s.fns := rfl
@[simp] theorem pendPut_ports (k : Nat) (v : Word) : (pendPut k v s).ports = s.ports := rfl
@[simp] theorem pendPut_jobs (k : Nat) (v : Word) : (pendPut k v s).jobs = s.jobs := rfl
@[simp] theorem pendPut_stevs (k : Nat) (v : Word) : (pendPut k v s).stevs = s.stevs := rfl
@[simp] theorem pendPut_landed (k : Nat) (v : Word) : (pendPut k v s).landed = s.landed := rfl
@[simp] theorem pendPut_lastServed (k : Nat) (v : Word) : (pendPut k v s).lastServed = s.lastServed := rfl
@[simp] theorem pendPut_fabric (k : Nat) (v : Word) : (pendPut k v s).fabric = s.fabric := rfl
@[simp] theorem pendPut_keys (k : Nat) (v : Word) : (pendPut k v s).keys = s.keys := rfl
@[simp] theorem pendPut_plinth (k : Nat) (v : Word) : (pendPut k v s).plinth = s.plinth := rfl
@[simp] theorem pendPut_hold (k : Nat) (v : Word) : (pendPut k v s).hold = s.hold := rfl
@[simp] theorem pendPut_claim (k : Nat) (v : Word) : (pendPut k v s).claim = s.claim := rfl
@[simp] theorem pendPut_fw (k : Nat) (v : Word) : (pendPut k v s).fw = s.fw := rfl
@[simp] theorem pendPut_flash (k : Nat) (v : Word) : (pendPut k v s).flash = s.flash := rfl
@[simp] theorem pendPut_otp (k : Nat) (v : Word) : (pendPut k v s).otp = s.otp := rfl
@[simp] theorem pendPut_start (k : Nat) (v : Word) : (pendPut k v s).start = s.start := rfl
@[simp] theorem pendPut_mgmt (k : Nat) (v : Word) : (pendPut k v s).mgmt = s.mgmt := rfl
@[simp] theorem pendPut_pins (k : Nat) (v : Word) : (pendPut k v s).pins = s.pins := rfl
@[simp] theorem pendPut_outs (k : Nat) (v : Word) : (pendPut k v s).outs = s.outs := rfl
@[simp] theorem pendPut_draws (k : Nat) (v : Word) : (pendPut k v s).draws = s.draws := rfl
@[simp] theorem pendPut_pending (k : Nat) (v : Word) : (pendPut k v s).pending = s.pending := rfl

/-! `pendClear` -/

@[simp] theorem pendClear_regs (lo hi : Nat) : (pendClear lo hi s).regs = s.regs := rfl
@[simp] theorem pendClear_posted (lo hi : Nat) : (pendClear lo hi s).posted = s.posted := rfl
@[simp] theorem pendClear_time (lo hi : Nat) : (pendClear lo hi s).time = s.time := rfl
@[simp] theorem pendClear_berths (lo hi : Nat) : (pendClear lo hi s).berths = s.berths := rfl
@[simp] theorem pendClear_dec (lo hi : Nat) : (pendClear lo hi s).dec = s.dec := rfl
@[simp] theorem pendClear_bcom (lo hi : Nat) : (pendClear lo hi s).bcom = s.bcom := rfl
@[simp] theorem pendClear_mac (lo hi : Nat) : (pendClear lo hi s).mac = s.mac := rfl
@[simp] theorem pendClear_tables (lo hi : Nat) : (pendClear lo hi s).tables = s.tables := rfl
@[simp] theorem pendClear_svc (lo hi : Nat) : (pendClear lo hi s).svc = s.svc := rfl
@[simp] theorem pendClear_camp (lo hi : Nat) : (pendClear lo hi s).camp = s.camp := rfl
@[simp] theorem pendClear_fns (lo hi : Nat) : (pendClear lo hi s).fns = s.fns := rfl
@[simp] theorem pendClear_ports (lo hi : Nat) : (pendClear lo hi s).ports = s.ports := rfl
@[simp] theorem pendClear_jobs (lo hi : Nat) : (pendClear lo hi s).jobs = s.jobs := rfl
@[simp] theorem pendClear_stevs (lo hi : Nat) : (pendClear lo hi s).stevs = s.stevs := rfl
@[simp] theorem pendClear_landed (lo hi : Nat) : (pendClear lo hi s).landed = s.landed := rfl
@[simp] theorem pendClear_lastServed (lo hi : Nat) : (pendClear lo hi s).lastServed = s.lastServed := rfl
@[simp] theorem pendClear_fabric (lo hi : Nat) : (pendClear lo hi s).fabric = s.fabric := rfl
@[simp] theorem pendClear_keys (lo hi : Nat) : (pendClear lo hi s).keys = s.keys := rfl
@[simp] theorem pendClear_plinth (lo hi : Nat) : (pendClear lo hi s).plinth = s.plinth := rfl
@[simp] theorem pendClear_hold (lo hi : Nat) : (pendClear lo hi s).hold = s.hold := rfl
@[simp] theorem pendClear_claim (lo hi : Nat) : (pendClear lo hi s).claim = s.claim := rfl
@[simp] theorem pendClear_fw (lo hi : Nat) : (pendClear lo hi s).fw = s.fw := rfl
@[simp] theorem pendClear_flash (lo hi : Nat) : (pendClear lo hi s).flash = s.flash := rfl
@[simp] theorem pendClear_otp (lo hi : Nat) : (pendClear lo hi s).otp = s.otp := rfl
@[simp] theorem pendClear_start (lo hi : Nat) : (pendClear lo hi s).start = s.start := rfl
@[simp] theorem pendClear_mgmt (lo hi : Nat) : (pendClear lo hi s).mgmt = s.mgmt := rfl
@[simp] theorem pendClear_pins (lo hi : Nat) : (pendClear lo hi s).pins = s.pins := rfl
@[simp] theorem pendClear_outs (lo hi : Nat) : (pendClear lo hi s).outs = s.outs := rfl
@[simp] theorem pendClear_draws (lo hi : Nat) : (pendClear lo hi s).draws = s.draws := rfl
@[simp] theorem pendClear_pending (lo hi : Nat) : (pendClear lo hi s).pending = s.pending := rfl

/-! `addJob` -/

@[simp] theorem addJob_regs (j : Job) : (addJob j s).regs = s.regs := rfl
@[simp] theorem addJob_pend (j : Job) : (addJob j s).pend = s.pend := rfl
@[simp] theorem addJob_posted (j : Job) : (addJob j s).posted = s.posted := rfl
@[simp] theorem addJob_time (j : Job) : (addJob j s).time = s.time := rfl
@[simp] theorem addJob_berths (j : Job) : (addJob j s).berths = s.berths := rfl
@[simp] theorem addJob_dec (j : Job) : (addJob j s).dec = s.dec := rfl
@[simp] theorem addJob_bcom (j : Job) : (addJob j s).bcom = s.bcom := rfl
@[simp] theorem addJob_mac (j : Job) : (addJob j s).mac = s.mac := rfl
@[simp] theorem addJob_tables (j : Job) : (addJob j s).tables = s.tables := rfl
@[simp] theorem addJob_svc (j : Job) : (addJob j s).svc = s.svc := rfl
@[simp] theorem addJob_camp (j : Job) : (addJob j s).camp = s.camp := rfl
@[simp] theorem addJob_fns (j : Job) : (addJob j s).fns = s.fns := rfl
@[simp] theorem addJob_ports (j : Job) : (addJob j s).ports = s.ports := rfl
@[simp] theorem addJob_jobs (j : Job) : (addJob j s).jobs = s.jobs ++ [j] := rfl
@[simp] theorem addJob_stevs (j : Job) : (addJob j s).stevs = s.stevs := rfl
@[simp] theorem addJob_landed (j : Job) : (addJob j s).landed = s.landed := rfl
@[simp] theorem addJob_lastServed (j : Job) : (addJob j s).lastServed = s.lastServed := rfl
@[simp] theorem addJob_fabric (j : Job) : (addJob j s).fabric = s.fabric := rfl
@[simp] theorem addJob_keys (j : Job) : (addJob j s).keys = s.keys := rfl
@[simp] theorem addJob_plinth (j : Job) : (addJob j s).plinth = s.plinth := rfl
@[simp] theorem addJob_hold (j : Job) : (addJob j s).hold = s.hold := rfl
@[simp] theorem addJob_claim (j : Job) : (addJob j s).claim = s.claim := rfl
@[simp] theorem addJob_fw (j : Job) : (addJob j s).fw = s.fw := rfl
@[simp] theorem addJob_flash (j : Job) : (addJob j s).flash = s.flash := rfl
@[simp] theorem addJob_otp (j : Job) : (addJob j s).otp = s.otp := rfl
@[simp] theorem addJob_start (j : Job) : (addJob j s).start = s.start := rfl
@[simp] theorem addJob_mgmt (j : Job) : (addJob j s).mgmt = s.mgmt := rfl
@[simp] theorem addJob_pins (j : Job) : (addJob j s).pins = s.pins := rfl
@[simp] theorem addJob_outs (j : Job) : (addJob j s).outs = s.outs := rfl
@[simp] theorem addJob_draws (j : Job) : (addJob j s).draws = s.draws := rfl
@[simp] theorem addJob_pending (j : Job) : (addJob j s).pending = s.pending := rfl

/-! `modFn` -/

@[simp] theorem modFn_regs (n : Nat) (g : FnS → FnS) : (modFn n g s).regs = s.regs := rfl
@[simp] theorem modFn_pend (n : Nat) (g : FnS → FnS) : (modFn n g s).pend = s.pend := rfl
@[simp] theorem modFn_posted (n : Nat) (g : FnS → FnS) : (modFn n g s).posted = s.posted := rfl
@[simp] theorem modFn_time (n : Nat) (g : FnS → FnS) : (modFn n g s).time = s.time := rfl
@[simp] theorem modFn_berths (n : Nat) (g : FnS → FnS) : (modFn n g s).berths = s.berths := rfl
@[simp] theorem modFn_dec (n : Nat) (g : FnS → FnS) : (modFn n g s).dec = s.dec := rfl
@[simp] theorem modFn_bcom (n : Nat) (g : FnS → FnS) : (modFn n g s).bcom = s.bcom := rfl
@[simp] theorem modFn_mac (n : Nat) (g : FnS → FnS) : (modFn n g s).mac = s.mac := rfl
@[simp] theorem modFn_tables (n : Nat) (g : FnS → FnS) : (modFn n g s).tables = s.tables := rfl
@[simp] theorem modFn_svc (n : Nat) (g : FnS → FnS) : (modFn n g s).svc = s.svc := rfl
@[simp] theorem modFn_camp (n : Nat) (g : FnS → FnS) : (modFn n g s).camp = s.camp := rfl
@[simp] theorem modFn_fns (n : Nat) (g : FnS → FnS) : (modFn n g s).fns = s.fns.modify n g := rfl
@[simp] theorem modFn_ports (n : Nat) (g : FnS → FnS) : (modFn n g s).ports = s.ports := rfl
@[simp] theorem modFn_jobs (n : Nat) (g : FnS → FnS) : (modFn n g s).jobs = s.jobs := rfl
@[simp] theorem modFn_stevs (n : Nat) (g : FnS → FnS) : (modFn n g s).stevs = s.stevs := rfl
@[simp] theorem modFn_landed (n : Nat) (g : FnS → FnS) : (modFn n g s).landed = s.landed := rfl
@[simp] theorem modFn_lastServed (n : Nat) (g : FnS → FnS) : (modFn n g s).lastServed = s.lastServed := rfl
@[simp] theorem modFn_fabric (n : Nat) (g : FnS → FnS) : (modFn n g s).fabric = s.fabric := rfl
@[simp] theorem modFn_keys (n : Nat) (g : FnS → FnS) : (modFn n g s).keys = s.keys := rfl
@[simp] theorem modFn_plinth (n : Nat) (g : FnS → FnS) : (modFn n g s).plinth = s.plinth := rfl
@[simp] theorem modFn_hold (n : Nat) (g : FnS → FnS) : (modFn n g s).hold = s.hold := rfl
@[simp] theorem modFn_claim (n : Nat) (g : FnS → FnS) : (modFn n g s).claim = s.claim := rfl
@[simp] theorem modFn_fw (n : Nat) (g : FnS → FnS) : (modFn n g s).fw = s.fw := rfl
@[simp] theorem modFn_flash (n : Nat) (g : FnS → FnS) : (modFn n g s).flash = s.flash := rfl
@[simp] theorem modFn_otp (n : Nat) (g : FnS → FnS) : (modFn n g s).otp = s.otp := rfl
@[simp] theorem modFn_start (n : Nat) (g : FnS → FnS) : (modFn n g s).start = s.start := rfl
@[simp] theorem modFn_mgmt (n : Nat) (g : FnS → FnS) : (modFn n g s).mgmt = s.mgmt := rfl
@[simp] theorem modFn_pins (n : Nat) (g : FnS → FnS) : (modFn n g s).pins = s.pins := rfl
@[simp] theorem modFn_outs (n : Nat) (g : FnS → FnS) : (modFn n g s).outs = s.outs := rfl
@[simp] theorem modFn_draws (n : Nat) (g : FnS → FnS) : (modFn n g s).draws = s.draws := rfl
@[simp] theorem modFn_pending (n : Nat) (g : FnS → FnS) : (modFn n g s).pending = s.pending := rfl

/-! `modRing` -/

@[simp] theorem modRing_regs (n r : Nat) (g : RingS → RingS) : (modRing n r g s).regs = s.regs := rfl
@[simp] theorem modRing_pend (n r : Nat) (g : RingS → RingS) : (modRing n r g s).pend = s.pend := rfl
@[simp] theorem modRing_posted (n r : Nat) (g : RingS → RingS) : (modRing n r g s).posted = s.posted := rfl
@[simp] theorem modRing_time (n r : Nat) (g : RingS → RingS) : (modRing n r g s).time = s.time := rfl
@[simp] theorem modRing_berths (n r : Nat) (g : RingS → RingS) : (modRing n r g s).berths = s.berths := rfl
@[simp] theorem modRing_dec (n r : Nat) (g : RingS → RingS) : (modRing n r g s).dec = s.dec := rfl
@[simp] theorem modRing_bcom (n r : Nat) (g : RingS → RingS) : (modRing n r g s).bcom = s.bcom := rfl
@[simp] theorem modRing_mac (n r : Nat) (g : RingS → RingS) : (modRing n r g s).mac = s.mac := rfl
@[simp] theorem modRing_tables (n r : Nat) (g : RingS → RingS) : (modRing n r g s).tables = s.tables := rfl
@[simp] theorem modRing_svc (n r : Nat) (g : RingS → RingS) : (modRing n r g s).svc = s.svc := rfl
@[simp] theorem modRing_camp (n r : Nat) (g : RingS → RingS) : (modRing n r g s).camp = s.camp := rfl
@[simp] theorem modRing_ports (n r : Nat) (g : RingS → RingS) : (modRing n r g s).ports = s.ports := rfl
@[simp] theorem modRing_jobs (n r : Nat) (g : RingS → RingS) : (modRing n r g s).jobs = s.jobs := rfl
@[simp] theorem modRing_stevs (n r : Nat) (g : RingS → RingS) : (modRing n r g s).stevs = s.stevs := rfl
@[simp] theorem modRing_landed (n r : Nat) (g : RingS → RingS) : (modRing n r g s).landed = s.landed := rfl
@[simp] theorem modRing_lastServed (n r : Nat) (g : RingS → RingS) : (modRing n r g s).lastServed = s.lastServed := rfl
@[simp] theorem modRing_fabric (n r : Nat) (g : RingS → RingS) : (modRing n r g s).fabric = s.fabric := rfl
@[simp] theorem modRing_keys (n r : Nat) (g : RingS → RingS) : (modRing n r g s).keys = s.keys := rfl
@[simp] theorem modRing_plinth (n r : Nat) (g : RingS → RingS) : (modRing n r g s).plinth = s.plinth := rfl
@[simp] theorem modRing_hold (n r : Nat) (g : RingS → RingS) : (modRing n r g s).hold = s.hold := rfl
@[simp] theorem modRing_claim (n r : Nat) (g : RingS → RingS) : (modRing n r g s).claim = s.claim := rfl
@[simp] theorem modRing_fw (n r : Nat) (g : RingS → RingS) : (modRing n r g s).fw = s.fw := rfl
@[simp] theorem modRing_flash (n r : Nat) (g : RingS → RingS) : (modRing n r g s).flash = s.flash := rfl
@[simp] theorem modRing_otp (n r : Nat) (g : RingS → RingS) : (modRing n r g s).otp = s.otp := rfl
@[simp] theorem modRing_start (n r : Nat) (g : RingS → RingS) : (modRing n r g s).start = s.start := rfl
@[simp] theorem modRing_mgmt (n r : Nat) (g : RingS → RingS) : (modRing n r g s).mgmt = s.mgmt := rfl
@[simp] theorem modRing_pins (n r : Nat) (g : RingS → RingS) : (modRing n r g s).pins = s.pins := rfl
@[simp] theorem modRing_outs (n r : Nat) (g : RingS → RingS) : (modRing n r g s).outs = s.outs := rfl
@[simp] theorem modRing_draws (n r : Nat) (g : RingS → RingS) : (modRing n r g s).draws = s.draws := rfl
@[simp] theorem modRing_pending (n r : Nat) (g : RingS → RingS) : (modRing n r g s).pending = s.pending := rfl

/-! `modBerth` -/

@[simp] theorem modBerth_regs (n : Nat) (g : BerthS → BerthS) : (modBerth n g s).regs = s.regs := rfl
@[simp] theorem modBerth_pend (n : Nat) (g : BerthS → BerthS) : (modBerth n g s).pend = s.pend := rfl
@[simp] theorem modBerth_posted (n : Nat) (g : BerthS → BerthS) : (modBerth n g s).posted = s.posted := rfl
@[simp] theorem modBerth_time (n : Nat) (g : BerthS → BerthS) : (modBerth n g s).time = s.time := rfl
@[simp] theorem modBerth_berths (n : Nat) (g : BerthS → BerthS) : (modBerth n g s).berths = s.berths.modify n g := rfl
@[simp] theorem modBerth_dec (n : Nat) (g : BerthS → BerthS) : (modBerth n g s).dec = s.dec := rfl
@[simp] theorem modBerth_bcom (n : Nat) (g : BerthS → BerthS) : (modBerth n g s).bcom = s.bcom := rfl
@[simp] theorem modBerth_mac (n : Nat) (g : BerthS → BerthS) : (modBerth n g s).mac = s.mac := rfl
@[simp] theorem modBerth_tables (n : Nat) (g : BerthS → BerthS) : (modBerth n g s).tables = s.tables := rfl
@[simp] theorem modBerth_svc (n : Nat) (g : BerthS → BerthS) : (modBerth n g s).svc = s.svc := rfl
@[simp] theorem modBerth_camp (n : Nat) (g : BerthS → BerthS) : (modBerth n g s).camp = s.camp := rfl
@[simp] theorem modBerth_fns (n : Nat) (g : BerthS → BerthS) : (modBerth n g s).fns = s.fns := rfl
@[simp] theorem modBerth_ports (n : Nat) (g : BerthS → BerthS) : (modBerth n g s).ports = s.ports := rfl
@[simp] theorem modBerth_jobs (n : Nat) (g : BerthS → BerthS) : (modBerth n g s).jobs = s.jobs := rfl
@[simp] theorem modBerth_stevs (n : Nat) (g : BerthS → BerthS) : (modBerth n g s).stevs = s.stevs := rfl
@[simp] theorem modBerth_landed (n : Nat) (g : BerthS → BerthS) : (modBerth n g s).landed = s.landed := rfl
@[simp] theorem modBerth_lastServed (n : Nat) (g : BerthS → BerthS) : (modBerth n g s).lastServed = s.lastServed := rfl
@[simp] theorem modBerth_fabric (n : Nat) (g : BerthS → BerthS) : (modBerth n g s).fabric = s.fabric := rfl
@[simp] theorem modBerth_keys (n : Nat) (g : BerthS → BerthS) : (modBerth n g s).keys = s.keys := rfl
@[simp] theorem modBerth_plinth (n : Nat) (g : BerthS → BerthS) : (modBerth n g s).plinth = s.plinth := rfl
@[simp] theorem modBerth_hold (n : Nat) (g : BerthS → BerthS) : (modBerth n g s).hold = s.hold := rfl
@[simp] theorem modBerth_claim (n : Nat) (g : BerthS → BerthS) : (modBerth n g s).claim = s.claim := rfl
@[simp] theorem modBerth_fw (n : Nat) (g : BerthS → BerthS) : (modBerth n g s).fw = s.fw := rfl
@[simp] theorem modBerth_flash (n : Nat) (g : BerthS → BerthS) : (modBerth n g s).flash = s.flash := rfl
@[simp] theorem modBerth_otp (n : Nat) (g : BerthS → BerthS) : (modBerth n g s).otp = s.otp := rfl
@[simp] theorem modBerth_start (n : Nat) (g : BerthS → BerthS) : (modBerth n g s).start = s.start := rfl
@[simp] theorem modBerth_mgmt (n : Nat) (g : BerthS → BerthS) : (modBerth n g s).mgmt = s.mgmt := rfl
@[simp] theorem modBerth_pins (n : Nat) (g : BerthS → BerthS) : (modBerth n g s).pins = s.pins := rfl
@[simp] theorem modBerth_outs (n : Nat) (g : BerthS → BerthS) : (modBerth n g s).outs = s.outs := rfl
@[simp] theorem modBerth_draws (n : Nat) (g : BerthS → BerthS) : (modBerth n g s).draws = s.draws := rfl
@[simp] theorem modBerth_pending (n : Nat) (g : BerthS → BerthS) : (modBerth n g s).pending = s.pending := rfl

/-! `produce` -/

@[simp] theorem produce_regs (n c : Nat) (e : Entry) : (produce n c e s).regs = s.regs := rfl
@[simp] theorem produce_pend (n c : Nat) (e : Entry) : (produce n c e s).pend = s.pend := rfl
@[simp] theorem produce_posted (n c : Nat) (e : Entry) : (produce n c e s).posted = s.posted := rfl
@[simp] theorem produce_time (n c : Nat) (e : Entry) : (produce n c e s).time = s.time := rfl
@[simp] theorem produce_berths (n c : Nat) (e : Entry) : (produce n c e s).berths = s.berths := rfl
@[simp] theorem produce_dec (n c : Nat) (e : Entry) : (produce n c e s).dec = s.dec := rfl
@[simp] theorem produce_bcom (n c : Nat) (e : Entry) : (produce n c e s).bcom = s.bcom := rfl
@[simp] theorem produce_mac (n c : Nat) (e : Entry) : (produce n c e s).mac = s.mac := rfl
@[simp] theorem produce_tables (n c : Nat) (e : Entry) : (produce n c e s).tables = s.tables := rfl
@[simp] theorem produce_svc (n c : Nat) (e : Entry) : (produce n c e s).svc = s.svc := rfl
@[simp] theorem produce_camp (n c : Nat) (e : Entry) : (produce n c e s).camp = s.camp := rfl
@[simp] theorem produce_ports (n c : Nat) (e : Entry) : (produce n c e s).ports = s.ports := rfl
@[simp] theorem produce_jobs (n c : Nat) (e : Entry) : (produce n c e s).jobs = s.jobs := rfl
@[simp] theorem produce_stevs (n c : Nat) (e : Entry) : (produce n c e s).stevs = s.stevs := rfl
@[simp] theorem produce_landed (n c : Nat) (e : Entry) : (produce n c e s).landed = s.landed := rfl
@[simp] theorem produce_lastServed (n c : Nat) (e : Entry) : (produce n c e s).lastServed = s.lastServed := rfl
@[simp] theorem produce_fabric (n c : Nat) (e : Entry) : (produce n c e s).fabric = s.fabric := rfl
@[simp] theorem produce_keys (n c : Nat) (e : Entry) : (produce n c e s).keys = s.keys := rfl
@[simp] theorem produce_plinth (n c : Nat) (e : Entry) : (produce n c e s).plinth = s.plinth := rfl
@[simp] theorem produce_hold (n c : Nat) (e : Entry) : (produce n c e s).hold = s.hold := rfl
@[simp] theorem produce_claim (n c : Nat) (e : Entry) : (produce n c e s).claim = s.claim := rfl
@[simp] theorem produce_fw (n c : Nat) (e : Entry) : (produce n c e s).fw = s.fw := rfl
@[simp] theorem produce_flash (n c : Nat) (e : Entry) : (produce n c e s).flash = s.flash := rfl
@[simp] theorem produce_otp (n c : Nat) (e : Entry) : (produce n c e s).otp = s.otp := rfl
@[simp] theorem produce_start (n c : Nat) (e : Entry) : (produce n c e s).start = s.start := rfl
@[simp] theorem produce_mgmt (n c : Nat) (e : Entry) : (produce n c e s).mgmt = s.mgmt := rfl
@[simp] theorem produce_pins (n c : Nat) (e : Entry) : (produce n c e s).pins = s.pins := rfl
@[simp] theorem produce_outs (n c : Nat) (e : Entry) : (produce n c e s).outs = s.outs := rfl
@[simp] theorem produce_draws (n c : Nat) (e : Entry) : (produce n c e s).draws = s.draws := rfl
@[simp] theorem produce_pending (n c : Nat) (e : Entry) : (produce n c e s).pending = s.pending := rfl

/-! `modMac` -/

@[simp] theorem modMac_regs (g : MacS → MacS) : (modMac g s).regs = s.regs := rfl
@[simp] theorem modMac_pend (g : MacS → MacS) : (modMac g s).pend = s.pend := rfl
@[simp] theorem modMac_posted (g : MacS → MacS) : (modMac g s).posted = s.posted := rfl
@[simp] theorem modMac_time (g : MacS → MacS) : (modMac g s).time = s.time := rfl
@[simp] theorem modMac_berths (g : MacS → MacS) : (modMac g s).berths = s.berths := rfl
@[simp] theorem modMac_dec (g : MacS → MacS) : (modMac g s).dec = s.dec := rfl
@[simp] theorem modMac_bcom (g : MacS → MacS) : (modMac g s).bcom = s.bcom := rfl
@[simp] theorem modMac_mac (g : MacS → MacS) : (modMac g s).mac = g s.mac := rfl
@[simp] theorem modMac_tables (g : MacS → MacS) : (modMac g s).tables = s.tables := rfl
@[simp] theorem modMac_svc (g : MacS → MacS) : (modMac g s).svc = s.svc := rfl
@[simp] theorem modMac_camp (g : MacS → MacS) : (modMac g s).camp = s.camp := rfl
@[simp] theorem modMac_fns (g : MacS → MacS) : (modMac g s).fns = s.fns := rfl
@[simp] theorem modMac_ports (g : MacS → MacS) : (modMac g s).ports = s.ports := rfl
@[simp] theorem modMac_jobs (g : MacS → MacS) : (modMac g s).jobs = s.jobs := rfl
@[simp] theorem modMac_stevs (g : MacS → MacS) : (modMac g s).stevs = s.stevs := rfl
@[simp] theorem modMac_landed (g : MacS → MacS) : (modMac g s).landed = s.landed := rfl
@[simp] theorem modMac_lastServed (g : MacS → MacS) : (modMac g s).lastServed = s.lastServed := rfl
@[simp] theorem modMac_fabric (g : MacS → MacS) : (modMac g s).fabric = s.fabric := rfl
@[simp] theorem modMac_keys (g : MacS → MacS) : (modMac g s).keys = s.keys := rfl
@[simp] theorem modMac_plinth (g : MacS → MacS) : (modMac g s).plinth = s.plinth := rfl
@[simp] theorem modMac_hold (g : MacS → MacS) : (modMac g s).hold = s.hold := rfl
@[simp] theorem modMac_claim (g : MacS → MacS) : (modMac g s).claim = s.claim := rfl
@[simp] theorem modMac_fw (g : MacS → MacS) : (modMac g s).fw = s.fw := rfl
@[simp] theorem modMac_flash (g : MacS → MacS) : (modMac g s).flash = s.flash := rfl
@[simp] theorem modMac_otp (g : MacS → MacS) : (modMac g s).otp = s.otp := rfl
@[simp] theorem modMac_start (g : MacS → MacS) : (modMac g s).start = s.start := rfl
@[simp] theorem modMac_mgmt (g : MacS → MacS) : (modMac g s).mgmt = s.mgmt := rfl
@[simp] theorem modMac_pins (g : MacS → MacS) : (modMac g s).pins = s.pins := rfl
@[simp] theorem modMac_outs (g : MacS → MacS) : (modMac g s).outs = s.outs := rfl
@[simp] theorem modMac_draws (g : MacS → MacS) : (modMac g s).draws = s.draws := rfl
@[simp] theorem modMac_pending (g : MacS → MacS) : (modMac g s).pending = s.pending := rfl

/-! `modCampS` -/

@[simp] theorem modCampS_regs (g : CampS → CampS) : (modCampS g s).regs = s.regs := rfl
@[simp] theorem modCampS_pend (g : CampS → CampS) : (modCampS g s).pend = s.pend := rfl
@[simp] theorem modCampS_posted (g : CampS → CampS) : (modCampS g s).posted = s.posted := rfl
@[simp] theorem modCampS_time (g : CampS → CampS) : (modCampS g s).time = s.time := rfl
@[simp] theorem modCampS_berths (g : CampS → CampS) : (modCampS g s).berths = s.berths := rfl
@[simp] theorem modCampS_dec (g : CampS → CampS) : (modCampS g s).dec = s.dec := rfl
@[simp] theorem modCampS_bcom (g : CampS → CampS) : (modCampS g s).bcom = s.bcom := rfl
@[simp] theorem modCampS_mac (g : CampS → CampS) : (modCampS g s).mac = s.mac := rfl
@[simp] theorem modCampS_tables (g : CampS → CampS) : (modCampS g s).tables = s.tables := rfl
@[simp] theorem modCampS_svc (g : CampS → CampS) : (modCampS g s).svc = s.svc := rfl
@[simp] theorem modCampS_camp (g : CampS → CampS) : (modCampS g s).camp = g s.camp := rfl
@[simp] theorem modCampS_fns (g : CampS → CampS) : (modCampS g s).fns = s.fns := rfl
@[simp] theorem modCampS_ports (g : CampS → CampS) : (modCampS g s).ports = s.ports := rfl
@[simp] theorem modCampS_jobs (g : CampS → CampS) : (modCampS g s).jobs = s.jobs := rfl
@[simp] theorem modCampS_stevs (g : CampS → CampS) : (modCampS g s).stevs = s.stevs := rfl
@[simp] theorem modCampS_landed (g : CampS → CampS) : (modCampS g s).landed = s.landed := rfl
@[simp] theorem modCampS_lastServed (g : CampS → CampS) : (modCampS g s).lastServed = s.lastServed := rfl
@[simp] theorem modCampS_fabric (g : CampS → CampS) : (modCampS g s).fabric = s.fabric := rfl
@[simp] theorem modCampS_keys (g : CampS → CampS) : (modCampS g s).keys = s.keys := rfl
@[simp] theorem modCampS_plinth (g : CampS → CampS) : (modCampS g s).plinth = s.plinth := rfl
@[simp] theorem modCampS_hold (g : CampS → CampS) : (modCampS g s).hold = s.hold := rfl
@[simp] theorem modCampS_claim (g : CampS → CampS) : (modCampS g s).claim = s.claim := rfl
@[simp] theorem modCampS_fw (g : CampS → CampS) : (modCampS g s).fw = s.fw := rfl
@[simp] theorem modCampS_flash (g : CampS → CampS) : (modCampS g s).flash = s.flash := rfl
@[simp] theorem modCampS_otp (g : CampS → CampS) : (modCampS g s).otp = s.otp := rfl
@[simp] theorem modCampS_start (g : CampS → CampS) : (modCampS g s).start = s.start := rfl
@[simp] theorem modCampS_mgmt (g : CampS → CampS) : (modCampS g s).mgmt = s.mgmt := rfl
@[simp] theorem modCampS_pins (g : CampS → CampS) : (modCampS g s).pins = s.pins := rfl
@[simp] theorem modCampS_outs (g : CampS → CampS) : (modCampS g s).outs = s.outs := rfl
@[simp] theorem modCampS_draws (g : CampS → CampS) : (modCampS g s).draws = s.draws := rfl
@[simp] theorem modCampS_pending (g : CampS → CampS) : (modCampS g s).pending = s.pending := rfl

/-! `modClaim` -/

@[simp] theorem modClaim_regs (g : ClaimS → ClaimS) : (modClaim g s).regs = s.regs := rfl
@[simp] theorem modClaim_pend (g : ClaimS → ClaimS) : (modClaim g s).pend = s.pend := rfl
@[simp] theorem modClaim_posted (g : ClaimS → ClaimS) : (modClaim g s).posted = s.posted := rfl
@[simp] theorem modClaim_time (g : ClaimS → ClaimS) : (modClaim g s).time = s.time := rfl
@[simp] theorem modClaim_berths (g : ClaimS → ClaimS) : (modClaim g s).berths = s.berths := rfl
@[simp] theorem modClaim_dec (g : ClaimS → ClaimS) : (modClaim g s).dec = s.dec := rfl
@[simp] theorem modClaim_bcom (g : ClaimS → ClaimS) : (modClaim g s).bcom = s.bcom := rfl
@[simp] theorem modClaim_mac (g : ClaimS → ClaimS) : (modClaim g s).mac = s.mac := rfl
@[simp] theorem modClaim_tables (g : ClaimS → ClaimS) : (modClaim g s).tables = s.tables := rfl
@[simp] theorem modClaim_svc (g : ClaimS → ClaimS) : (modClaim g s).svc = s.svc := rfl
@[simp] theorem modClaim_camp (g : ClaimS → ClaimS) : (modClaim g s).camp = s.camp := rfl
@[simp] theorem modClaim_fns (g : ClaimS → ClaimS) : (modClaim g s).fns = s.fns := rfl
@[simp] theorem modClaim_ports (g : ClaimS → ClaimS) : (modClaim g s).ports = s.ports := rfl
@[simp] theorem modClaim_jobs (g : ClaimS → ClaimS) : (modClaim g s).jobs = s.jobs := rfl
@[simp] theorem modClaim_stevs (g : ClaimS → ClaimS) : (modClaim g s).stevs = s.stevs := rfl
@[simp] theorem modClaim_landed (g : ClaimS → ClaimS) : (modClaim g s).landed = s.landed := rfl
@[simp] theorem modClaim_lastServed (g : ClaimS → ClaimS) : (modClaim g s).lastServed = s.lastServed := rfl
@[simp] theorem modClaim_fabric (g : ClaimS → ClaimS) : (modClaim g s).fabric = s.fabric := rfl
@[simp] theorem modClaim_keys (g : ClaimS → ClaimS) : (modClaim g s).keys = s.keys := rfl
@[simp] theorem modClaim_plinth (g : ClaimS → ClaimS) : (modClaim g s).plinth = s.plinth := rfl
@[simp] theorem modClaim_hold (g : ClaimS → ClaimS) : (modClaim g s).hold = s.hold := rfl
@[simp] theorem modClaim_claim (g : ClaimS → ClaimS) : (modClaim g s).claim = g s.claim := rfl
@[simp] theorem modClaim_fw (g : ClaimS → ClaimS) : (modClaim g s).fw = s.fw := rfl
@[simp] theorem modClaim_flash (g : ClaimS → ClaimS) : (modClaim g s).flash = s.flash := rfl
@[simp] theorem modClaim_otp (g : ClaimS → ClaimS) : (modClaim g s).otp = s.otp := rfl
@[simp] theorem modClaim_start (g : ClaimS → ClaimS) : (modClaim g s).start = s.start := rfl
@[simp] theorem modClaim_mgmt (g : ClaimS → ClaimS) : (modClaim g s).mgmt = s.mgmt := rfl
@[simp] theorem modClaim_pins (g : ClaimS → ClaimS) : (modClaim g s).pins = s.pins := rfl
@[simp] theorem modClaim_outs (g : ClaimS → ClaimS) : (modClaim g s).outs = s.outs := rfl
@[simp] theorem modClaim_draws (g : ClaimS → ClaimS) : (modClaim g s).draws = s.draws := rfl
@[simp] theorem modClaim_pending (g : ClaimS → ClaimS) : (modClaim g s).pending = s.pending := rfl

/-! `modFabric` -/

@[simp] theorem modFabric_regs (g : FabricS → FabricS) : (modFabric g s).regs = s.regs := rfl
@[simp] theorem modFabric_pend (g : FabricS → FabricS) : (modFabric g s).pend = s.pend := rfl
@[simp] theorem modFabric_posted (g : FabricS → FabricS) : (modFabric g s).posted = s.posted := rfl
@[simp] theorem modFabric_time (g : FabricS → FabricS) : (modFabric g s).time = s.time := rfl
@[simp] theorem modFabric_berths (g : FabricS → FabricS) : (modFabric g s).berths = s.berths := rfl
@[simp] theorem modFabric_dec (g : FabricS → FabricS) : (modFabric g s).dec = s.dec := rfl
@[simp] theorem modFabric_bcom (g : FabricS → FabricS) : (modFabric g s).bcom = s.bcom := rfl
@[simp] theorem modFabric_mac (g : FabricS → FabricS) : (modFabric g s).mac = s.mac := rfl
@[simp] theorem modFabric_tables (g : FabricS → FabricS) : (modFabric g s).tables = s.tables := rfl
@[simp] theorem modFabric_svc (g : FabricS → FabricS) : (modFabric g s).svc = s.svc := rfl
@[simp] theorem modFabric_camp (g : FabricS → FabricS) : (modFabric g s).camp = s.camp := rfl
@[simp] theorem modFabric_fns (g : FabricS → FabricS) : (modFabric g s).fns = s.fns := rfl
@[simp] theorem modFabric_ports (g : FabricS → FabricS) : (modFabric g s).ports = s.ports := rfl
@[simp] theorem modFabric_jobs (g : FabricS → FabricS) : (modFabric g s).jobs = s.jobs := rfl
@[simp] theorem modFabric_stevs (g : FabricS → FabricS) : (modFabric g s).stevs = s.stevs := rfl
@[simp] theorem modFabric_landed (g : FabricS → FabricS) : (modFabric g s).landed = s.landed := rfl
@[simp] theorem modFabric_lastServed (g : FabricS → FabricS) : (modFabric g s).lastServed = s.lastServed := rfl
@[simp] theorem modFabric_fabric (g : FabricS → FabricS) : (modFabric g s).fabric = g s.fabric := rfl
@[simp] theorem modFabric_keys (g : FabricS → FabricS) : (modFabric g s).keys = s.keys := rfl
@[simp] theorem modFabric_plinth (g : FabricS → FabricS) : (modFabric g s).plinth = s.plinth := rfl
@[simp] theorem modFabric_hold (g : FabricS → FabricS) : (modFabric g s).hold = s.hold := rfl
@[simp] theorem modFabric_claim (g : FabricS → FabricS) : (modFabric g s).claim = s.claim := rfl
@[simp] theorem modFabric_fw (g : FabricS → FabricS) : (modFabric g s).fw = s.fw := rfl
@[simp] theorem modFabric_flash (g : FabricS → FabricS) : (modFabric g s).flash = s.flash := rfl
@[simp] theorem modFabric_otp (g : FabricS → FabricS) : (modFabric g s).otp = s.otp := rfl
@[simp] theorem modFabric_start (g : FabricS → FabricS) : (modFabric g s).start = s.start := rfl
@[simp] theorem modFabric_mgmt (g : FabricS → FabricS) : (modFabric g s).mgmt = s.mgmt := rfl
@[simp] theorem modFabric_pins (g : FabricS → FabricS) : (modFabric g s).pins = s.pins := rfl
@[simp] theorem modFabric_outs (g : FabricS → FabricS) : (modFabric g s).outs = s.outs := rfl
@[simp] theorem modFabric_draws (g : FabricS → FabricS) : (modFabric g s).draws = s.draws := rfl
@[simp] theorem modFabric_pending (g : FabricS → FabricS) : (modFabric g s).pending = s.pending := rfl

/-! `modFw` -/

@[simp] theorem modFw_regs (g : FwS → FwS) : (modFw g s).regs = s.regs := rfl
@[simp] theorem modFw_pend (g : FwS → FwS) : (modFw g s).pend = s.pend := rfl
@[simp] theorem modFw_posted (g : FwS → FwS) : (modFw g s).posted = s.posted := rfl
@[simp] theorem modFw_time (g : FwS → FwS) : (modFw g s).time = s.time := rfl
@[simp] theorem modFw_berths (g : FwS → FwS) : (modFw g s).berths = s.berths := rfl
@[simp] theorem modFw_dec (g : FwS → FwS) : (modFw g s).dec = s.dec := rfl
@[simp] theorem modFw_bcom (g : FwS → FwS) : (modFw g s).bcom = s.bcom := rfl
@[simp] theorem modFw_mac (g : FwS → FwS) : (modFw g s).mac = s.mac := rfl
@[simp] theorem modFw_tables (g : FwS → FwS) : (modFw g s).tables = s.tables := rfl
@[simp] theorem modFw_svc (g : FwS → FwS) : (modFw g s).svc = s.svc := rfl
@[simp] theorem modFw_camp (g : FwS → FwS) : (modFw g s).camp = s.camp := rfl
@[simp] theorem modFw_fns (g : FwS → FwS) : (modFw g s).fns = s.fns := rfl
@[simp] theorem modFw_ports (g : FwS → FwS) : (modFw g s).ports = s.ports := rfl
@[simp] theorem modFw_jobs (g : FwS → FwS) : (modFw g s).jobs = s.jobs := rfl
@[simp] theorem modFw_stevs (g : FwS → FwS) : (modFw g s).stevs = s.stevs := rfl
@[simp] theorem modFw_landed (g : FwS → FwS) : (modFw g s).landed = s.landed := rfl
@[simp] theorem modFw_lastServed (g : FwS → FwS) : (modFw g s).lastServed = s.lastServed := rfl
@[simp] theorem modFw_fabric (g : FwS → FwS) : (modFw g s).fabric = s.fabric := rfl
@[simp] theorem modFw_keys (g : FwS → FwS) : (modFw g s).keys = s.keys := rfl
@[simp] theorem modFw_plinth (g : FwS → FwS) : (modFw g s).plinth = s.plinth := rfl
@[simp] theorem modFw_hold (g : FwS → FwS) : (modFw g s).hold = s.hold := rfl
@[simp] theorem modFw_claim (g : FwS → FwS) : (modFw g s).claim = s.claim := rfl
@[simp] theorem modFw_fw (g : FwS → FwS) : (modFw g s).fw = g s.fw := rfl
@[simp] theorem modFw_flash (g : FwS → FwS) : (modFw g s).flash = s.flash := rfl
@[simp] theorem modFw_otp (g : FwS → FwS) : (modFw g s).otp = s.otp := rfl
@[simp] theorem modFw_start (g : FwS → FwS) : (modFw g s).start = s.start := rfl
@[simp] theorem modFw_mgmt (g : FwS → FwS) : (modFw g s).mgmt = s.mgmt := rfl
@[simp] theorem modFw_pins (g : FwS → FwS) : (modFw g s).pins = s.pins := rfl
@[simp] theorem modFw_outs (g : FwS → FwS) : (modFw g s).outs = s.outs := rfl
@[simp] theorem modFw_draws (g : FwS → FwS) : (modFw g s).draws = s.draws := rfl
@[simp] theorem modFw_pending (g : FwS → FwS) : (modFw g s).pending = s.pending := rfl

/-! `modHold` -/

@[simp] theorem modHold_regs (g : HoldS → HoldS) : (modHold g s).regs = s.regs := rfl
@[simp] theorem modHold_pend (g : HoldS → HoldS) : (modHold g s).pend = s.pend := rfl
@[simp] theorem modHold_posted (g : HoldS → HoldS) : (modHold g s).posted = s.posted := rfl
@[simp] theorem modHold_time (g : HoldS → HoldS) : (modHold g s).time = s.time := rfl
@[simp] theorem modHold_berths (g : HoldS → HoldS) : (modHold g s).berths = s.berths := rfl
@[simp] theorem modHold_dec (g : HoldS → HoldS) : (modHold g s).dec = s.dec := rfl
@[simp] theorem modHold_bcom (g : HoldS → HoldS) : (modHold g s).bcom = s.bcom := rfl
@[simp] theorem modHold_mac (g : HoldS → HoldS) : (modHold g s).mac = s.mac := rfl
@[simp] theorem modHold_tables (g : HoldS → HoldS) : (modHold g s).tables = s.tables := rfl
@[simp] theorem modHold_svc (g : HoldS → HoldS) : (modHold g s).svc = s.svc := rfl
@[simp] theorem modHold_camp (g : HoldS → HoldS) : (modHold g s).camp = s.camp := rfl
@[simp] theorem modHold_fns (g : HoldS → HoldS) : (modHold g s).fns = s.fns := rfl
@[simp] theorem modHold_ports (g : HoldS → HoldS) : (modHold g s).ports = s.ports := rfl
@[simp] theorem modHold_jobs (g : HoldS → HoldS) : (modHold g s).jobs = s.jobs := rfl
@[simp] theorem modHold_stevs (g : HoldS → HoldS) : (modHold g s).stevs = s.stevs := rfl
@[simp] theorem modHold_landed (g : HoldS → HoldS) : (modHold g s).landed = s.landed := rfl
@[simp] theorem modHold_lastServed (g : HoldS → HoldS) : (modHold g s).lastServed = s.lastServed := rfl
@[simp] theorem modHold_fabric (g : HoldS → HoldS) : (modHold g s).fabric = s.fabric := rfl
@[simp] theorem modHold_keys (g : HoldS → HoldS) : (modHold g s).keys = s.keys := rfl
@[simp] theorem modHold_plinth (g : HoldS → HoldS) : (modHold g s).plinth = s.plinth := rfl
@[simp] theorem modHold_hold (g : HoldS → HoldS) : (modHold g s).hold = g s.hold := rfl
@[simp] theorem modHold_claim (g : HoldS → HoldS) : (modHold g s).claim = s.claim := rfl
@[simp] theorem modHold_fw (g : HoldS → HoldS) : (modHold g s).fw = s.fw := rfl
@[simp] theorem modHold_flash (g : HoldS → HoldS) : (modHold g s).flash = s.flash := rfl
@[simp] theorem modHold_otp (g : HoldS → HoldS) : (modHold g s).otp = s.otp := rfl
@[simp] theorem modHold_start (g : HoldS → HoldS) : (modHold g s).start = s.start := rfl
@[simp] theorem modHold_mgmt (g : HoldS → HoldS) : (modHold g s).mgmt = s.mgmt := rfl
@[simp] theorem modHold_pins (g : HoldS → HoldS) : (modHold g s).pins = s.pins := rfl
@[simp] theorem modHold_outs (g : HoldS → HoldS) : (modHold g s).outs = s.outs := rfl
@[simp] theorem modHold_draws (g : HoldS → HoldS) : (modHold g s).draws = s.draws := rfl
@[simp] theorem modHold_pending (g : HoldS → HoldS) : (modHold g s).pending = s.pending := rfl

/-! `modKeys` -/

@[simp] theorem modKeys_regs (g : KeysS → KeysS) : (modKeys g s).regs = s.regs := rfl
@[simp] theorem modKeys_pend (g : KeysS → KeysS) : (modKeys g s).pend = s.pend := rfl
@[simp] theorem modKeys_posted (g : KeysS → KeysS) : (modKeys g s).posted = s.posted := rfl
@[simp] theorem modKeys_time (g : KeysS → KeysS) : (modKeys g s).time = s.time := rfl
@[simp] theorem modKeys_berths (g : KeysS → KeysS) : (modKeys g s).berths = s.berths := rfl
@[simp] theorem modKeys_dec (g : KeysS → KeysS) : (modKeys g s).dec = s.dec := rfl
@[simp] theorem modKeys_bcom (g : KeysS → KeysS) : (modKeys g s).bcom = s.bcom := rfl
@[simp] theorem modKeys_mac (g : KeysS → KeysS) : (modKeys g s).mac = s.mac := rfl
@[simp] theorem modKeys_tables (g : KeysS → KeysS) : (modKeys g s).tables = s.tables := rfl
@[simp] theorem modKeys_svc (g : KeysS → KeysS) : (modKeys g s).svc = s.svc := rfl
@[simp] theorem modKeys_camp (g : KeysS → KeysS) : (modKeys g s).camp = s.camp := rfl
@[simp] theorem modKeys_fns (g : KeysS → KeysS) : (modKeys g s).fns = s.fns := rfl
@[simp] theorem modKeys_ports (g : KeysS → KeysS) : (modKeys g s).ports = s.ports := rfl
@[simp] theorem modKeys_jobs (g : KeysS → KeysS) : (modKeys g s).jobs = s.jobs := rfl
@[simp] theorem modKeys_stevs (g : KeysS → KeysS) : (modKeys g s).stevs = s.stevs := rfl
@[simp] theorem modKeys_landed (g : KeysS → KeysS) : (modKeys g s).landed = s.landed := rfl
@[simp] theorem modKeys_lastServed (g : KeysS → KeysS) : (modKeys g s).lastServed = s.lastServed := rfl
@[simp] theorem modKeys_fabric (g : KeysS → KeysS) : (modKeys g s).fabric = s.fabric := rfl
@[simp] theorem modKeys_keys (g : KeysS → KeysS) : (modKeys g s).keys = g s.keys := rfl
@[simp] theorem modKeys_plinth (g : KeysS → KeysS) : (modKeys g s).plinth = s.plinth := rfl
@[simp] theorem modKeys_hold (g : KeysS → KeysS) : (modKeys g s).hold = s.hold := rfl
@[simp] theorem modKeys_claim (g : KeysS → KeysS) : (modKeys g s).claim = s.claim := rfl
@[simp] theorem modKeys_fw (g : KeysS → KeysS) : (modKeys g s).fw = s.fw := rfl
@[simp] theorem modKeys_flash (g : KeysS → KeysS) : (modKeys g s).flash = s.flash := rfl
@[simp] theorem modKeys_otp (g : KeysS → KeysS) : (modKeys g s).otp = s.otp := rfl
@[simp] theorem modKeys_start (g : KeysS → KeysS) : (modKeys g s).start = s.start := rfl
@[simp] theorem modKeys_mgmt (g : KeysS → KeysS) : (modKeys g s).mgmt = s.mgmt := rfl
@[simp] theorem modKeys_pins (g : KeysS → KeysS) : (modKeys g s).pins = s.pins := rfl
@[simp] theorem modKeys_outs (g : KeysS → KeysS) : (modKeys g s).outs = s.outs := rfl
@[simp] theorem modKeys_draws (g : KeysS → KeysS) : (modKeys g s).draws = s.draws := rfl
@[simp] theorem modKeys_pending (g : KeysS → KeysS) : (modKeys g s).pending = s.pending := rfl

/-! `modMgmt` -/

@[simp] theorem modMgmt_regs (g : MgmtS → MgmtS) : (modMgmt g s).regs = s.regs := rfl
@[simp] theorem modMgmt_pend (g : MgmtS → MgmtS) : (modMgmt g s).pend = s.pend := rfl
@[simp] theorem modMgmt_posted (g : MgmtS → MgmtS) : (modMgmt g s).posted = s.posted := rfl
@[simp] theorem modMgmt_time (g : MgmtS → MgmtS) : (modMgmt g s).time = s.time := rfl
@[simp] theorem modMgmt_berths (g : MgmtS → MgmtS) : (modMgmt g s).berths = s.berths := rfl
@[simp] theorem modMgmt_dec (g : MgmtS → MgmtS) : (modMgmt g s).dec = s.dec := rfl
@[simp] theorem modMgmt_bcom (g : MgmtS → MgmtS) : (modMgmt g s).bcom = s.bcom := rfl
@[simp] theorem modMgmt_mac (g : MgmtS → MgmtS) : (modMgmt g s).mac = s.mac := rfl
@[simp] theorem modMgmt_tables (g : MgmtS → MgmtS) : (modMgmt g s).tables = s.tables := rfl
@[simp] theorem modMgmt_svc (g : MgmtS → MgmtS) : (modMgmt g s).svc = s.svc := rfl
@[simp] theorem modMgmt_camp (g : MgmtS → MgmtS) : (modMgmt g s).camp = s.camp := rfl
@[simp] theorem modMgmt_fns (g : MgmtS → MgmtS) : (modMgmt g s).fns = s.fns := rfl
@[simp] theorem modMgmt_ports (g : MgmtS → MgmtS) : (modMgmt g s).ports = s.ports := rfl
@[simp] theorem modMgmt_jobs (g : MgmtS → MgmtS) : (modMgmt g s).jobs = s.jobs := rfl
@[simp] theorem modMgmt_stevs (g : MgmtS → MgmtS) : (modMgmt g s).stevs = s.stevs := rfl
@[simp] theorem modMgmt_landed (g : MgmtS → MgmtS) : (modMgmt g s).landed = s.landed := rfl
@[simp] theorem modMgmt_lastServed (g : MgmtS → MgmtS) : (modMgmt g s).lastServed = s.lastServed := rfl
@[simp] theorem modMgmt_fabric (g : MgmtS → MgmtS) : (modMgmt g s).fabric = s.fabric := rfl
@[simp] theorem modMgmt_keys (g : MgmtS → MgmtS) : (modMgmt g s).keys = s.keys := rfl
@[simp] theorem modMgmt_plinth (g : MgmtS → MgmtS) : (modMgmt g s).plinth = s.plinth := rfl
@[simp] theorem modMgmt_hold (g : MgmtS → MgmtS) : (modMgmt g s).hold = s.hold := rfl
@[simp] theorem modMgmt_claim (g : MgmtS → MgmtS) : (modMgmt g s).claim = s.claim := rfl
@[simp] theorem modMgmt_fw (g : MgmtS → MgmtS) : (modMgmt g s).fw = s.fw := rfl
@[simp] theorem modMgmt_flash (g : MgmtS → MgmtS) : (modMgmt g s).flash = s.flash := rfl
@[simp] theorem modMgmt_otp (g : MgmtS → MgmtS) : (modMgmt g s).otp = s.otp := rfl
@[simp] theorem modMgmt_start (g : MgmtS → MgmtS) : (modMgmt g s).start = s.start := rfl
@[simp] theorem modMgmt_mgmt (g : MgmtS → MgmtS) : (modMgmt g s).mgmt = g s.mgmt := rfl
@[simp] theorem modMgmt_pins (g : MgmtS → MgmtS) : (modMgmt g s).pins = s.pins := rfl
@[simp] theorem modMgmt_outs (g : MgmtS → MgmtS) : (modMgmt g s).outs = s.outs := rfl
@[simp] theorem modMgmt_draws (g : MgmtS → MgmtS) : (modMgmt g s).draws = s.draws := rfl
@[simp] theorem modMgmt_pending (g : MgmtS → MgmtS) : (modMgmt g s).pending = s.pending := rfl

/-! `modPlinth` -/

@[simp] theorem modPlinth_regs (g : PlinthS → PlinthS) : (modPlinth g s).regs = s.regs := rfl
@[simp] theorem modPlinth_pend (g : PlinthS → PlinthS) : (modPlinth g s).pend = s.pend := rfl
@[simp] theorem modPlinth_posted (g : PlinthS → PlinthS) : (modPlinth g s).posted = s.posted := rfl
@[simp] theorem modPlinth_time (g : PlinthS → PlinthS) : (modPlinth g s).time = s.time := rfl
@[simp] theorem modPlinth_berths (g : PlinthS → PlinthS) : (modPlinth g s).berths = s.berths := rfl
@[simp] theorem modPlinth_dec (g : PlinthS → PlinthS) : (modPlinth g s).dec = s.dec := rfl
@[simp] theorem modPlinth_bcom (g : PlinthS → PlinthS) : (modPlinth g s).bcom = s.bcom := rfl
@[simp] theorem modPlinth_mac (g : PlinthS → PlinthS) : (modPlinth g s).mac = s.mac := rfl
@[simp] theorem modPlinth_tables (g : PlinthS → PlinthS) : (modPlinth g s).tables = s.tables := rfl
@[simp] theorem modPlinth_svc (g : PlinthS → PlinthS) : (modPlinth g s).svc = s.svc := rfl
@[simp] theorem modPlinth_camp (g : PlinthS → PlinthS) : (modPlinth g s).camp = s.camp := rfl
@[simp] theorem modPlinth_fns (g : PlinthS → PlinthS) : (modPlinth g s).fns = s.fns := rfl
@[simp] theorem modPlinth_ports (g : PlinthS → PlinthS) : (modPlinth g s).ports = s.ports := rfl
@[simp] theorem modPlinth_jobs (g : PlinthS → PlinthS) : (modPlinth g s).jobs = s.jobs := rfl
@[simp] theorem modPlinth_stevs (g : PlinthS → PlinthS) : (modPlinth g s).stevs = s.stevs := rfl
@[simp] theorem modPlinth_landed (g : PlinthS → PlinthS) : (modPlinth g s).landed = s.landed := rfl
@[simp] theorem modPlinth_lastServed (g : PlinthS → PlinthS) : (modPlinth g s).lastServed = s.lastServed := rfl
@[simp] theorem modPlinth_fabric (g : PlinthS → PlinthS) : (modPlinth g s).fabric = s.fabric := rfl
@[simp] theorem modPlinth_keys (g : PlinthS → PlinthS) : (modPlinth g s).keys = s.keys := rfl
@[simp] theorem modPlinth_plinth (g : PlinthS → PlinthS) : (modPlinth g s).plinth = g s.plinth := rfl
@[simp] theorem modPlinth_hold (g : PlinthS → PlinthS) : (modPlinth g s).hold = s.hold := rfl
@[simp] theorem modPlinth_claim (g : PlinthS → PlinthS) : (modPlinth g s).claim = s.claim := rfl
@[simp] theorem modPlinth_fw (g : PlinthS → PlinthS) : (modPlinth g s).fw = s.fw := rfl
@[simp] theorem modPlinth_flash (g : PlinthS → PlinthS) : (modPlinth g s).flash = s.flash := rfl
@[simp] theorem modPlinth_otp (g : PlinthS → PlinthS) : (modPlinth g s).otp = s.otp := rfl
@[simp] theorem modPlinth_start (g : PlinthS → PlinthS) : (modPlinth g s).start = s.start := rfl
@[simp] theorem modPlinth_mgmt (g : PlinthS → PlinthS) : (modPlinth g s).mgmt = s.mgmt := rfl
@[simp] theorem modPlinth_pins (g : PlinthS → PlinthS) : (modPlinth g s).pins = s.pins := rfl
@[simp] theorem modPlinth_outs (g : PlinthS → PlinthS) : (modPlinth g s).outs = s.outs := rfl
@[simp] theorem modPlinth_draws (g : PlinthS → PlinthS) : (modPlinth g s).draws = s.draws := rfl
@[simp] theorem modPlinth_pending (g : PlinthS → PlinthS) : (modPlinth g s).pending = s.pending := rfl

/-! `modStart` -/

@[simp] theorem modStart_regs (g : StartS → StartS) : (modStart g s).regs = s.regs := rfl
@[simp] theorem modStart_pend (g : StartS → StartS) : (modStart g s).pend = s.pend := rfl
@[simp] theorem modStart_posted (g : StartS → StartS) : (modStart g s).posted = s.posted := rfl
@[simp] theorem modStart_time (g : StartS → StartS) : (modStart g s).time = s.time := rfl
@[simp] theorem modStart_berths (g : StartS → StartS) : (modStart g s).berths = s.berths := rfl
@[simp] theorem modStart_dec (g : StartS → StartS) : (modStart g s).dec = s.dec := rfl
@[simp] theorem modStart_bcom (g : StartS → StartS) : (modStart g s).bcom = s.bcom := rfl
@[simp] theorem modStart_mac (g : StartS → StartS) : (modStart g s).mac = s.mac := rfl
@[simp] theorem modStart_tables (g : StartS → StartS) : (modStart g s).tables = s.tables := rfl
@[simp] theorem modStart_svc (g : StartS → StartS) : (modStart g s).svc = s.svc := rfl
@[simp] theorem modStart_camp (g : StartS → StartS) : (modStart g s).camp = s.camp := rfl
@[simp] theorem modStart_fns (g : StartS → StartS) : (modStart g s).fns = s.fns := rfl
@[simp] theorem modStart_ports (g : StartS → StartS) : (modStart g s).ports = s.ports := rfl
@[simp] theorem modStart_jobs (g : StartS → StartS) : (modStart g s).jobs = s.jobs := rfl
@[simp] theorem modStart_stevs (g : StartS → StartS) : (modStart g s).stevs = s.stevs := rfl
@[simp] theorem modStart_landed (g : StartS → StartS) : (modStart g s).landed = s.landed := rfl
@[simp] theorem modStart_lastServed (g : StartS → StartS) : (modStart g s).lastServed = s.lastServed := rfl
@[simp] theorem modStart_fabric (g : StartS → StartS) : (modStart g s).fabric = s.fabric := rfl
@[simp] theorem modStart_keys (g : StartS → StartS) : (modStart g s).keys = s.keys := rfl
@[simp] theorem modStart_plinth (g : StartS → StartS) : (modStart g s).plinth = s.plinth := rfl
@[simp] theorem modStart_hold (g : StartS → StartS) : (modStart g s).hold = s.hold := rfl
@[simp] theorem modStart_claim (g : StartS → StartS) : (modStart g s).claim = s.claim := rfl
@[simp] theorem modStart_fw (g : StartS → StartS) : (modStart g s).fw = s.fw := rfl
@[simp] theorem modStart_flash (g : StartS → StartS) : (modStart g s).flash = s.flash := rfl
@[simp] theorem modStart_otp (g : StartS → StartS) : (modStart g s).otp = s.otp := rfl
@[simp] theorem modStart_start (g : StartS → StartS) : (modStart g s).start = g s.start := rfl
@[simp] theorem modStart_mgmt (g : StartS → StartS) : (modStart g s).mgmt = s.mgmt := rfl
@[simp] theorem modStart_pins (g : StartS → StartS) : (modStart g s).pins = s.pins := rfl
@[simp] theorem modStart_outs (g : StartS → StartS) : (modStart g s).outs = s.outs := rfl
@[simp] theorem modStart_draws (g : StartS → StartS) : (modStart g s).draws = s.draws := rfl
@[simp] theorem modStart_pending (g : StartS → StartS) : (modStart g s).pending = s.pending := rfl

/-! `modSvc` -/

@[simp] theorem modSvc_regs (g : SvcS → SvcS) : (modSvc g s).regs = s.regs := rfl
@[simp] theorem modSvc_pend (g : SvcS → SvcS) : (modSvc g s).pend = s.pend := rfl
@[simp] theorem modSvc_posted (g : SvcS → SvcS) : (modSvc g s).posted = s.posted := rfl
@[simp] theorem modSvc_time (g : SvcS → SvcS) : (modSvc g s).time = s.time := rfl
@[simp] theorem modSvc_berths (g : SvcS → SvcS) : (modSvc g s).berths = s.berths := rfl
@[simp] theorem modSvc_dec (g : SvcS → SvcS) : (modSvc g s).dec = s.dec := rfl
@[simp] theorem modSvc_bcom (g : SvcS → SvcS) : (modSvc g s).bcom = s.bcom := rfl
@[simp] theorem modSvc_mac (g : SvcS → SvcS) : (modSvc g s).mac = s.mac := rfl
@[simp] theorem modSvc_tables (g : SvcS → SvcS) : (modSvc g s).tables = s.tables := rfl
@[simp] theorem modSvc_svc (g : SvcS → SvcS) : (modSvc g s).svc = g s.svc := rfl
@[simp] theorem modSvc_camp (g : SvcS → SvcS) : (modSvc g s).camp = s.camp := rfl
@[simp] theorem modSvc_fns (g : SvcS → SvcS) : (modSvc g s).fns = s.fns := rfl
@[simp] theorem modSvc_ports (g : SvcS → SvcS) : (modSvc g s).ports = s.ports := rfl
@[simp] theorem modSvc_jobs (g : SvcS → SvcS) : (modSvc g s).jobs = s.jobs := rfl
@[simp] theorem modSvc_stevs (g : SvcS → SvcS) : (modSvc g s).stevs = s.stevs := rfl
@[simp] theorem modSvc_landed (g : SvcS → SvcS) : (modSvc g s).landed = s.landed := rfl
@[simp] theorem modSvc_lastServed (g : SvcS → SvcS) : (modSvc g s).lastServed = s.lastServed := rfl
@[simp] theorem modSvc_fabric (g : SvcS → SvcS) : (modSvc g s).fabric = s.fabric := rfl
@[simp] theorem modSvc_keys (g : SvcS → SvcS) : (modSvc g s).keys = s.keys := rfl
@[simp] theorem modSvc_plinth (g : SvcS → SvcS) : (modSvc g s).plinth = s.plinth := rfl
@[simp] theorem modSvc_hold (g : SvcS → SvcS) : (modSvc g s).hold = s.hold := rfl
@[simp] theorem modSvc_claim (g : SvcS → SvcS) : (modSvc g s).claim = s.claim := rfl
@[simp] theorem modSvc_fw (g : SvcS → SvcS) : (modSvc g s).fw = s.fw := rfl
@[simp] theorem modSvc_flash (g : SvcS → SvcS) : (modSvc g s).flash = s.flash := rfl
@[simp] theorem modSvc_otp (g : SvcS → SvcS) : (modSvc g s).otp = s.otp := rfl
@[simp] theorem modSvc_start (g : SvcS → SvcS) : (modSvc g s).start = s.start := rfl
@[simp] theorem modSvc_mgmt (g : SvcS → SvcS) : (modSvc g s).mgmt = s.mgmt := rfl
@[simp] theorem modSvc_pins (g : SvcS → SvcS) : (modSvc g s).pins = s.pins := rfl
@[simp] theorem modSvc_outs (g : SvcS → SvcS) : (modSvc g s).outs = s.outs := rfl
@[simp] theorem modSvc_draws (g : SvcS → SvcS) : (modSvc g s).draws = s.draws := rfl
@[simp] theorem modSvc_pending (g : SvcS → SvcS) : (modSvc g s).pending = s.pending := rfl

/-! `modTab` -/

@[simp] theorem modTab_regs (g : TablesS → TablesS) : (modTab g s).regs = s.regs := rfl
@[simp] theorem modTab_pend (g : TablesS → TablesS) : (modTab g s).pend = s.pend := rfl
@[simp] theorem modTab_posted (g : TablesS → TablesS) : (modTab g s).posted = s.posted := rfl
@[simp] theorem modTab_time (g : TablesS → TablesS) : (modTab g s).time = s.time := rfl
@[simp] theorem modTab_berths (g : TablesS → TablesS) : (modTab g s).berths = s.berths := rfl
@[simp] theorem modTab_dec (g : TablesS → TablesS) : (modTab g s).dec = s.dec := rfl
@[simp] theorem modTab_bcom (g : TablesS → TablesS) : (modTab g s).bcom = s.bcom := rfl
@[simp] theorem modTab_mac (g : TablesS → TablesS) : (modTab g s).mac = s.mac := rfl
@[simp] theorem modTab_tables (g : TablesS → TablesS) : (modTab g s).tables = g s.tables := rfl
@[simp] theorem modTab_svc (g : TablesS → TablesS) : (modTab g s).svc = s.svc := rfl
@[simp] theorem modTab_camp (g : TablesS → TablesS) : (modTab g s).camp = s.camp := rfl
@[simp] theorem modTab_fns (g : TablesS → TablesS) : (modTab g s).fns = s.fns := rfl
@[simp] theorem modTab_ports (g : TablesS → TablesS) : (modTab g s).ports = s.ports := rfl
@[simp] theorem modTab_jobs (g : TablesS → TablesS) : (modTab g s).jobs = s.jobs := rfl
@[simp] theorem modTab_stevs (g : TablesS → TablesS) : (modTab g s).stevs = s.stevs := rfl
@[simp] theorem modTab_landed (g : TablesS → TablesS) : (modTab g s).landed = s.landed := rfl
@[simp] theorem modTab_lastServed (g : TablesS → TablesS) : (modTab g s).lastServed = s.lastServed := rfl
@[simp] theorem modTab_fabric (g : TablesS → TablesS) : (modTab g s).fabric = s.fabric := rfl
@[simp] theorem modTab_keys (g : TablesS → TablesS) : (modTab g s).keys = s.keys := rfl
@[simp] theorem modTab_plinth (g : TablesS → TablesS) : (modTab g s).plinth = s.plinth := rfl
@[simp] theorem modTab_hold (g : TablesS → TablesS) : (modTab g s).hold = s.hold := rfl
@[simp] theorem modTab_claim (g : TablesS → TablesS) : (modTab g s).claim = s.claim := rfl
@[simp] theorem modTab_fw (g : TablesS → TablesS) : (modTab g s).fw = s.fw := rfl
@[simp] theorem modTab_flash (g : TablesS → TablesS) : (modTab g s).flash = s.flash := rfl
@[simp] theorem modTab_otp (g : TablesS → TablesS) : (modTab g s).otp = s.otp := rfl
@[simp] theorem modTab_start (g : TablesS → TablesS) : (modTab g s).start = s.start := rfl
@[simp] theorem modTab_mgmt (g : TablesS → TablesS) : (modTab g s).mgmt = s.mgmt := rfl
@[simp] theorem modTab_pins (g : TablesS → TablesS) : (modTab g s).pins = s.pins := rfl
@[simp] theorem modTab_outs (g : TablesS → TablesS) : (modTab g s).outs = s.outs := rfl
@[simp] theorem modTab_draws (g : TablesS → TablesS) : (modTab g s).draws = s.draws := rfl
@[simp] theorem modTab_pending (g : TablesS → TablesS) : (modTab g s).pending = s.pending := rfl

/-! `modTime` -/

@[simp] theorem modTime_regs (g : TimeS → TimeS) : (modTime g s).regs = s.regs := rfl
@[simp] theorem modTime_pend (g : TimeS → TimeS) : (modTime g s).pend = s.pend := rfl
@[simp] theorem modTime_posted (g : TimeS → TimeS) : (modTime g s).posted = s.posted := rfl
@[simp] theorem modTime_time (g : TimeS → TimeS) : (modTime g s).time = g s.time := rfl
@[simp] theorem modTime_berths (g : TimeS → TimeS) : (modTime g s).berths = s.berths := rfl
@[simp] theorem modTime_dec (g : TimeS → TimeS) : (modTime g s).dec = s.dec := rfl
@[simp] theorem modTime_bcom (g : TimeS → TimeS) : (modTime g s).bcom = s.bcom := rfl
@[simp] theorem modTime_mac (g : TimeS → TimeS) : (modTime g s).mac = s.mac := rfl
@[simp] theorem modTime_tables (g : TimeS → TimeS) : (modTime g s).tables = s.tables := rfl
@[simp] theorem modTime_svc (g : TimeS → TimeS) : (modTime g s).svc = s.svc := rfl
@[simp] theorem modTime_camp (g : TimeS → TimeS) : (modTime g s).camp = s.camp := rfl
@[simp] theorem modTime_fns (g : TimeS → TimeS) : (modTime g s).fns = s.fns := rfl
@[simp] theorem modTime_ports (g : TimeS → TimeS) : (modTime g s).ports = s.ports := rfl
@[simp] theorem modTime_jobs (g : TimeS → TimeS) : (modTime g s).jobs = s.jobs := rfl
@[simp] theorem modTime_stevs (g : TimeS → TimeS) : (modTime g s).stevs = s.stevs := rfl
@[simp] theorem modTime_landed (g : TimeS → TimeS) : (modTime g s).landed = s.landed := rfl
@[simp] theorem modTime_lastServed (g : TimeS → TimeS) : (modTime g s).lastServed = s.lastServed := rfl
@[simp] theorem modTime_fabric (g : TimeS → TimeS) : (modTime g s).fabric = s.fabric := rfl
@[simp] theorem modTime_keys (g : TimeS → TimeS) : (modTime g s).keys = s.keys := rfl
@[simp] theorem modTime_plinth (g : TimeS → TimeS) : (modTime g s).plinth = s.plinth := rfl
@[simp] theorem modTime_hold (g : TimeS → TimeS) : (modTime g s).hold = s.hold := rfl
@[simp] theorem modTime_claim (g : TimeS → TimeS) : (modTime g s).claim = s.claim := rfl
@[simp] theorem modTime_fw (g : TimeS → TimeS) : (modTime g s).fw = s.fw := rfl
@[simp] theorem modTime_flash (g : TimeS → TimeS) : (modTime g s).flash = s.flash := rfl
@[simp] theorem modTime_otp (g : TimeS → TimeS) : (modTime g s).otp = s.otp := rfl
@[simp] theorem modTime_start (g : TimeS → TimeS) : (modTime g s).start = s.start := rfl
@[simp] theorem modTime_mgmt (g : TimeS → TimeS) : (modTime g s).mgmt = s.mgmt := rfl
@[simp] theorem modTime_pins (g : TimeS → TimeS) : (modTime g s).pins = s.pins := rfl
@[simp] theorem modTime_outs (g : TimeS → TimeS) : (modTime g s).outs = s.outs := rfl
@[simp] theorem modTime_draws (g : TimeS → TimeS) : (modTime g s).draws = s.draws := rfl
@[simp] theorem modTime_pending (g : TimeS → TimeS) : (modTime g s).pending = s.pending := rfl

end Sys2Proof.Machine
end

