-- ==== Sys2Proof/Laws/Frames.lean ====
section
/-!
SUPPORT. Everything that the shared operations leave alone, said once for each: a state with the fields blanked that the operation
may touch is the same before and after; and from that, field by field, the lemmas that simp uses.
-/

namespace Sys2Proof.Machine

/-- What every turn keeps, the repetition keeps. -/
theorem foldl_keeps {α β : Type} (p : State → α) (g : State → β → State) (h : ∀ t b, p (g t b) = p t) (l : List β) (s : State) :
    p (l.foldl g s) = p s := by
  induction l generalizing s with
  | nil => rfl
  | cons b l ih => simp only [List.foldl_cons]; rw [ih, h]

/-- What every turn keeps, the repetition keeps. -/
theorem forBelow_keeps {α : Type} (p : State → α) (g : Nat → State → State) (h : ∀ i t, p (g i t) = p t) (n : Nat) (s : State) :
    p (forBelow n g s) = p s := foldl_keeps p (fun t i => g i t) (fun t i => h i t) _ s

/-- A state without what raising an event or counting may touch. -/
def bareEvent (s : State) : State := { s with regs := [], fns := [] }

/-- A state without what the passing of time may touch. -/
def bareTime (s : State) : State := { s with regs := [], fns := [], time := TimeS.reset, plinth := ⟨false, none, [], 0, [], none, none⟩ }

/-- A state without what settling may touch. -/
def bareSettle (s : State) : State :=
  { s with regs := [], fns := [], hold := HoldS.reset, jobs := [], stevs := [], lastServed := [], pins := Pins.reset }

/-- A state without what the read ports may touch. -/
def bareTap (s : State) : State := { s with regs := [], start := { s.start with ports := [] }, outs := [], draws := 0 }

/-- A state without its registers and its output. -/
def bareRead (s : State) : State := { s with regs := [], outs := [] }

/-! What equal blanked states agree in. -/

theorem bareEvent_pend {a b : State} (h : bareEvent a = bareEvent b) : a.pend = b.pend := by have e := congrArg State.pend h; exact e
theorem bareEvent_posted {a b : State} (h : bareEvent a = bareEvent b) : a.posted = b.posted := by have e := congrArg State.posted h; exact e
theorem bareEvent_time {a b : State} (h : bareEvent a = bareEvent b) : a.time = b.time := by have e := congrArg State.time h; exact e
theorem bareEvent_berths {a b : State} (h : bareEvent a = bareEvent b) : a.berths = b.berths := by have e := congrArg State.berths h; exact e
theorem bareEvent_dec {a b : State} (h : bareEvent a = bareEvent b) : a.dec = b.dec := by have e := congrArg State.dec h; exact e
theorem bareEvent_bcom {a b : State} (h : bareEvent a = bareEvent b) : a.bcom = b.bcom := by have e := congrArg State.bcom h; exact e
theorem bareEvent_mac {a b : State} (h : bareEvent a = bareEvent b) : a.mac = b.mac := by have e := congrArg State.mac h; exact e
theorem bareEvent_tables {a b : State} (h : bareEvent a = bareEvent b) : a.tables = b.tables := by have e := congrArg State.tables h; exact e
theorem bareEvent_svc {a b : State} (h : bareEvent a = bareEvent b) : a.svc = b.svc := by have e := congrArg State.svc h; exact e
theorem bareEvent_camp {a b : State} (h : bareEvent a = bareEvent b) : a.camp = b.camp := by have e := congrArg State.camp h; exact e
theorem bareEvent_ports {a b : State} (h : bareEvent a = bareEvent b) : a.ports = b.ports := by have e := congrArg State.ports h; exact e
theorem bareEvent_jobs {a b : State} (h : bareEvent a = bareEvent b) : a.jobs = b.jobs := by have e := congrArg State.jobs h; exact e
theorem bareEvent_stevs {a b : State} (h : bareEvent a = bareEvent b) : a.stevs = b.stevs := by have e := congrArg State.stevs h; exact e
theorem bareEvent_landed {a b : State} (h : bareEvent a = bareEvent b) : a.landed = b.landed := by have e := congrArg State.landed h; exact e
theorem bareEvent_lastServed {a b : State} (h : bareEvent a = bareEvent b) : a.lastServed = b.lastServed := by have e := congrArg State.lastServed h; exact e
theorem bareEvent_fabric {a b : State} (h : bareEvent a = bareEvent b) : a.fabric = b.fabric := by have e := congrArg State.fabric h; exact e
theorem bareEvent_keys {a b : State} (h : bareEvent a = bareEvent b) : a.keys = b.keys := by have e := congrArg State.keys h; exact e
theorem bareEvent_plinth {a b : State} (h : bareEvent a = bareEvent b) : a.plinth = b.plinth := by have e := congrArg State.plinth h; exact e
theorem bareEvent_hold {a b : State} (h : bareEvent a = bareEvent b) : a.hold = b.hold := by have e := congrArg State.hold h; exact e
theorem bareEvent_claim {a b : State} (h : bareEvent a = bareEvent b) : a.claim = b.claim := by have e := congrArg State.claim h; exact e
theorem bareEvent_fw {a b : State} (h : bareEvent a = bareEvent b) : a.fw = b.fw := by have e := congrArg State.fw h; exact e
theorem bareEvent_flash {a b : State} (h : bareEvent a = bareEvent b) : a.flash = b.flash := by have e := congrArg State.flash h; exact e
theorem bareEvent_otp {a b : State} (h : bareEvent a = bareEvent b) : a.otp = b.otp := by have e := congrArg State.otp h; exact e
theorem bareEvent_start {a b : State} (h : bareEvent a = bareEvent b) : a.start = b.start := by have e := congrArg State.start h; exact e
theorem bareEvent_mgmt {a b : State} (h : bareEvent a = bareEvent b) : a.mgmt = b.mgmt := by have e := congrArg State.mgmt h; exact e
theorem bareEvent_pins {a b : State} (h : bareEvent a = bareEvent b) : a.pins = b.pins := by have e := congrArg State.pins h; exact e
theorem bareEvent_outs {a b : State} (h : bareEvent a = bareEvent b) : a.outs = b.outs := by have e := congrArg State.outs h; exact e
theorem bareEvent_draws {a b : State} (h : bareEvent a = bareEvent b) : a.draws = b.draws := by have e := congrArg State.draws h; exact e
theorem bareEvent_pending {a b : State} (h : bareEvent a = bareEvent b) : a.pending = b.pending := by have e := congrArg State.pending h; exact e
theorem bareTime_pend {a b : State} (h : bareTime a = bareTime b) : a.pend = b.pend := by have e := congrArg State.pend h; exact e
theorem bareTime_posted {a b : State} (h : bareTime a = bareTime b) : a.posted = b.posted := by have e := congrArg State.posted h; exact e
theorem bareTime_berths {a b : State} (h : bareTime a = bareTime b) : a.berths = b.berths := by have e := congrArg State.berths h; exact e
theorem bareTime_dec {a b : State} (h : bareTime a = bareTime b) : a.dec = b.dec := by have e := congrArg State.dec h; exact e
theorem bareTime_bcom {a b : State} (h : bareTime a = bareTime b) : a.bcom = b.bcom := by have e := congrArg State.bcom h; exact e
theorem bareTime_mac {a b : State} (h : bareTime a = bareTime b) : a.mac = b.mac := by have e := congrArg State.mac h; exact e
theorem bareTime_tables {a b : State} (h : bareTime a = bareTime b) : a.tables = b.tables := by have e := congrArg State.tables h; exact e
theorem bareTime_svc {a b : State} (h : bareTime a = bareTime b) : a.svc = b.svc := by have e := congrArg State.svc h; exact e
theorem bareTime_camp {a b : State} (h : bareTime a = bareTime b) : a.camp = b.camp := by have e := congrArg State.camp h; exact e
theorem bareTime_ports {a b : State} (h : bareTime a = bareTime b) : a.ports = b.ports := by have e := congrArg State.ports h; exact e
theorem bareTime_jobs {a b : State} (h : bareTime a = bareTime b) : a.jobs = b.jobs := by have e := congrArg State.jobs h; exact e
theorem bareTime_stevs {a b : State} (h : bareTime a = bareTime b) : a.stevs = b.stevs := by have e := congrArg State.stevs h; exact e
theorem bareTime_landed {a b : State} (h : bareTime a = bareTime b) : a.landed = b.landed := by have e := congrArg State.landed h; exact e
theorem bareTime_lastServed {a b : State} (h : bareTime a = bareTime b) : a.lastServed = b.lastServed := by have e := congrArg State.lastServed h; exact e
theorem bareTime_fabric {a b : State} (h : bareTime a = bareTime b) : a.fabric = b.fabric := by have e := congrArg State.fabric h; exact e
theorem bareTime_keys {a b : State} (h : bareTime a = bareTime b) : a.keys = b.keys := by have e := congrArg State.keys h; exact e
theorem bareTime_hold {a b : State} (h : bareTime a = bareTime b) : a.hold = b.hold := by have e := congrArg State.hold h; exact e
theorem bareTime_claim {a b : State} (h : bareTime a = bareTime b) : a.claim = b.claim := by have e := congrArg State.claim h; exact e
theorem bareTime_fw {a b : State} (h : bareTime a = bareTime b) : a.fw = b.fw := by have e := congrArg State.fw h; exact e
theorem bareTime_flash {a b : State} (h : bareTime a = bareTime b) : a.flash = b.flash := by have e := congrArg State.flash h; exact e
theorem bareTime_otp {a b : State} (h : bareTime a = bareTime b) : a.otp = b.otp := by have e := congrArg State.otp h; exact e
theorem bareTime_start {a b : State} (h : bareTime a = bareTime b) : a.start = b.start := by have e := congrArg State.start h; exact e
theorem bareTime_mgmt {a b : State} (h : bareTime a = bareTime b) : a.mgmt = b.mgmt := by have e := congrArg State.mgmt h; exact e
theorem bareTime_pins {a b : State} (h : bareTime a = bareTime b) : a.pins = b.pins := by have e := congrArg State.pins h; exact e
theorem bareTime_outs {a b : State} (h : bareTime a = bareTime b) : a.outs = b.outs := by have e := congrArg State.outs h; exact e
theorem bareTime_draws {a b : State} (h : bareTime a = bareTime b) : a.draws = b.draws := by have e := congrArg State.draws h; exact e
theorem bareTime_pending {a b : State} (h : bareTime a = bareTime b) : a.pending = b.pending := by have e := congrArg State.pending h; exact e
theorem bareSettle_pend {a b : State} (h : bareSettle a = bareSettle b) : a.pend = b.pend := by have e := congrArg State.pend h; exact e
theorem bareSettle_posted {a b : State} (h : bareSettle a = bareSettle b) : a.posted = b.posted := by have e := congrArg State.posted h; exact e
theorem bareSettle_time {a b : State} (h : bareSettle a = bareSettle b) : a.time = b.time := by have e := congrArg State.time h; exact e
theorem bareSettle_berths {a b : State} (h : bareSettle a = bareSettle b) : a.berths = b.berths := by have e := congrArg State.berths h; exact e
theorem bareSettle_dec {a b : State} (h : bareSettle a = bareSettle b) : a.dec = b.dec := by have e := congrArg State.dec h; exact e
theorem bareSettle_bcom {a b : State} (h : bareSettle a = bareSettle b) : a.bcom = b.bcom := by have e := congrArg State.bcom h; exact e
theorem bareSettle_mac {a b : State} (h : bareSettle a = bareSettle b) : a.mac = b.mac := by have e := congrArg State.mac h; exact e
theorem bareSettle_tables {a b : State} (h : bareSettle a = bareSettle b) : a.tables = b.tables := by have e := congrArg State.tables h; exact e
theorem bareSettle_svc {a b : State} (h : bareSettle a = bareSettle b) : a.svc = b.svc := by have e := congrArg State.svc h; exact e
theorem bareSettle_camp {a b : State} (h : bareSettle a = bareSettle b) : a.camp = b.camp := by have e := congrArg State.camp h; exact e
theorem bareSettle_ports {a b : State} (h : bareSettle a = bareSettle b) : a.ports = b.ports := by have e := congrArg State.ports h; exact e
theorem bareSettle_landed {a b : State} (h : bareSettle a = bareSettle b) : a.landed = b.landed := by have e := congrArg State.landed h; exact e
theorem bareSettle_fabric {a b : State} (h : bareSettle a = bareSettle b) : a.fabric = b.fabric := by have e := congrArg State.fabric h; exact e
theorem bareSettle_keys {a b : State} (h : bareSettle a = bareSettle b) : a.keys = b.keys := by have e := congrArg State.keys h; exact e
theorem bareSettle_plinth {a b : State} (h : bareSettle a = bareSettle b) : a.plinth = b.plinth := by have e := congrArg State.plinth h; exact e
theorem bareSettle_claim {a b : State} (h : bareSettle a = bareSettle b) : a.claim = b.claim := by have e := congrArg State.claim h; exact e
theorem bareSettle_fw {a b : State} (h : bareSettle a = bareSettle b) : a.fw = b.fw := by have e := congrArg State.fw h; exact e
theorem bareSettle_flash {a b : State} (h : bareSettle a = bareSettle b) : a.flash = b.flash := by have e := congrArg State.flash h; exact e
theorem bareSettle_otp {a b : State} (h : bareSettle a = bareSettle b) : a.otp = b.otp := by have e := congrArg State.otp h; exact e
theorem bareSettle_start {a b : State} (h : bareSettle a = bareSettle b) : a.start = b.start := by have e := congrArg State.start h; exact e
theorem bareSettle_mgmt {a b : State} (h : bareSettle a = bareSettle b) : a.mgmt = b.mgmt := by have e := congrArg State.mgmt h; exact e
theorem bareSettle_outs {a b : State} (h : bareSettle a = bareSettle b) : a.outs = b.outs := by have e := congrArg State.outs h; exact e
theorem bareSettle_draws {a b : State} (h : bareSettle a = bareSettle b) : a.draws = b.draws := by have e := congrArg State.draws h; exact e
theorem bareSettle_pending {a b : State} (h : bareSettle a = bareSettle b) : a.pending = b.pending := by have e := congrArg State.pending h; exact e
theorem bareTap_pend {a b : State} (h : bareTap a = bareTap b) : a.pend = b.pend := by have e := congrArg State.pend h; exact e
theorem bareTap_posted {a b : State} (h : bareTap a = bareTap b) : a.posted = b.posted := by have e := congrArg State.posted h; exact e
theorem bareTap_time {a b : State} (h : bareTap a = bareTap b) : a.time = b.time := by have e := congrArg State.time h; exact e
theorem bareTap_berths {a b : State} (h : bareTap a = bareTap b) : a.berths = b.berths := by have e := congrArg State.berths h; exact e
theorem bareTap_dec {a b : State} (h : bareTap a = bareTap b) : a.dec = b.dec := by have e := congrArg State.dec h; exact e
theorem bareTap_bcom {a b : State} (h : bareTap a = bareTap b) : a.bcom = b.bcom := by have e := congrArg State.bcom h; exact e
theorem bareTap_mac {a b : State} (h : bareTap a = bareTap b) : a.mac = b.mac := by have e := congrArg State.mac h; exact e
theorem bareTap_tables {a b : State} (h : bareTap a = bareTap b) : a.tables = b.tables := by have e := congrArg State.tables h; exact e
theorem bareTap_svc {a b : State} (h : bareTap a = bareTap b) : a.svc = b.svc := by have e := congrArg State.svc h; exact e
theorem bareTap_camp {a b : State} (h : bareTap a = bareTap b) : a.camp = b.camp := by have e := congrArg State.camp h; exact e
theorem bareTap_fns {a b : State} (h : bareTap a = bareTap b) : a.fns = b.fns := by have e := congrArg State.fns h; exact e
theorem bareTap_ports {a b : State} (h : bareTap a = bareTap b) : a.ports = b.ports := by have e := congrArg State.ports h; exact e
theorem bareTap_jobs {a b : State} (h : bareTap a = bareTap b) : a.jobs = b.jobs := by have e := congrArg State.jobs h; exact e
theorem bareTap_stevs {a b : State} (h : bareTap a = bareTap b) : a.stevs = b.stevs := by have e := congrArg State.stevs h; exact e
theorem bareTap_landed {a b : State} (h : bareTap a = bareTap b) : a.landed = b.landed := by have e := congrArg State.landed h; exact e
theorem bareTap_lastServed {a b : State} (h : bareTap a = bareTap b) : a.lastServed = b.lastServed := by have e := congrArg State.lastServed h; exact e
theorem bareTap_fabric {a b : State} (h : bareTap a = bareTap b) : a.fabric = b.fabric := by have e := congrArg State.fabric h; exact e
theorem bareTap_keys {a b : State} (h : bareTap a = bareTap b) : a.keys = b.keys := by have e := congrArg State.keys h; exact e
theorem bareTap_plinth {a b : State} (h : bareTap a = bareTap b) : a.plinth = b.plinth := by have e := congrArg State.plinth h; exact e
theorem bareTap_hold {a b : State} (h : bareTap a = bareTap b) : a.hold = b.hold := by have e := congrArg State.hold h; exact e
theorem bareTap_claim {a b : State} (h : bareTap a = bareTap b) : a.claim = b.claim := by have e := congrArg State.claim h; exact e
theorem bareTap_fw {a b : State} (h : bareTap a = bareTap b) : a.fw = b.fw := by have e := congrArg State.fw h; exact e
theorem bareTap_flash {a b : State} (h : bareTap a = bareTap b) : a.flash = b.flash := by have e := congrArg State.flash h; exact e
theorem bareTap_otp {a b : State} (h : bareTap a = bareTap b) : a.otp = b.otp := by have e := congrArg State.otp h; exact e
theorem bareTap_mgmt {a b : State} (h : bareTap a = bareTap b) : a.mgmt = b.mgmt := by have e := congrArg State.mgmt h; exact e
theorem bareTap_pins {a b : State} (h : bareTap a = bareTap b) : a.pins = b.pins := by have e := congrArg State.pins h; exact e
theorem bareTap_pending {a b : State} (h : bareTap a = bareTap b) : a.pending = b.pending := by have e := congrArg State.pending h; exact e
theorem bareTap_start_phase {a b : State} (h : bareTap a = bareTap b) : a.start.phase = b.start.phase := by have e := congrArg (fun t => t.start.phase) h; exact e
theorem bareTap_start_straps {a b : State} (h : bareTap a = bareTap b) : a.start.straps = b.start.straps := by have e := congrArg (fun t => t.start.straps) h; exact e
theorem bareTap_start_bankB33 {a b : State} (h : bareTap a = bareTap b) : a.start.bankB33 = b.start.bankB33 := by have e := congrArg (fun t => t.start.bankB33) h; exact e
theorem bareTap_start_held {a b : State} (h : bareTap a = bareTap b) : a.start.held = b.start.held := by have e := congrArg (fun t => t.start.held) h; exact e
theorem bareTap_start_porLow {a b : State} (h : bareTap a = bareTap b) : a.start.porLow = b.start.porLow := by have e := congrArg (fun t => t.start.porLow) h; exact e
theorem bareTap_start_brownOut {a b : State} (h : bareTap a = bareTap b) : a.start.brownOut = b.start.brownOut := by have e := congrArg (fun t => t.start.brownOut) h; exact e
theorem bareTap_start_cause {a b : State} (h : bareTap a = bareTap b) : a.start.cause = b.start.cause := by have e := congrArg (fun t => t.start.cause) h; exact e
theorem bareTap_start_resets {a b : State} (h : bareTap a = bareTap b) : a.start.resets = b.start.resets := by have e := congrArg (fun t => t.start.resets) h; exact e
theorem bareTap_start_functionsReady {a b : State} (h : bareTap a = bareTap b) : a.start.functionsReady = b.start.functionsReady := by have e := congrArg (fun t => t.start.functionsReady) h; exact e
theorem bareTap_start_selftestOk {a b : State} (h : bareTap a = bareTap b) : a.start.selftestOk = b.start.selftestOk := by have e := congrArg (fun t => t.start.selftestOk) h; exact e
theorem bareTap_start_docked {a b : State} (h : bareTap a = bareTap b) : a.start.docked = b.start.docked := by have e := congrArg (fun t => t.start.docked) h; exact e
theorem bareTap_start_dock {a b : State} (h : bareTap a = bareTap b) : a.start.dock = b.start.dock := by have e := congrArg (fun t => t.start.dock) h; exact e
theorem bareTap_start_dockTesting {a b : State} (h : bareTap a = bareTap b) : a.start.dockTesting = b.start.dockTesting := by have e := congrArg (fun t => t.start.dockTesting) h; exact e
theorem bareTap_start_katUnit {a b : State} (h : bareTap a = bareTap b) : a.start.katUnit = b.start.katUnit := by have e := congrArg (fun t => t.start.katUnit) h; exact e
theorem bareTap_start_katNext {a b : State} (h : bareTap a = bareTap b) : a.start.katNext = b.start.katNext := by have e := congrArg (fun t => t.start.katNext) h; exact e
theorem bareTap_start_katMono {a b : State} (h : bareTap a = bareTap b) : a.start.katMono = b.start.katMono := by have e := congrArg (fun t => t.start.katMono) h; exact e
theorem bareTap_start_tap {a b : State} (h : bareTap a = bareTap b) : a.start.tap = b.start.tap := by have e := congrArg (fun t => t.start.tap) h; exact e
theorem bareTap_start_femDriven {a b : State} (h : bareTap a = bareTap b) : a.start.femDriven = b.start.femDriven := by have e := congrArg (fun t => t.start.femDriven) h; exact e
theorem bareTap_start_coexDriven {a b : State} (h : bareTap a = bareTap b) : a.start.coexDriven = b.start.coexDriven := by have e := congrArg (fun t => t.start.coexDriven) h; exact e
theorem bareRead_pend {a b : State} (h : bareRead a = bareRead b) : a.pend = b.pend := by have e := congrArg State.pend h; exact e
theorem bareRead_posted {a b : State} (h : bareRead a = bareRead b) : a.posted = b.posted := by have e := congrArg State.posted h; exact e
theorem bareRead_time {a b : State} (h : bareRead a = bareRead b) : a.time = b.time := by have e := congrArg State.time h; exact e
theorem bareRead_berths {a b : State} (h : bareRead a = bareRead b) : a.berths = b.berths := by have e := congrArg State.berths h; exact e
theorem bareRead_dec {a b : State} (h : bareRead a = bareRead b) : a.dec = b.dec := by have e := congrArg State.dec h; exact e
theorem bareRead_bcom {a b : State} (h : bareRead a = bareRead b) : a.bcom = b.bcom := by have e := congrArg State.bcom h; exact e
theorem bareRead_mac {a b : State} (h : bareRead a = bareRead b) : a.mac = b.mac := by have e := congrArg State.mac h; exact e
theorem bareRead_tables {a b : State} (h : bareRead a = bareRead b) : a.tables = b.tables := by have e := congrArg State.tables h; exact e
theorem bareRead_svc {a b : State} (h : bareRead a = bareRead b) : a.svc = b.svc := by have e := congrArg State.svc h; exact e
theorem bareRead_camp {a b : State} (h : bareRead a = bareRead b) : a.camp = b.camp := by have e := congrArg State.camp h; exact e
theorem bareRead_fns {a b : State} (h : bareRead a = bareRead b) : a.fns = b.fns := by have e := congrArg State.fns h; exact e
theorem bareRead_ports {a b : State} (h : bareRead a = bareRead b) : a.ports = b.ports := by have e := congrArg State.ports h; exact e
theorem bareRead_jobs {a b : State} (h : bareRead a = bareRead b) : a.jobs = b.jobs := by have e := congrArg State.jobs h; exact e
theorem bareRead_stevs {a b : State} (h : bareRead a = bareRead b) : a.stevs = b.stevs := by have e := congrArg State.stevs h; exact e
theorem bareRead_landed {a b : State} (h : bareRead a = bareRead b) : a.landed = b.landed := by have e := congrArg State.landed h; exact e
theorem bareRead_lastServed {a b : State} (h : bareRead a = bareRead b) : a.lastServed = b.lastServed := by have e := congrArg State.lastServed h; exact e
theorem bareRead_fabric {a b : State} (h : bareRead a = bareRead b) : a.fabric = b.fabric := by have e := congrArg State.fabric h; exact e
theorem bareRead_keys {a b : State} (h : bareRead a = bareRead b) : a.keys = b.keys := by have e := congrArg State.keys h; exact e
theorem bareRead_plinth {a b : State} (h : bareRead a = bareRead b) : a.plinth = b.plinth := by have e := congrArg State.plinth h; exact e
theorem bareRead_hold {a b : State} (h : bareRead a = bareRead b) : a.hold = b.hold := by have e := congrArg State.hold h; exact e
theorem bareRead_claim {a b : State} (h : bareRead a = bareRead b) : a.claim = b.claim := by have e := congrArg State.claim h; exact e
theorem bareRead_fw {a b : State} (h : bareRead a = bareRead b) : a.fw = b.fw := by have e := congrArg State.fw h; exact e
theorem bareRead_flash {a b : State} (h : bareRead a = bareRead b) : a.flash = b.flash := by have e := congrArg State.flash h; exact e
theorem bareRead_otp {a b : State} (h : bareRead a = bareRead b) : a.otp = b.otp := by have e := congrArg State.otp h; exact e
theorem bareRead_start {a b : State} (h : bareRead a = bareRead b) : a.start = b.start := by have e := congrArg State.start h; exact e
theorem bareRead_mgmt {a b : State} (h : bareRead a = bareRead b) : a.mgmt = b.mgmt := by have e := congrArg State.mgmt h; exact e
theorem bareRead_pins {a b : State} (h : bareRead a = bareRead b) : a.pins = b.pins := by have e := congrArg State.pins h; exact e
theorem bareRead_draws {a b : State} (h : bareRead a = bareRead b) : a.draws = b.draws := by have e := congrArg State.draws h; exact e
theorem bareRead_pending {a b : State} (h : bareRead a = bareRead b) : a.pending = b.pending := by have e := congrArg State.pending h; exact e

theorem bareTime_of_event {a b : State} (h : bareEvent a = bareEvent b) : bareTime a = bareTime b := by
  have e := congrArg (fun t : State => { t with time := TimeS.reset, plinth := ⟨false, none, [], 0, [], none, none⟩ }) h
  exact e

theorem bareSettle_of_event {a b : State} (h : bareEvent a = bareEvent b) : bareSettle a = bareSettle b := by
  have e := congrArg (fun t : State => { t with hold := HoldS.reset, jobs := [], stevs := [], lastServed := [], pins := Pins.reset }) h
  exact e

/-! ### Events and counters -/

theorem raiseTo_bare (o : EvOcc) (n : Nat) (s : State) : bareEvent (raiseTo o n s) = bareEvent s := by
  unfold raiseTo; split
  · dsimp only; split <;> rfl
  · rfl

theorem raiseOcc_bare (o : EvOcc) (s : State) : bareEvent (raiseOcc o s) = bareEvent s := by
  unfold raiseOcc; dsimp only; rw [forBelow_keeps bareEvent _ (fun n t => raiseTo_bare o n t)]; rfl

theorem raiseFull_bare (c r n x : Nat) (s : State) : bareEvent (raiseFull c r n x s) = bareEvent s := by unfold raiseFull; exact raiseOcc_bare _ s

theorem raise_bare (c r : Nat) (s : State) : bareEvent (raise c r s) = bareEvent s := by unfold raise; exact raiseFull_bare _ _ _ _ s

theorem raiseAux_bare (c r x : Nat) (s : State) : bareEvent (raiseAux c r x s) = bareEvent s := by unfold raiseAux; exact raiseFull_bare _ _ _ _ s

theorem raiseNode_bare (c r n : Nat) (s : State) : bareEvent (raiseNode c r n s) = bareEvent s := by unfold raiseNode; exact raiseFull_bare _ _ _ _ s

theorem raiseSaturated_bare (k : Nat) (s : State) : bareEvent (raiseSaturated k s) = bareEvent s := by unfold raiseSaturated; exact raiseAux_bare _ _ _ s

theorem bumpBy_bare (b : Nat) (c : Cnt) (n : Nat) (s : State) : bareEvent (bumpBy b c n s) = bareEvent s := by
  unfold bumpBy; dsimp only; split
  · rfl
  · split
    · rfl
    · rw [raiseSaturated_bare]; rfl

theorem bump_bare (b : Nat) (c : Cnt) (s : State) : bareEvent (bump b c s) = bareEvent s := bumpBy_bare b c 1 s

theorem modFn_bare (f : Nat) (g : FnS → FnS) (s : State) : bareEvent (modFn f g s) = bareEvent s := rfl

theorem fset_bare (b : Nat) (f : Fld) (v : Nat) (s : State) : bareEvent (fset b f v s) = bareEvent s := rfl

theorem loseItems_bare (f n : Nat) (s : State) : bareEvent (loseItems f n s) = bareEvent s := by
  unfold loseItems; dsimp only; rw [modFn_bare, fset_bare, bumpBy_bare]

theorem loseEntries_bare (f n : Nat) (s : State) : bareEvent (loseEntries f n s) = bareEvent s := by
  unfold loseEntries; rw [raiseAux_bare, loseItems_bare]

/-! `raiseOcc` -/

@[simp] theorem raiseOcc_pend (o : EvOcc) (s : State) : (raiseOcc o s).pend = s.pend := bareEvent_pend (raiseOcc_bare o s)
@[simp] theorem raiseOcc_posted (o : EvOcc) (s : State) : (raiseOcc o s).posted = s.posted := bareEvent_posted (raiseOcc_bare o s)
@[simp] theorem raiseOcc_time (o : EvOcc) (s : State) : (raiseOcc o s).time = s.time := bareEvent_time (raiseOcc_bare o s)
@[simp] theorem raiseOcc_berths (o : EvOcc) (s : State) : (raiseOcc o s).berths = s.berths := bareEvent_berths (raiseOcc_bare o s)
@[simp] theorem raiseOcc_dec (o : EvOcc) (s : State) : (raiseOcc o s).dec = s.dec := bareEvent_dec (raiseOcc_bare o s)
@[simp] theorem raiseOcc_bcom (o : EvOcc) (s : State) : (raiseOcc o s).bcom = s.bcom := bareEvent_bcom (raiseOcc_bare o s)
@[simp] theorem raiseOcc_mac (o : EvOcc) (s : State) : (raiseOcc o s).mac = s.mac := bareEvent_mac (raiseOcc_bare o s)
@[simp] theorem raiseOcc_tables (o : EvOcc) (s : State) : (raiseOcc o s).tables = s.tables := bareEvent_tables (raiseOcc_bare o s)
@[simp] theorem raiseOcc_svc (o : EvOcc) (s : State) : (raiseOcc o s).svc = s.svc := bareEvent_svc (raiseOcc_bare o s)
@[simp] theorem raiseOcc_camp (o : EvOcc) (s : State) : (raiseOcc o s).camp = s.camp := bareEvent_camp (raiseOcc_bare o s)
@[simp] theorem raiseOcc_ports (o : EvOcc) (s : State) : (raiseOcc o s).ports = s.ports := bareEvent_ports (raiseOcc_bare o s)
@[simp] theorem raiseOcc_jobs (o : EvOcc) (s : State) : (raiseOcc o s).jobs = s.jobs := bareEvent_jobs (raiseOcc_bare o s)
@[simp] theorem raiseOcc_stevs (o : EvOcc) (s : State) : (raiseOcc o s).stevs = s.stevs := bareEvent_stevs (raiseOcc_bare o s)
@[simp] theorem raiseOcc_landed (o : EvOcc) (s : State) : (raiseOcc o s).landed = s.landed := bareEvent_landed (raiseOcc_bare o s)
@[simp] theorem raiseOcc_lastServed (o : EvOcc) (s : State) : (raiseOcc o s).lastServed = s.lastServed := bareEvent_lastServed (raiseOcc_bare o s)
@[simp] theorem raiseOcc_fabric (o : EvOcc) (s : State) : (raiseOcc o s).fabric = s.fabric := bareEvent_fabric (raiseOcc_bare o s)
@[simp] theorem raiseOcc_keys (o : EvOcc) (s : State) : (raiseOcc o s).keys = s.keys := bareEvent_keys (raiseOcc_bare o s)
@[simp] theorem raiseOcc_plinth (o : EvOcc) (s : State) : (raiseOcc o s).plinth = s.plinth := bareEvent_plinth (raiseOcc_bare o s)
@[simp] theorem raiseOcc_hold (o : EvOcc) (s : State) : (raiseOcc o s).hold = s.hold := bareEvent_hold (raiseOcc_bare o s)
@[simp] theorem raiseOcc_claim (o : EvOcc) (s : State) : (raiseOcc o s).claim = s.claim := bareEvent_claim (raiseOcc_bare o s)
@[simp] theorem raiseOcc_fw (o : EvOcc) (s : State) : (raiseOcc o s).fw = s.fw := bareEvent_fw (raiseOcc_bare o s)
@[simp] theorem raiseOcc_flash (o : EvOcc) (s : State) : (raiseOcc o s).flash = s.flash := bareEvent_flash (raiseOcc_bare o s)
@[simp] theorem raiseOcc_otp (o : EvOcc) (s : State) : (raiseOcc o s).otp = s.otp := bareEvent_otp (raiseOcc_bare o s)
@[simp] theorem raiseOcc_start (o : EvOcc) (s : State) : (raiseOcc o s).start = s.start := bareEvent_start (raiseOcc_bare o s)
@[simp] theorem raiseOcc_mgmt (o : EvOcc) (s : State) : (raiseOcc o s).mgmt = s.mgmt := bareEvent_mgmt (raiseOcc_bare o s)
@[simp] theorem raiseOcc_pins (o : EvOcc) (s : State) : (raiseOcc o s).pins = s.pins := bareEvent_pins (raiseOcc_bare o s)
@[simp] theorem raiseOcc_outs (o : EvOcc) (s : State) : (raiseOcc o s).outs = s.outs := bareEvent_outs (raiseOcc_bare o s)
@[simp] theorem raiseOcc_draws (o : EvOcc) (s : State) : (raiseOcc o s).draws = s.draws := bareEvent_draws (raiseOcc_bare o s)
@[simp] theorem raiseOcc_pending (o : EvOcc) (s : State) : (raiseOcc o s).pending = s.pending := bareEvent_pending (raiseOcc_bare o s)

/-! `raiseFull` -/

@[simp] theorem raiseFull_pend (c r n x : Nat) (s : State) : (raiseFull c r n x s).pend = s.pend := bareEvent_pend (raiseFull_bare c r n x s)
@[simp] theorem raiseFull_posted (c r n x : Nat) (s : State) : (raiseFull c r n x s).posted = s.posted := bareEvent_posted (raiseFull_bare c r n x s)
@[simp] theorem raiseFull_time (c r n x : Nat) (s : State) : (raiseFull c r n x s).time = s.time := bareEvent_time (raiseFull_bare c r n x s)
@[simp] theorem raiseFull_berths (c r n x : Nat) (s : State) : (raiseFull c r n x s).berths = s.berths := bareEvent_berths (raiseFull_bare c r n x s)
@[simp] theorem raiseFull_dec (c r n x : Nat) (s : State) : (raiseFull c r n x s).dec = s.dec := bareEvent_dec (raiseFull_bare c r n x s)
@[simp] theorem raiseFull_bcom (c r n x : Nat) (s : State) : (raiseFull c r n x s).bcom = s.bcom := bareEvent_bcom (raiseFull_bare c r n x s)
@[simp] theorem raiseFull_mac (c r n x : Nat) (s : State) : (raiseFull c r n x s).mac = s.mac := bareEvent_mac (raiseFull_bare c r n x s)
@[simp] theorem raiseFull_tables (c r n x : Nat) (s : State) : (raiseFull c r n x s).tables = s.tables := bareEvent_tables (raiseFull_bare c r n x s)
@[simp] theorem raiseFull_svc (c r n x : Nat) (s : State) : (raiseFull c r n x s).svc = s.svc := bareEvent_svc (raiseFull_bare c r n x s)
@[simp] theorem raiseFull_camp (c r n x : Nat) (s : State) : (raiseFull c r n x s).camp = s.camp := bareEvent_camp (raiseFull_bare c r n x s)
@[simp] theorem raiseFull_ports (c r n x : Nat) (s : State) : (raiseFull c r n x s).ports = s.ports := bareEvent_ports (raiseFull_bare c r n x s)
@[simp] theorem raiseFull_jobs (c r n x : Nat) (s : State) : (raiseFull c r n x s).jobs = s.jobs := bareEvent_jobs (raiseFull_bare c r n x s)
@[simp] theorem raiseFull_stevs (c r n x : Nat) (s : State) : (raiseFull c r n x s).stevs = s.stevs := bareEvent_stevs (raiseFull_bare c r n x s)
@[simp] theorem raiseFull_landed (c r n x : Nat) (s : State) : (raiseFull c r n x s).landed = s.landed := bareEvent_landed (raiseFull_bare c r n x s)
@[simp] theorem raiseFull_lastServed (c r n x : Nat) (s : State) : (raiseFull c r n x s).lastServed = s.lastServed := bareEvent_lastServed (raiseFull_bare c r n x s)
@[simp] theorem raiseFull_fabric (c r n x : Nat) (s : State) : (raiseFull c r n x s).fabric = s.fabric := bareEvent_fabric (raiseFull_bare c r n x s)
@[simp] theorem raiseFull_keys (c r n x : Nat) (s : State) : (raiseFull c r n x s).keys = s.keys := bareEvent_keys (raiseFull_bare c r n x s)
@[simp] theorem raiseFull_plinth (c r n x : Nat) (s : State) : (raiseFull c r n x s).plinth = s.plinth := bareEvent_plinth (raiseFull_bare c r n x s)
@[simp] theorem raiseFull_hold (c r n x : Nat) (s : State) : (raiseFull c r n x s).hold = s.hold := bareEvent_hold (raiseFull_bare c r n x s)
@[simp] theorem raiseFull_claim (c r n x : Nat) (s : State) : (raiseFull c r n x s).claim = s.claim := bareEvent_claim (raiseFull_bare c r n x s)
@[simp] theorem raiseFull_fw (c r n x : Nat) (s : State) : (raiseFull c r n x s).fw = s.fw := bareEvent_fw (raiseFull_bare c r n x s)
@[simp] theorem raiseFull_flash (c r n x : Nat) (s : State) : (raiseFull c r n x s).flash = s.flash := bareEvent_flash (raiseFull_bare c r n x s)
@[simp] theorem raiseFull_otp (c r n x : Nat) (s : State) : (raiseFull c r n x s).otp = s.otp := bareEvent_otp (raiseFull_bare c r n x s)
@[simp] theorem raiseFull_start (c r n x : Nat) (s : State) : (raiseFull c r n x s).start = s.start := bareEvent_start (raiseFull_bare c r n x s)
@[simp] theorem raiseFull_mgmt (c r n x : Nat) (s : State) : (raiseFull c r n x s).mgmt = s.mgmt := bareEvent_mgmt (raiseFull_bare c r n x s)
@[simp] theorem raiseFull_pins (c r n x : Nat) (s : State) : (raiseFull c r n x s).pins = s.pins := bareEvent_pins (raiseFull_bare c r n x s)
@[simp] theorem raiseFull_outs (c r n x : Nat) (s : State) : (raiseFull c r n x s).outs = s.outs := bareEvent_outs (raiseFull_bare c r n x s)
@[simp] theorem raiseFull_draws (c r n x : Nat) (s : State) : (raiseFull c r n x s).draws = s.draws := bareEvent_draws (raiseFull_bare c r n x s)
@[simp] theorem raiseFull_pending (c r n x : Nat) (s : State) : (raiseFull c r n x s).pending = s.pending := bareEvent_pending (raiseFull_bare c r n x s)

/-! `raise` -/

@[simp] theorem raise_pend (c r : Nat) (s : State) : (raise c r s).pend = s.pend := bareEvent_pend (raise_bare c r s)
@[simp] theorem raise_posted (c r : Nat) (s : State) : (raise c r s).posted = s.posted := bareEvent_posted (raise_bare c r s)
@[simp] theorem raise_time (c r : Nat) (s : State) : (raise c r s).time = s.time := bareEvent_time (raise_bare c r s)
@[simp] theorem raise_berths (c r : Nat) (s : State) : (raise c r s).berths = s.berths := bareEvent_berths (raise_bare c r s)
@[simp] theorem raise_dec (c r : Nat) (s : State) : (raise c r s).dec = s.dec := bareEvent_dec (raise_bare c r s)
@[simp] theorem raise_bcom (c r : Nat) (s : State) : (raise c r s).bcom = s.bcom := bareEvent_bcom (raise_bare c r s)
@[simp] theorem raise_mac (c r : Nat) (s : State) : (raise c r s).mac = s.mac := bareEvent_mac (raise_bare c r s)
@[simp] theorem raise_tables (c r : Nat) (s : State) : (raise c r s).tables = s.tables := bareEvent_tables (raise_bare c r s)
@[simp] theorem raise_svc (c r : Nat) (s : State) : (raise c r s).svc = s.svc := bareEvent_svc (raise_bare c r s)
@[simp] theorem raise_camp (c r : Nat) (s : State) : (raise c r s).camp = s.camp := bareEvent_camp (raise_bare c r s)
@[simp] theorem raise_ports (c r : Nat) (s : State) : (raise c r s).ports = s.ports := bareEvent_ports (raise_bare c r s)
@[simp] theorem raise_jobs (c r : Nat) (s : State) : (raise c r s).jobs = s.jobs := bareEvent_jobs (raise_bare c r s)
@[simp] theorem raise_stevs (c r : Nat) (s : State) : (raise c r s).stevs = s.stevs := bareEvent_stevs (raise_bare c r s)
@[simp] theorem raise_landed (c r : Nat) (s : State) : (raise c r s).landed = s.landed := bareEvent_landed (raise_bare c r s)
@[simp] theorem raise_lastServed (c r : Nat) (s : State) : (raise c r s).lastServed = s.lastServed := bareEvent_lastServed (raise_bare c r s)
@[simp] theorem raise_fabric (c r : Nat) (s : State) : (raise c r s).fabric = s.fabric := bareEvent_fabric (raise_bare c r s)
@[simp] theorem raise_keys (c r : Nat) (s : State) : (raise c r s).keys = s.keys := bareEvent_keys (raise_bare c r s)
@[simp] theorem raise_plinth (c r : Nat) (s : State) : (raise c r s).plinth = s.plinth := bareEvent_plinth (raise_bare c r s)
@[simp] theorem raise_hold (c r : Nat) (s : State) : (raise c r s).hold = s.hold := bareEvent_hold (raise_bare c r s)
@[simp] theorem raise_claim (c r : Nat) (s : State) : (raise c r s).claim = s.claim := bareEvent_claim (raise_bare c r s)
@[simp] theorem raise_fw (c r : Nat) (s : State) : (raise c r s).fw = s.fw := bareEvent_fw (raise_bare c r s)
@[simp] theorem raise_flash (c r : Nat) (s : State) : (raise c r s).flash = s.flash := bareEvent_flash (raise_bare c r s)
@[simp] theorem raise_otp (c r : Nat) (s : State) : (raise c r s).otp = s.otp := bareEvent_otp (raise_bare c r s)
@[simp] theorem raise_start (c r : Nat) (s : State) : (raise c r s).start = s.start := bareEvent_start (raise_bare c r s)
@[simp] theorem raise_mgmt (c r : Nat) (s : State) : (raise c r s).mgmt = s.mgmt := bareEvent_mgmt (raise_bare c r s)
@[simp] theorem raise_pins (c r : Nat) (s : State) : (raise c r s).pins = s.pins := bareEvent_pins (raise_bare c r s)
@[simp] theorem raise_outs (c r : Nat) (s : State) : (raise c r s).outs = s.outs := bareEvent_outs (raise_bare c r s)
@[simp] theorem raise_draws (c r : Nat) (s : State) : (raise c r s).draws = s.draws := bareEvent_draws (raise_bare c r s)
@[simp] theorem raise_pending (c r : Nat) (s : State) : (raise c r s).pending = s.pending := bareEvent_pending (raise_bare c r s)

/-! `raiseAux` -/

@[simp] theorem raiseAux_pend (c r x : Nat) (s : State) : (raiseAux c r x s).pend = s.pend := bareEvent_pend (raiseAux_bare c r x s)
@[simp] theorem raiseAux_posted (c r x : Nat) (s : State) : (raiseAux c r x s).posted = s.posted := bareEvent_posted (raiseAux_bare c r x s)
@[simp] theorem raiseAux_time (c r x : Nat) (s : State) : (raiseAux c r x s).time = s.time := bareEvent_time (raiseAux_bare c r x s)
@[simp] theorem raiseAux_berths (c r x : Nat) (s : State) : (raiseAux c r x s).berths = s.berths := bareEvent_berths (raiseAux_bare c r x s)
@[simp] theorem raiseAux_dec (c r x : Nat) (s : State) : (raiseAux c r x s).dec = s.dec := bareEvent_dec (raiseAux_bare c r x s)
@[simp] theorem raiseAux_bcom (c r x : Nat) (s : State) : (raiseAux c r x s).bcom = s.bcom := bareEvent_bcom (raiseAux_bare c r x s)
@[simp] theorem raiseAux_mac (c r x : Nat) (s : State) : (raiseAux c r x s).mac = s.mac := bareEvent_mac (raiseAux_bare c r x s)
@[simp] theorem raiseAux_tables (c r x : Nat) (s : State) : (raiseAux c r x s).tables = s.tables := bareEvent_tables (raiseAux_bare c r x s)
@[simp] theorem raiseAux_svc (c r x : Nat) (s : State) : (raiseAux c r x s).svc = s.svc := bareEvent_svc (raiseAux_bare c r x s)
@[simp] theorem raiseAux_camp (c r x : Nat) (s : State) : (raiseAux c r x s).camp = s.camp := bareEvent_camp (raiseAux_bare c r x s)
@[simp] theorem raiseAux_ports (c r x : Nat) (s : State) : (raiseAux c r x s).ports = s.ports := bareEvent_ports (raiseAux_bare c r x s)
@[simp] theorem raiseAux_jobs (c r x : Nat) (s : State) : (raiseAux c r x s).jobs = s.jobs := bareEvent_jobs (raiseAux_bare c r x s)
@[simp] theorem raiseAux_stevs (c r x : Nat) (s : State) : (raiseAux c r x s).stevs = s.stevs := bareEvent_stevs (raiseAux_bare c r x s)
@[simp] theorem raiseAux_landed (c r x : Nat) (s : State) : (raiseAux c r x s).landed = s.landed := bareEvent_landed (raiseAux_bare c r x s)
@[simp] theorem raiseAux_lastServed (c r x : Nat) (s : State) : (raiseAux c r x s).lastServed = s.lastServed := bareEvent_lastServed (raiseAux_bare c r x s)
@[simp] theorem raiseAux_fabric (c r x : Nat) (s : State) : (raiseAux c r x s).fabric = s.fabric := bareEvent_fabric (raiseAux_bare c r x s)
@[simp] theorem raiseAux_keys (c r x : Nat) (s : State) : (raiseAux c r x s).keys = s.keys := bareEvent_keys (raiseAux_bare c r x s)
@[simp] theorem raiseAux_plinth (c r x : Nat) (s : State) : (raiseAux c r x s).plinth = s.plinth := bareEvent_plinth (raiseAux_bare c r x s)
@[simp] theorem raiseAux_hold (c r x : Nat) (s : State) : (raiseAux c r x s).hold = s.hold := bareEvent_hold (raiseAux_bare c r x s)
@[simp] theorem raiseAux_claim (c r x : Nat) (s : State) : (raiseAux c r x s).claim = s.claim := bareEvent_claim (raiseAux_bare c r x s)
@[simp] theorem raiseAux_fw (c r x : Nat) (s : State) : (raiseAux c r x s).fw = s.fw := bareEvent_fw (raiseAux_bare c r x s)
@[simp] theorem raiseAux_flash (c r x : Nat) (s : State) : (raiseAux c r x s).flash = s.flash := bareEvent_flash (raiseAux_bare c r x s)
@[simp] theorem raiseAux_otp (c r x : Nat) (s : State) : (raiseAux c r x s).otp = s.otp := bareEvent_otp (raiseAux_bare c r x s)
@[simp] theorem raiseAux_start (c r x : Nat) (s : State) : (raiseAux c r x s).start = s.start := bareEvent_start (raiseAux_bare c r x s)
@[simp] theorem raiseAux_mgmt (c r x : Nat) (s : State) : (raiseAux c r x s).mgmt = s.mgmt := bareEvent_mgmt (raiseAux_bare c r x s)
@[simp] theorem raiseAux_pins (c r x : Nat) (s : State) : (raiseAux c r x s).pins = s.pins := bareEvent_pins (raiseAux_bare c r x s)
@[simp] theorem raiseAux_outs (c r x : Nat) (s : State) : (raiseAux c r x s).outs = s.outs := bareEvent_outs (raiseAux_bare c r x s)
@[simp] theorem raiseAux_draws (c r x : Nat) (s : State) : (raiseAux c r x s).draws = s.draws := bareEvent_draws (raiseAux_bare c r x s)
@[simp] theorem raiseAux_pending (c r x : Nat) (s : State) : (raiseAux c r x s).pending = s.pending := bareEvent_pending (raiseAux_bare c r x s)

/-! `raiseNode` -/

@[simp] theorem raiseNode_pend (c r n : Nat) (s : State) : (raiseNode c r n s).pend = s.pend := bareEvent_pend (raiseNode_bare c r n s)
@[simp] theorem raiseNode_posted (c r n : Nat) (s : State) : (raiseNode c r n s).posted = s.posted := bareEvent_posted (raiseNode_bare c r n s)
@[simp] theorem raiseNode_time (c r n : Nat) (s : State) : (raiseNode c r n s).time = s.time := bareEvent_time (raiseNode_bare c r n s)
@[simp] theorem raiseNode_berths (c r n : Nat) (s : State) : (raiseNode c r n s).berths = s.berths := bareEvent_berths (raiseNode_bare c r n s)
@[simp] theorem raiseNode_dec (c r n : Nat) (s : State) : (raiseNode c r n s).dec = s.dec := bareEvent_dec (raiseNode_bare c r n s)
@[simp] theorem raiseNode_bcom (c r n : Nat) (s : State) : (raiseNode c r n s).bcom = s.bcom := bareEvent_bcom (raiseNode_bare c r n s)
@[simp] theorem raiseNode_mac (c r n : Nat) (s : State) : (raiseNode c r n s).mac = s.mac := bareEvent_mac (raiseNode_bare c r n s)
@[simp] theorem raiseNode_tables (c r n : Nat) (s : State) : (raiseNode c r n s).tables = s.tables := bareEvent_tables (raiseNode_bare c r n s)
@[simp] theorem raiseNode_svc (c r n : Nat) (s : State) : (raiseNode c r n s).svc = s.svc := bareEvent_svc (raiseNode_bare c r n s)
@[simp] theorem raiseNode_camp (c r n : Nat) (s : State) : (raiseNode c r n s).camp = s.camp := bareEvent_camp (raiseNode_bare c r n s)
@[simp] theorem raiseNode_ports (c r n : Nat) (s : State) : (raiseNode c r n s).ports = s.ports := bareEvent_ports (raiseNode_bare c r n s)
@[simp] theorem raiseNode_jobs (c r n : Nat) (s : State) : (raiseNode c r n s).jobs = s.jobs := bareEvent_jobs (raiseNode_bare c r n s)
@[simp] theorem raiseNode_stevs (c r n : Nat) (s : State) : (raiseNode c r n s).stevs = s.stevs := bareEvent_stevs (raiseNode_bare c r n s)
@[simp] theorem raiseNode_landed (c r n : Nat) (s : State) : (raiseNode c r n s).landed = s.landed := bareEvent_landed (raiseNode_bare c r n s)
@[simp] theorem raiseNode_lastServed (c r n : Nat) (s : State) : (raiseNode c r n s).lastServed = s.lastServed := bareEvent_lastServed (raiseNode_bare c r n s)
@[simp] theorem raiseNode_fabric (c r n : Nat) (s : State) : (raiseNode c r n s).fabric = s.fabric := bareEvent_fabric (raiseNode_bare c r n s)
@[simp] theorem raiseNode_keys (c r n : Nat) (s : State) : (raiseNode c r n s).keys = s.keys := bareEvent_keys (raiseNode_bare c r n s)
@[simp] theorem raiseNode_plinth (c r n : Nat) (s : State) : (raiseNode c r n s).plinth = s.plinth := bareEvent_plinth (raiseNode_bare c r n s)
@[simp] theorem raiseNode_hold (c r n : Nat) (s : State) : (raiseNode c r n s).hold = s.hold := bareEvent_hold (raiseNode_bare c r n s)
@[simp] theorem raiseNode_claim (c r n : Nat) (s : State) : (raiseNode c r n s).claim = s.claim := bareEvent_claim (raiseNode_bare c r n s)
@[simp] theorem raiseNode_fw (c r n : Nat) (s : State) : (raiseNode c r n s).fw = s.fw := bareEvent_fw (raiseNode_bare c r n s)
@[simp] theorem raiseNode_flash (c r n : Nat) (s : State) : (raiseNode c r n s).flash = s.flash := bareEvent_flash (raiseNode_bare c r n s)
@[simp] theorem raiseNode_otp (c r n : Nat) (s : State) : (raiseNode c r n s).otp = s.otp := bareEvent_otp (raiseNode_bare c r n s)
@[simp] theorem raiseNode_start (c r n : Nat) (s : State) : (raiseNode c r n s).start = s.start := bareEvent_start (raiseNode_bare c r n s)
@[simp] theorem raiseNode_mgmt (c r n : Nat) (s : State) : (raiseNode c r n s).mgmt = s.mgmt := bareEvent_mgmt (raiseNode_bare c r n s)
@[simp] theorem raiseNode_pins (c r n : Nat) (s : State) : (raiseNode c r n s).pins = s.pins := bareEvent_pins (raiseNode_bare c r n s)
@[simp] theorem raiseNode_outs (c r n : Nat) (s : State) : (raiseNode c r n s).outs = s.outs := bareEvent_outs (raiseNode_bare c r n s)
@[simp] theorem raiseNode_draws (c r n : Nat) (s : State) : (raiseNode c r n s).draws = s.draws := bareEvent_draws (raiseNode_bare c r n s)
@[simp] theorem raiseNode_pending (c r n : Nat) (s : State) : (raiseNode c r n s).pending = s.pending := bareEvent_pending (raiseNode_bare c r n s)

/-! `bumpBy` -/

@[simp] theorem bumpBy_pend (b : Nat) (c : Cnt) (n : Nat) (s : State) : (bumpBy b c n s).pend = s.pend := bareEvent_pend (bumpBy_bare b c n s)
@[simp] theorem bumpBy_posted (b : Nat) (c : Cnt) (n : Nat) (s : State) : (bumpBy b c n s).posted = s.posted := bareEvent_posted (bumpBy_bare b c n s)
@[simp] theorem bumpBy_time (b : Nat) (c : Cnt) (n : Nat) (s : State) : (bumpBy b c n s).time = s.time := bareEvent_time (bumpBy_bare b c n s)
@[simp] theorem bumpBy_berths (b : Nat) (c : Cnt) (n : Nat) (s : State) : (bumpBy b c n s).berths = s.berths := bareEvent_berths (bumpBy_bare b c n s)
@[simp] theorem bumpBy_dec (b : Nat) (c : Cnt) (n : Nat) (s : State) : (bumpBy b c n s).dec = s.dec := bareEvent_dec (bumpBy_bare b c n s)
@[simp] theorem bumpBy_bcom (b : Nat) (c : Cnt) (n : Nat) (s : State) : (bumpBy b c n s).bcom = s.bcom := bareEvent_bcom (bumpBy_bare b c n s)
@[simp] theorem bumpBy_mac (b : Nat) (c : Cnt) (n : Nat) (s : State) : (bumpBy b c n s).mac = s.mac := bareEvent_mac (bumpBy_bare b c n s)
@[simp] theorem bumpBy_tables (b : Nat) (c : Cnt) (n : Nat) (s : State) : (bumpBy b c n s).tables = s.tables := bareEvent_tables (bumpBy_bare b c n s)
@[simp] theorem bumpBy_svc (b : Nat) (c : Cnt) (n : Nat) (s : State) : (bumpBy b c n s).svc = s.svc := bareEvent_svc (bumpBy_bare b c n s)
@[simp] theorem bumpBy_camp (b : Nat) (c : Cnt) (n : Nat) (s : State) : (bumpBy b c n s).camp = s.camp := bareEvent_camp (bumpBy_bare b c n s)
@[simp] theorem bumpBy_ports (b : Nat) (c : Cnt) (n : Nat) (s : State) : (bumpBy b c n s).ports = s.ports := bareEvent_ports (bumpBy_bare b c n s)
@[simp] theorem bumpBy_jobs (b : Nat) (c : Cnt) (n : Nat) (s : State) : (bumpBy b c n s).jobs = s.jobs := bareEvent_jobs (bumpBy_bare b c n s)
@[simp] theorem bumpBy_stevs (b : Nat) (c : Cnt) (n : Nat) (s : State) : (bumpBy b c n s).stevs = s.stevs := bareEvent_stevs (bumpBy_bare b c n s)
@[simp] theorem bumpBy_landed (b : Nat) (c : Cnt) (n : Nat) (s : State) : (bumpBy b c n s).landed = s.landed := bareEvent_landed (bumpBy_bare b c n s)
@[simp] theorem bumpBy_lastServed (b : Nat) (c : Cnt) (n : Nat) (s : State) : (bumpBy b c n s).lastServed = s.lastServed := bareEvent_lastServed (bumpBy_bare b c n s)
@[simp] theorem bumpBy_fabric (b : Nat) (c : Cnt) (n : Nat) (s : State) : (bumpBy b c n s).fabric = s.fabric := bareEvent_fabric (bumpBy_bare b c n s)
@[simp] theorem bumpBy_keys (b : Nat) (c : Cnt) (n : Nat) (s : State) : (bumpBy b c n s).keys = s.keys := bareEvent_keys (bumpBy_bare b c n s)
@[simp] theorem bumpBy_plinth (b : Nat) (c : Cnt) (n : Nat) (s : State) : (bumpBy b c n s).plinth = s.plinth := bareEvent_plinth (bumpBy_bare b c n s)
@[simp] theorem bumpBy_hold (b : Nat) (c : Cnt) (n : Nat) (s : State) : (bumpBy b c n s).hold = s.hold := bareEvent_hold (bumpBy_bare b c n s)
@[simp] theorem bumpBy_claim (b : Nat) (c : Cnt) (n : Nat) (s : State) : (bumpBy b c n s).claim = s.claim := bareEvent_claim (bumpBy_bare b c n s)
@[simp] theorem bumpBy_fw (b : Nat) (c : Cnt) (n : Nat) (s : State) : (bumpBy b c n s).fw = s.fw := bareEvent_fw (bumpBy_bare b c n s)
@[simp] theorem bumpBy_flash (b : Nat) (c : Cnt) (n : Nat) (s : State) : (bumpBy b c n s).flash = s.flash := bareEvent_flash (bumpBy_bare b c n s)
@[simp] theorem bumpBy_otp (b : Nat) (c : Cnt) (n : Nat) (s : State) : (bumpBy b c n s).otp = s.otp := bareEvent_otp (bumpBy_bare b c n s)
@[simp] theorem bumpBy_start (b : Nat) (c : Cnt) (n : Nat) (s : State) : (bumpBy b c n s).start = s.start := bareEvent_start (bumpBy_bare b c n s)
@[simp] theorem bumpBy_mgmt (b : Nat) (c : Cnt) (n : Nat) (s : State) : (bumpBy b c n s).mgmt = s.mgmt := bareEvent_mgmt (bumpBy_bare b c n s)
@[simp] theorem bumpBy_pins (b : Nat) (c : Cnt) (n : Nat) (s : State) : (bumpBy b c n s).pins = s.pins := bareEvent_pins (bumpBy_bare b c n s)
@[simp] theorem bumpBy_outs (b : Nat) (c : Cnt) (n : Nat) (s : State) : (bumpBy b c n s).outs = s.outs := bareEvent_outs (bumpBy_bare b c n s)
@[simp] theorem bumpBy_draws (b : Nat) (c : Cnt) (n : Nat) (s : State) : (bumpBy b c n s).draws = s.draws := bareEvent_draws (bumpBy_bare b c n s)
@[simp] theorem bumpBy_pending (b : Nat) (c : Cnt) (n : Nat) (s : State) : (bumpBy b c n s).pending = s.pending := bareEvent_pending (bumpBy_bare b c n s)

/-! `bump` -/

@[simp] theorem bump_pend (b : Nat) (c : Cnt) (s : State) : (bump b c s).pend = s.pend := bareEvent_pend (bump_bare b c s)
@[simp] theorem bump_posted (b : Nat) (c : Cnt) (s : State) : (bump b c s).posted = s.posted := bareEvent_posted (bump_bare b c s)
@[simp] theorem bump_time (b : Nat) (c : Cnt) (s : State) : (bump b c s).time = s.time := bareEvent_time (bump_bare b c s)
@[simp] theorem bump_berths (b : Nat) (c : Cnt) (s : State) : (bump b c s).berths = s.berths := bareEvent_berths (bump_bare b c s)
@[simp] theorem bump_dec (b : Nat) (c : Cnt) (s : State) : (bump b c s).dec = s.dec := bareEvent_dec (bump_bare b c s)
@[simp] theorem bump_bcom (b : Nat) (c : Cnt) (s : State) : (bump b c s).bcom = s.bcom := bareEvent_bcom (bump_bare b c s)
@[simp] theorem bump_mac (b : Nat) (c : Cnt) (s : State) : (bump b c s).mac = s.mac := bareEvent_mac (bump_bare b c s)
@[simp] theorem bump_tables (b : Nat) (c : Cnt) (s : State) : (bump b c s).tables = s.tables := bareEvent_tables (bump_bare b c s)
@[simp] theorem bump_svc (b : Nat) (c : Cnt) (s : State) : (bump b c s).svc = s.svc := bareEvent_svc (bump_bare b c s)
@[simp] theorem bump_camp (b : Nat) (c : Cnt) (s : State) : (bump b c s).camp = s.camp := bareEvent_camp (bump_bare b c s)
@[simp] theorem bump_ports (b : Nat) (c : Cnt) (s : State) : (bump b c s).ports = s.ports := bareEvent_ports (bump_bare b c s)
@[simp] theorem bump_jobs (b : Nat) (c : Cnt) (s : State) : (bump b c s).jobs = s.jobs := bareEvent_jobs (bump_bare b c s)
@[simp] theorem bump_stevs (b : Nat) (c : Cnt) (s : State) : (bump b c s).stevs = s.stevs := bareEvent_stevs (bump_bare b c s)
@[simp] theorem bump_landed (b : Nat) (c : Cnt) (s : State) : (bump b c s).landed = s.landed := bareEvent_landed (bump_bare b c s)
@[simp] theorem bump_lastServed (b : Nat) (c : Cnt) (s : State) : (bump b c s).lastServed = s.lastServed := bareEvent_lastServed (bump_bare b c s)
@[simp] theorem bump_fabric (b : Nat) (c : Cnt) (s : State) : (bump b c s).fabric = s.fabric := bareEvent_fabric (bump_bare b c s)
@[simp] theorem bump_keys (b : Nat) (c : Cnt) (s : State) : (bump b c s).keys = s.keys := bareEvent_keys (bump_bare b c s)
@[simp] theorem bump_plinth (b : Nat) (c : Cnt) (s : State) : (bump b c s).plinth = s.plinth := bareEvent_plinth (bump_bare b c s)
@[simp] theorem bump_hold (b : Nat) (c : Cnt) (s : State) : (bump b c s).hold = s.hold := bareEvent_hold (bump_bare b c s)
@[simp] theorem bump_claim (b : Nat) (c : Cnt) (s : State) : (bump b c s).claim = s.claim := bareEvent_claim (bump_bare b c s)
@[simp] theorem bump_fw (b : Nat) (c : Cnt) (s : State) : (bump b c s).fw = s.fw := bareEvent_fw (bump_bare b c s)
@[simp] theorem bump_flash (b : Nat) (c : Cnt) (s : State) : (bump b c s).flash = s.flash := bareEvent_flash (bump_bare b c s)
@[simp] theorem bump_otp (b : Nat) (c : Cnt) (s : State) : (bump b c s).otp = s.otp := bareEvent_otp (bump_bare b c s)
@[simp] theorem bump_start (b : Nat) (c : Cnt) (s : State) : (bump b c s).start = s.start := bareEvent_start (bump_bare b c s)
@[simp] theorem bump_mgmt (b : Nat) (c : Cnt) (s : State) : (bump b c s).mgmt = s.mgmt := bareEvent_mgmt (bump_bare b c s)
@[simp] theorem bump_pins (b : Nat) (c : Cnt) (s : State) : (bump b c s).pins = s.pins := bareEvent_pins (bump_bare b c s)
@[simp] theorem bump_outs (b : Nat) (c : Cnt) (s : State) : (bump b c s).outs = s.outs := bareEvent_outs (bump_bare b c s)
@[simp] theorem bump_draws (b : Nat) (c : Cnt) (s : State) : (bump b c s).draws = s.draws := bareEvent_draws (bump_bare b c s)
@[simp] theorem bump_pending (b : Nat) (c : Cnt) (s : State) : (bump b c s).pending = s.pending := bareEvent_pending (bump_bare b c s)

/-! `loseItems` -/

@[simp] theorem loseItems_pend (f n : Nat) (s : State) : (loseItems f n s).pend = s.pend := bareEvent_pend (loseItems_bare f n s)
@[simp] theorem loseItems_posted (f n : Nat) (s : State) : (loseItems f n s).posted = s.posted := bareEvent_posted (loseItems_bare f n s)
@[simp] theorem loseItems_time (f n : Nat) (s : State) : (loseItems f n s).time = s.time := bareEvent_time (loseItems_bare f n s)
@[simp] theorem loseItems_berths (f n : Nat) (s : State) : (loseItems f n s).berths = s.berths := bareEvent_berths (loseItems_bare f n s)
@[simp] theorem loseItems_dec (f n : Nat) (s : State) : (loseItems f n s).dec = s.dec := bareEvent_dec (loseItems_bare f n s)
@[simp] theorem loseItems_bcom (f n : Nat) (s : State) : (loseItems f n s).bcom = s.bcom := bareEvent_bcom (loseItems_bare f n s)
@[simp] theorem loseItems_mac (f n : Nat) (s : State) : (loseItems f n s).mac = s.mac := bareEvent_mac (loseItems_bare f n s)
@[simp] theorem loseItems_tables (f n : Nat) (s : State) : (loseItems f n s).tables = s.tables := bareEvent_tables (loseItems_bare f n s)
@[simp] theorem loseItems_svc (f n : Nat) (s : State) : (loseItems f n s).svc = s.svc := bareEvent_svc (loseItems_bare f n s)
@[simp] theorem loseItems_camp (f n : Nat) (s : State) : (loseItems f n s).camp = s.camp := bareEvent_camp (loseItems_bare f n s)
@[simp] theorem loseItems_ports (f n : Nat) (s : State) : (loseItems f n s).ports = s.ports := bareEvent_ports (loseItems_bare f n s)
@[simp] theorem loseItems_jobs (f n : Nat) (s : State) : (loseItems f n s).jobs = s.jobs := bareEvent_jobs (loseItems_bare f n s)
@[simp] theorem loseItems_stevs (f n : Nat) (s : State) : (loseItems f n s).stevs = s.stevs := bareEvent_stevs (loseItems_bare f n s)
@[simp] theorem loseItems_landed (f n : Nat) (s : State) : (loseItems f n s).landed = s.landed := bareEvent_landed (loseItems_bare f n s)
@[simp] theorem loseItems_lastServed (f n : Nat) (s : State) : (loseItems f n s).lastServed = s.lastServed := bareEvent_lastServed (loseItems_bare f n s)
@[simp] theorem loseItems_fabric (f n : Nat) (s : State) : (loseItems f n s).fabric = s.fabric := bareEvent_fabric (loseItems_bare f n s)
@[simp] theorem loseItems_keys (f n : Nat) (s : State) : (loseItems f n s).keys = s.keys := bareEvent_keys (loseItems_bare f n s)
@[simp] theorem loseItems_plinth (f n : Nat) (s : State) : (loseItems f n s).plinth = s.plinth := bareEvent_plinth (loseItems_bare f n s)
@[simp] theorem loseItems_hold (f n : Nat) (s : State) : (loseItems f n s).hold = s.hold := bareEvent_hold (loseItems_bare f n s)
@[simp] theorem loseItems_claim (f n : Nat) (s : State) : (loseItems f n s).claim = s.claim := bareEvent_claim (loseItems_bare f n s)
@[simp] theorem loseItems_fw (f n : Nat) (s : State) : (loseItems f n s).fw = s.fw := bareEvent_fw (loseItems_bare f n s)
@[simp] theorem loseItems_flash (f n : Nat) (s : State) : (loseItems f n s).flash = s.flash := bareEvent_flash (loseItems_bare f n s)
@[simp] theorem loseItems_otp (f n : Nat) (s : State) : (loseItems f n s).otp = s.otp := bareEvent_otp (loseItems_bare f n s)
@[simp] theorem loseItems_start (f n : Nat) (s : State) : (loseItems f n s).start = s.start := bareEvent_start (loseItems_bare f n s)
@[simp] theorem loseItems_mgmt (f n : Nat) (s : State) : (loseItems f n s).mgmt = s.mgmt := bareEvent_mgmt (loseItems_bare f n s)
@[simp] theorem loseItems_pins (f n : Nat) (s : State) : (loseItems f n s).pins = s.pins := bareEvent_pins (loseItems_bare f n s)
@[simp] theorem loseItems_outs (f n : Nat) (s : State) : (loseItems f n s).outs = s.outs := bareEvent_outs (loseItems_bare f n s)
@[simp] theorem loseItems_draws (f n : Nat) (s : State) : (loseItems f n s).draws = s.draws := bareEvent_draws (loseItems_bare f n s)
@[simp] theorem loseItems_pending (f n : Nat) (s : State) : (loseItems f n s).pending = s.pending := bareEvent_pending (loseItems_bare f n s)

/-! `loseEntries` -/

@[simp] theorem loseEntries_pend (f n : Nat) (s : State) : (loseEntries f n s).pend = s.pend := bareEvent_pend (loseEntries_bare f n s)
@[simp] theorem loseEntries_posted (f n : Nat) (s : State) : (loseEntries f n s).posted = s.posted := bareEvent_posted (loseEntries_bare f n s)
@[simp] theorem loseEntries_time (f n : Nat) (s : State) : (loseEntries f n s).time = s.time := bareEvent_time (loseEntries_bare f n s)
@[simp] theorem loseEntries_berths (f n : Nat) (s : State) : (loseEntries f n s).berths = s.berths := bareEvent_berths (loseEntries_bare f n s)
@[simp] theorem loseEntries_dec (f n : Nat) (s : State) : (loseEntries f n s).dec = s.dec := bareEvent_dec (loseEntries_bare f n s)
@[simp] theorem loseEntries_bcom (f n : Nat) (s : State) : (loseEntries f n s).bcom = s.bcom := bareEvent_bcom (loseEntries_bare f n s)
@[simp] theorem loseEntries_mac (f n : Nat) (s : State) : (loseEntries f n s).mac = s.mac := bareEvent_mac (loseEntries_bare f n s)
@[simp] theorem loseEntries_tables (f n : Nat) (s : State) : (loseEntries f n s).tables = s.tables := bareEvent_tables (loseEntries_bare f n s)
@[simp] theorem loseEntries_svc (f n : Nat) (s : State) : (loseEntries f n s).svc = s.svc := bareEvent_svc (loseEntries_bare f n s)
@[simp] theorem loseEntries_camp (f n : Nat) (s : State) : (loseEntries f n s).camp = s.camp := bareEvent_camp (loseEntries_bare f n s)
@[simp] theorem loseEntries_ports (f n : Nat) (s : State) : (loseEntries f n s).ports = s.ports := bareEvent_ports (loseEntries_bare f n s)
@[simp] theorem loseEntries_jobs (f n : Nat) (s : State) : (loseEntries f n s).jobs = s.jobs := bareEvent_jobs (loseEntries_bare f n s)
@[simp] theorem loseEntries_stevs (f n : Nat) (s : State) : (loseEntries f n s).stevs = s.stevs := bareEvent_stevs (loseEntries_bare f n s)
@[simp] theorem loseEntries_landed (f n : Nat) (s : State) : (loseEntries f n s).landed = s.landed := bareEvent_landed (loseEntries_bare f n s)
@[simp] theorem loseEntries_lastServed (f n : Nat) (s : State) : (loseEntries f n s).lastServed = s.lastServed := bareEvent_lastServed (loseEntries_bare f n s)
@[simp] theorem loseEntries_fabric (f n : Nat) (s : State) : (loseEntries f n s).fabric = s.fabric := bareEvent_fabric (loseEntries_bare f n s)
@[simp] theorem loseEntries_keys (f n : Nat) (s : State) : (loseEntries f n s).keys = s.keys := bareEvent_keys (loseEntries_bare f n s)
@[simp] theorem loseEntries_plinth (f n : Nat) (s : State) : (loseEntries f n s).plinth = s.plinth := bareEvent_plinth (loseEntries_bare f n s)
@[simp] theorem loseEntries_hold (f n : Nat) (s : State) : (loseEntries f n s).hold = s.hold := bareEvent_hold (loseEntries_bare f n s)
@[simp] theorem loseEntries_claim (f n : Nat) (s : State) : (loseEntries f n s).claim = s.claim := bareEvent_claim (loseEntries_bare f n s)
@[simp] theorem loseEntries_fw (f n : Nat) (s : State) : (loseEntries f n s).fw = s.fw := bareEvent_fw (loseEntries_bare f n s)
@[simp] theorem loseEntries_flash (f n : Nat) (s : State) : (loseEntries f n s).flash = s.flash := bareEvent_flash (loseEntries_bare f n s)
@[simp] theorem loseEntries_otp (f n : Nat) (s : State) : (loseEntries f n s).otp = s.otp := bareEvent_otp (loseEntries_bare f n s)
@[simp] theorem loseEntries_start (f n : Nat) (s : State) : (loseEntries f n s).start = s.start := bareEvent_start (loseEntries_bare f n s)
@[simp] theorem loseEntries_mgmt (f n : Nat) (s : State) : (loseEntries f n s).mgmt = s.mgmt := bareEvent_mgmt (loseEntries_bare f n s)
@[simp] theorem loseEntries_pins (f n : Nat) (s : State) : (loseEntries f n s).pins = s.pins := bareEvent_pins (loseEntries_bare f n s)
@[simp] theorem loseEntries_outs (f n : Nat) (s : State) : (loseEntries f n s).outs = s.outs := bareEvent_outs (loseEntries_bare f n s)
@[simp] theorem loseEntries_draws (f n : Nat) (s : State) : (loseEntries f n s).draws = s.draws := bareEvent_draws (loseEntries_bare f n s)
@[simp] theorem loseEntries_pending (f n : Nat) (s : State) : (loseEntries f n s).pending = s.pending := bareEvent_pending (loseEntries_bare f n s)

/-! ### Registers -/

theorem plainWrite_bare (k : Nat) (r : RegRow) (v : Word) (s : State) : bareRead (plainWrite k r v s) = bareRead s := rfl

theorem storeKey_bare (k : Nat) (v : Word) (s : State) : bareRead (storeKey k v s) = bareRead s := by
  unfold storeKey; split <;> rfl

/-- A state without what a bus error may touch. -/
def bareBus (s : State) : State := { s with regs := [], fns := [], outs := [] }

theorem busError_bare (f o : Nat) (b : Bool) (h : Shape) (c : BusCause) (s : State) : bareBus (busError f o b h c s) = bareBus s := by
  unfold busError; cases b <;> rfl

/-! `plainWrite` -/

@[simp] theorem plainWrite_pend (k : Nat) (r : RegRow) (v : Word) (s : State) : (plainWrite k r v s).pend = s.pend := bareRead_pend (plainWrite_bare k r v s)
@[simp] theorem plainWrite_posted (k : Nat) (r : RegRow) (v : Word) (s : State) : (plainWrite k r v s).posted = s.posted := bareRead_posted (plainWrite_bare k r v s)
@[simp] theorem plainWrite_time (k : Nat) (r : RegRow) (v : Word) (s : State) : (plainWrite k r v s).time = s.time := bareRead_time (plainWrite_bare k r v s)
@[simp] theorem plainWrite_berths (k : Nat) (r : RegRow) (v : Word) (s : State) : (plainWrite k r v s).berths = s.berths := bareRead_berths (plainWrite_bare k r v s)
@[simp] theorem plainWrite_dec (k : Nat) (r : RegRow) (v : Word) (s : State) : (plainWrite k r v s).dec = s.dec := bareRead_dec (plainWrite_bare k r v s)
@[simp] theorem plainWrite_bcom (k : Nat) (r : RegRow) (v : Word) (s : State) : (plainWrite k r v s).bcom = s.bcom := bareRead_bcom (plainWrite_bare k r v s)
@[simp] theorem plainWrite_mac (k : Nat) (r : RegRow) (v : Word) (s : State) : (plainWrite k r v s).mac = s.mac := bareRead_mac (plainWrite_bare k r v s)
@[simp] theorem plainWrite_tables (k : Nat) (r : RegRow) (v : Word) (s : State) : (plainWrite k r v s).tables = s.tables := bareRead_tables (plainWrite_bare k r v s)
@[simp] theorem plainWrite_svc (k : Nat) (r : RegRow) (v : Word) (s : State) : (plainWrite k r v s).svc = s.svc := bareRead_svc (plainWrite_bare k r v s)
@[simp] theorem plainWrite_camp (k : Nat) (r : RegRow) (v : Word) (s : State) : (plainWrite k r v s).camp = s.camp := bareRead_camp (plainWrite_bare k r v s)
@[simp] theorem plainWrite_fns (k : Nat) (r : RegRow) (v : Word) (s : State) : (plainWrite k r v s).fns = s.fns := bareRead_fns (plainWrite_bare k r v s)
@[simp] theorem plainWrite_ports (k : Nat) (r : RegRow) (v : Word) (s : State) : (plainWrite k r v s).ports = s.ports := bareRead_ports (plainWrite_bare k r v s)
@[simp] theorem plainWrite_jobs (k : Nat) (r : RegRow) (v : Word) (s : State) : (plainWrite k r v s).jobs = s.jobs := bareRead_jobs (plainWrite_bare k r v s)
@[simp] theorem plainWrite_stevs (k : Nat) (r : RegRow) (v : Word) (s : State) : (plainWrite k r v s).stevs = s.stevs := bareRead_stevs (plainWrite_bare k r v s)
@[simp] theorem plainWrite_landed (k : Nat) (r : RegRow) (v : Word) (s : State) : (plainWrite k r v s).landed = s.landed := bareRead_landed (plainWrite_bare k r v s)
@[simp] theorem plainWrite_lastServed (k : Nat) (r : RegRow) (v : Word) (s : State) : (plainWrite k r v s).lastServed = s.lastServed := bareRead_lastServed (plainWrite_bare k r v s)
@[simp] theorem plainWrite_fabric (k : Nat) (r : RegRow) (v : Word) (s : State) : (plainWrite k r v s).fabric = s.fabric := bareRead_fabric (plainWrite_bare k r v s)
@[simp] theorem plainWrite_keys (k : Nat) (r : RegRow) (v : Word) (s : State) : (plainWrite k r v s).keys = s.keys := bareRead_keys (plainWrite_bare k r v s)
@[simp] theorem plainWrite_plinth (k : Nat) (r : RegRow) (v : Word) (s : State) : (plainWrite k r v s).plinth = s.plinth := bareRead_plinth (plainWrite_bare k r v s)
@[simp] theorem plainWrite_hold (k : Nat) (r : RegRow) (v : Word) (s : State) : (plainWrite k r v s).hold = s.hold := bareRead_hold (plainWrite_bare k r v s)
@[simp] theorem plainWrite_claim (k : Nat) (r : RegRow) (v : Word) (s : State) : (plainWrite k r v s).claim = s.claim := bareRead_claim (plainWrite_bare k r v s)
@[simp] theorem plainWrite_fw (k : Nat) (r : RegRow) (v : Word) (s : State) : (plainWrite k r v s).fw = s.fw := bareRead_fw (plainWrite_bare k r v s)
@[simp] theorem plainWrite_flash (k : Nat) (r : RegRow) (v : Word) (s : State) : (plainWrite k r v s).flash = s.flash := bareRead_flash (plainWrite_bare k r v s)
@[simp] theorem plainWrite_otp (k : Nat) (r : RegRow) (v : Word) (s : State) : (plainWrite k r v s).otp = s.otp := bareRead_otp (plainWrite_bare k r v s)
@[simp] theorem plainWrite_start (k : Nat) (r : RegRow) (v : Word) (s : State) : (plainWrite k r v s).start = s.start := bareRead_start (plainWrite_bare k r v s)
@[simp] theorem plainWrite_mgmt (k : Nat) (r : RegRow) (v : Word) (s : State) : (plainWrite k r v s).mgmt = s.mgmt := bareRead_mgmt (plainWrite_bare k r v s)
@[simp] theorem plainWrite_pins (k : Nat) (r : RegRow) (v : Word) (s : State) : (plainWrite k r v s).pins = s.pins := bareRead_pins (plainWrite_bare k r v s)
@[simp] theorem plainWrite_draws (k : Nat) (r : RegRow) (v : Word) (s : State) : (plainWrite k r v s).draws = s.draws := bareRead_draws (plainWrite_bare k r v s)
@[simp] theorem plainWrite_pending (k : Nat) (r : RegRow) (v : Word) (s : State) : (plainWrite k r v s).pending = s.pending := bareRead_pending (plainWrite_bare k r v s)

/-! `storeKey` -/

@[simp] theorem storeKey_pend (k : Nat) (v : Word) (s : State) : (storeKey k v s).pend = s.pend := bareRead_pend (storeKey_bare k v s)
@[simp] theorem storeKey_posted (k : Nat) (v : Word) (s : State) : (storeKey k v s).posted = s.posted := bareRead_posted (storeKey_bare k v s)
@[simp] theorem storeKey_time (k : Nat) (v : Word) (s : State) : (storeKey k v s).time = s.time := bareRead_time (storeKey_bare k v s)
@[simp] theorem storeKey_berths (k : Nat) (v : Word) (s : State) : (storeKey k v s).berths = s.berths := bareRead_berths (storeKey_bare k v s)
@[simp] theorem storeKey_dec (k : Nat) (v : Word) (s : State) : (storeKey k v s).dec = s.dec := bareRead_dec (storeKey_bare k v s)
@[simp] theorem storeKey_bcom (k : Nat) (v : Word) (s : State) : (storeKey k v s).bcom = s.bcom := bareRead_bcom (storeKey_bare k v s)
@[simp] theorem storeKey_mac (k : Nat) (v : Word) (s : State) : (storeKey k v s).mac = s.mac := bareRead_mac (storeKey_bare k v s)
@[simp] theorem storeKey_tables (k : Nat) (v : Word) (s : State) : (storeKey k v s).tables = s.tables := bareRead_tables (storeKey_bare k v s)
@[simp] theorem storeKey_svc (k : Nat) (v : Word) (s : State) : (storeKey k v s).svc = s.svc := bareRead_svc (storeKey_bare k v s)
@[simp] theorem storeKey_camp (k : Nat) (v : Word) (s : State) : (storeKey k v s).camp = s.camp := bareRead_camp (storeKey_bare k v s)
@[simp] theorem storeKey_fns (k : Nat) (v : Word) (s : State) : (storeKey k v s).fns = s.fns := bareRead_fns (storeKey_bare k v s)
@[simp] theorem storeKey_ports (k : Nat) (v : Word) (s : State) : (storeKey k v s).ports = s.ports := bareRead_ports (storeKey_bare k v s)
@[simp] theorem storeKey_jobs (k : Nat) (v : Word) (s : State) : (storeKey k v s).jobs = s.jobs := bareRead_jobs (storeKey_bare k v s)
@[simp] theorem storeKey_stevs (k : Nat) (v : Word) (s : State) : (storeKey k v s).stevs = s.stevs := bareRead_stevs (storeKey_bare k v s)
@[simp] theorem storeKey_landed (k : Nat) (v : Word) (s : State) : (storeKey k v s).landed = s.landed := bareRead_landed (storeKey_bare k v s)
@[simp] theorem storeKey_lastServed (k : Nat) (v : Word) (s : State) : (storeKey k v s).lastServed = s.lastServed := bareRead_lastServed (storeKey_bare k v s)
@[simp] theorem storeKey_fabric (k : Nat) (v : Word) (s : State) : (storeKey k v s).fabric = s.fabric := bareRead_fabric (storeKey_bare k v s)
@[simp] theorem storeKey_keys (k : Nat) (v : Word) (s : State) : (storeKey k v s).keys = s.keys := bareRead_keys (storeKey_bare k v s)
@[simp] theorem storeKey_plinth (k : Nat) (v : Word) (s : State) : (storeKey k v s).plinth = s.plinth := bareRead_plinth (storeKey_bare k v s)
@[simp] theorem storeKey_hold (k : Nat) (v : Word) (s : State) : (storeKey k v s).hold = s.hold := bareRead_hold (storeKey_bare k v s)
@[simp] theorem storeKey_claim (k : Nat) (v : Word) (s : State) : (storeKey k v s).claim = s.claim := bareRead_claim (storeKey_bare k v s)
@[simp] theorem storeKey_fw (k : Nat) (v : Word) (s : State) : (storeKey k v s).fw = s.fw := bareRead_fw (storeKey_bare k v s)
@[simp] theorem storeKey_flash (k : Nat) (v : Word) (s : State) : (storeKey k v s).flash = s.flash := bareRead_flash (storeKey_bare k v s)
@[simp] theorem storeKey_otp (k : Nat) (v : Word) (s : State) : (storeKey k v s).otp = s.otp := bareRead_otp (storeKey_bare k v s)
@[simp] theorem storeKey_start (k : Nat) (v : Word) (s : State) : (storeKey k v s).start = s.start := bareRead_start (storeKey_bare k v s)
@[simp] theorem storeKey_mgmt (k : Nat) (v : Word) (s : State) : (storeKey k v s).mgmt = s.mgmt := bareRead_mgmt (storeKey_bare k v s)
@[simp] theorem storeKey_pins (k : Nat) (v : Word) (s : State) : (storeKey k v s).pins = s.pins := bareRead_pins (storeKey_bare k v s)
@[simp] theorem storeKey_draws (k : Nat) (v : Word) (s : State) : (storeKey k v s).draws = s.draws := bareRead_draws (storeKey_bare k v s)
@[simp] theorem storeKey_pending (k : Nat) (v : Word) (s : State) : (storeKey k v s).pending = s.pending := bareRead_pending (storeKey_bare k v s)

/-! `busError` -/

@[simp] theorem busError_pend (f o : Nat) (b : Bool) (h : Shape) (c : BusCause) (s : State) : (busError f o b h c s).pend = s.pend := by have e := congrArg State.pend (busError_bare f o b h c s); exact e
@[simp] theorem busError_posted (f o : Nat) (b : Bool) (h : Shape) (c : BusCause) (s : State) : (busError f o b h c s).posted = s.posted := by have e := congrArg State.posted (busError_bare f o b h c s); exact e
@[simp] theorem busError_time (f o : Nat) (b : Bool) (h : Shape) (c : BusCause) (s : State) : (busError f o b h c s).time = s.time := by have e := congrArg State.time (busError_bare f o b h c s); exact e
@[simp] theorem busError_berths (f o : Nat) (b : Bool) (h : Shape) (c : BusCause) (s : State) : (busError f o b h c s).berths = s.berths := by have e := congrArg State.berths (busError_bare f o b h c s); exact e
@[simp] theorem busError_dec (f o : Nat) (b : Bool) (h : Shape) (c : BusCause) (s : State) : (busError f o b h c s).dec = s.dec := by have e := congrArg State.dec (busError_bare f o b h c s); exact e
@[simp] theorem busError_bcom (f o : Nat) (b : Bool) (h : Shape) (c : BusCause) (s : State) : (busError f o b h c s).bcom = s.bcom := by have e := congrArg State.bcom (busError_bare f o b h c s); exact e
@[simp] theorem busError_mac (f o : Nat) (b : Bool) (h : Shape) (c : BusCause) (s : State) : (busError f o b h c s).mac = s.mac := by have e := congrArg State.mac (busError_bare f o b h c s); exact e
@[simp] theorem busError_tables (f o : Nat) (b : Bool) (h : Shape) (c : BusCause) (s : State) : (busError f o b h c s).tables = s.tables := by have e := congrArg State.tables (busError_bare f o b h c s); exact e
@[simp] theorem busError_svc (f o : Nat) (b : Bool) (h : Shape) (c : BusCause) (s : State) : (busError f o b h c s).svc = s.svc := by have e := congrArg State.svc (busError_bare f o b h c s); exact e
@[simp] theorem busError_camp (f o : Nat) (b : Bool) (h : Shape) (c : BusCause) (s : State) : (busError f o b h c s).camp = s.camp := by have e := congrArg State.camp (busError_bare f o b h c s); exact e
@[simp] theorem busError_ports (f o : Nat) (b : Bool) (h : Shape) (c : BusCause) (s : State) : (busError f o b h c s).ports = s.ports := by have e := congrArg State.ports (busError_bare f o b h c s); exact e
@[simp] theorem busError_jobs (f o : Nat) (b : Bool) (h : Shape) (c : BusCause) (s : State) : (busError f o b h c s).jobs = s.jobs := by have e := congrArg State.jobs (busError_bare f o b h c s); exact e
@[simp] theorem busError_stevs (f o : Nat) (b : Bool) (h : Shape) (c : BusCause) (s : State) : (busError f o b h c s).stevs = s.stevs := by have e := congrArg State.stevs (busError_bare f o b h c s); exact e
@[simp] theorem busError_landed (f o : Nat) (b : Bool) (h : Shape) (c : BusCause) (s : State) : (busError f o b h c s).landed = s.landed := by have e := congrArg State.landed (busError_bare f o b h c s); exact e
@[simp] theorem busError_lastServed (f o : Nat) (b : Bool) (h : Shape) (c : BusCause) (s : State) : (busError f o b h c s).lastServed = s.lastServed := by have e := congrArg State.lastServed (busError_bare f o b h c s); exact e
@[simp] theorem busError_fabric (f o : Nat) (b : Bool) (h : Shape) (c : BusCause) (s : State) : (busError f o b h c s).fabric = s.fabric := by have e := congrArg State.fabric (busError_bare f o b h c s); exact e
@[simp] theorem busError_keys (f o : Nat) (b : Bool) (h : Shape) (c : BusCause) (s : State) : (busError f o b h c s).keys = s.keys := by have e := congrArg State.keys (busError_bare f o b h c s); exact e
@[simp] theorem busError_plinth (f o : Nat) (b : Bool) (h : Shape) (c : BusCause) (s : State) : (busError f o b h c s).plinth = s.plinth := by have e := congrArg State.plinth (busError_bare f o b h c s); exact e
@[simp] theorem busError_hold (f o : Nat) (b : Bool) (h : Shape) (c : BusCause) (s : State) : (busError f o b h c s).hold = s.hold := by have e := congrArg State.hold (busError_bare f o b h c s); exact e
@[simp] theorem busError_claim (f o : Nat) (b : Bool) (h : Shape) (c : BusCause) (s : State) : (busError f o b h c s).claim = s.claim := by have e := congrArg State.claim (busError_bare f o b h c s); exact e
@[simp] theorem busError_fw (f o : Nat) (b : Bool) (h : Shape) (c : BusCause) (s : State) : (busError f o b h c s).fw = s.fw := by have e := congrArg State.fw (busError_bare f o b h c s); exact e
@[simp] theorem busError_flash (f o : Nat) (b : Bool) (h : Shape) (c : BusCause) (s : State) : (busError f o b h c s).flash = s.flash := by have e := congrArg State.flash (busError_bare f o b h c s); exact e
@[simp] theorem busError_otp (f o : Nat) (b : Bool) (h : Shape) (c : BusCause) (s : State) : (busError f o b h c s).otp = s.otp := by have e := congrArg State.otp (busError_bare f o b h c s); exact e
@[simp] theorem busError_start (f o : Nat) (b : Bool) (h : Shape) (c : BusCause) (s : State) : (busError f o b h c s).start = s.start := by have e := congrArg State.start (busError_bare f o b h c s); exact e
@[simp] theorem busError_mgmt (f o : Nat) (b : Bool) (h : Shape) (c : BusCause) (s : State) : (busError f o b h c s).mgmt = s.mgmt := by have e := congrArg State.mgmt (busError_bare f o b h c s); exact e
@[simp] theorem busError_pins (f o : Nat) (b : Bool) (h : Shape) (c : BusCause) (s : State) : (busError f o b h c s).pins = s.pins := by have e := congrArg State.pins (busError_bare f o b h c s); exact e
@[simp] theorem busError_draws (f o : Nat) (b : Bool) (h : Shape) (c : BusCause) (s : State) : (busError f o b h c s).draws = s.draws := by have e := congrArg State.draws (busError_bare f o b h c s); exact e
@[simp] theorem busError_pending (f o : Nat) (b : Bool) (h : Shape) (c : BusCause) (s : State) : (busError f o b h c s).pending = s.pending := by have e := congrArg State.pending (busError_bare f o b h c s); exact e

/-- Activity is noted in the function alone (R291). -/
@[simp] theorem active_regs (f : Nat) (s : State) : (active f s).regs = s.regs := rfl

theorem active_bare (f : Nat) (s : State) : bareEvent (active f s) = bareEvent s := rfl

/-! `active` -/

@[simp] theorem active_pend (f : Nat) (s : State) : (active f s).pend = s.pend := bareEvent_pend (active_bare f s)
@[simp] theorem active_posted (f : Nat) (s : State) : (active f s).posted = s.posted := bareEvent_posted (active_bare f s)
@[simp] theorem active_time (f : Nat) (s : State) : (active f s).time = s.time := bareEvent_time (active_bare f s)
@[simp] theorem active_berths (f : Nat) (s : State) : (active f s).berths = s.berths := bareEvent_berths (active_bare f s)
@[simp] theorem active_dec (f : Nat) (s : State) : (active f s).dec = s.dec := bareEvent_dec (active_bare f s)
@[simp] theorem active_bcom (f : Nat) (s : State) : (active f s).bcom = s.bcom := bareEvent_bcom (active_bare f s)
@[simp] theorem active_mac (f : Nat) (s : State) : (active f s).mac = s.mac := bareEvent_mac (active_bare f s)
@[simp] theorem active_tables (f : Nat) (s : State) : (active f s).tables = s.tables := bareEvent_tables (active_bare f s)
@[simp] theorem active_svc (f : Nat) (s : State) : (active f s).svc = s.svc := bareEvent_svc (active_bare f s)
@[simp] theorem active_camp (f : Nat) (s : State) : (active f s).camp = s.camp := bareEvent_camp (active_bare f s)
@[simp] theorem active_ports (f : Nat) (s : State) : (active f s).ports = s.ports := bareEvent_ports (active_bare f s)
@[simp] theorem active_jobs (f : Nat) (s : State) : (active f s).jobs = s.jobs := bareEvent_jobs (active_bare f s)
@[simp] theorem active_stevs (f : Nat) (s : State) : (active f s).stevs = s.stevs := bareEvent_stevs (active_bare f s)
@[simp] theorem active_landed (f : Nat) (s : State) : (active f s).landed = s.landed := bareEvent_landed (active_bare f s)
@[simp] theorem active_lastServed (f : Nat) (s : State) : (active f s).lastServed = s.lastServed := bareEvent_lastServed (active_bare f s)
@[simp] theorem active_fabric (f : Nat) (s : State) : (active f s).fabric = s.fabric := bareEvent_fabric (active_bare f s)
@[simp] theorem active_keys (f : Nat) (s : State) : (active f s).keys = s.keys := bareEvent_keys (active_bare f s)
@[simp] theorem active_plinth (f : Nat) (s : State) : (active f s).plinth = s.plinth := bareEvent_plinth (active_bare f s)
@[simp] theorem active_hold (f : Nat) (s : State) : (active f s).hold = s.hold := bareEvent_hold (active_bare f s)
@[simp] theorem active_claim (f : Nat) (s : State) : (active f s).claim = s.claim := bareEvent_claim (active_bare f s)
@[simp] theorem active_fw (f : Nat) (s : State) : (active f s).fw = s.fw := bareEvent_fw (active_bare f s)
@[simp] theorem active_flash (f : Nat) (s : State) : (active f s).flash = s.flash := bareEvent_flash (active_bare f s)
@[simp] theorem active_otp (f : Nat) (s : State) : (active f s).otp = s.otp := bareEvent_otp (active_bare f s)
@[simp] theorem active_start (f : Nat) (s : State) : (active f s).start = s.start := bareEvent_start (active_bare f s)
@[simp] theorem active_mgmt (f : Nat) (s : State) : (active f s).mgmt = s.mgmt := bareEvent_mgmt (active_bare f s)
@[simp] theorem active_pins (f : Nat) (s : State) : (active f s).pins = s.pins := bareEvent_pins (active_bare f s)
@[simp] theorem active_outs (f : Nat) (s : State) : (active f s).outs = s.outs := bareEvent_outs (active_bare f s)
@[simp] theorem active_draws (f : Nat) (s : State) : (active f s).draws = s.draws := bareEvent_draws (active_bare f s)
@[simp] theorem active_pending (f : Nat) (s : State) : (active f s).pending = s.pending := bareEvent_pending (active_bare f s)

@[simp] theorem storeKey_outs (k : Nat) (v : Word) (s : State) : (storeKey k v s).outs = s.outs := by
  unfold storeKey; split <;> rfl

@[simp] theorem plainWrite_outs (k : Nat) (r : RegRow) (v : Word) (s : State) : (plainWrite k r v s).outs = s.outs := rfl

/-! ### Time -/

theorem applySlew_bare (n : Nat) (s : State) : bareTime (applySlew n s) = bareTime s := by
  unfold applySlew adjDone; dsimp only; split
  · rw [bareTime_of_event (raiseOcc_bare _ _)]; rfl
  · rfl

theorem elapse_bare (n : Nat) (s : State) : bareTime (elapse n s) = bareTime s := by
  unfold elapse; split
  · rfl
  · dsimp only; rw [← applySlew_bare n s]; rfl

theorem elapseToNs_bare (t : Instant) (s : State) : bareTime (elapseToNs t s) = bareTime s := by
  unfold elapseToNs; dsimp only; split
  · rfl
  · exact elapse_bare _ s

theorem elapseToMono_bare (t : Nat) (s : State) : bareTime (elapseToMono t s) = bareTime s := by
  unfold elapseToMono; split
  · rfl
  · exact elapse_bare _ s

theorem fireTimer_bare (t : Nat) (s : State) : bareTime (fireTimer t s) = bareTime s := by
  unfold fireTimer; dsimp only; split
  · rw [bareTime_of_event (raise_bare _ _ _), bareTime_of_event (bump_bare _ _ _)]; exact elapseToMono_bare t s
  · exact elapseToMono_bare t s

/-! `elapse` -/

@[simp] theorem elapse_pend (n : Nat) (s : State) : (elapse n s).pend = s.pend := bareTime_pend (elapse_bare n s)
@[simp] theorem elapse_posted (n : Nat) (s : State) : (elapse n s).posted = s.posted := bareTime_posted (elapse_bare n s)
@[simp] theorem elapse_berths (n : Nat) (s : State) : (elapse n s).berths = s.berths := bareTime_berths (elapse_bare n s)
@[simp] theorem elapse_dec (n : Nat) (s : State) : (elapse n s).dec = s.dec := bareTime_dec (elapse_bare n s)
@[simp] theorem elapse_bcom (n : Nat) (s : State) : (elapse n s).bcom = s.bcom := bareTime_bcom (elapse_bare n s)
@[simp] theorem elapse_mac (n : Nat) (s : State) : (elapse n s).mac = s.mac := bareTime_mac (elapse_bare n s)
@[simp] theorem elapse_tables (n : Nat) (s : State) : (elapse n s).tables = s.tables := bareTime_tables (elapse_bare n s)
@[simp] theorem elapse_svc (n : Nat) (s : State) : (elapse n s).svc = s.svc := bareTime_svc (elapse_bare n s)
@[simp] theorem elapse_camp (n : Nat) (s : State) : (elapse n s).camp = s.camp := bareTime_camp (elapse_bare n s)
@[simp] theorem elapse_ports (n : Nat) (s : State) : (elapse n s).ports = s.ports := bareTime_ports (elapse_bare n s)
@[simp] theorem elapse_jobs (n : Nat) (s : State) : (elapse n s).jobs = s.jobs := bareTime_jobs (elapse_bare n s)
@[simp] theorem elapse_stevs (n : Nat) (s : State) : (elapse n s).stevs = s.stevs := bareTime_stevs (elapse_bare n s)
@[simp] theorem elapse_landed (n : Nat) (s : State) : (elapse n s).landed = s.landed := bareTime_landed (elapse_bare n s)
@[simp] theorem elapse_lastServed (n : Nat) (s : State) : (elapse n s).lastServed = s.lastServed := bareTime_lastServed (elapse_bare n s)
@[simp] theorem elapse_fabric (n : Nat) (s : State) : (elapse n s).fabric = s.fabric := bareTime_fabric (elapse_bare n s)
@[simp] theorem elapse_keys (n : Nat) (s : State) : (elapse n s).keys = s.keys := bareTime_keys (elapse_bare n s)
@[simp] theorem elapse_hold (n : Nat) (s : State) : (elapse n s).hold = s.hold := bareTime_hold (elapse_bare n s)
@[simp] theorem elapse_claim (n : Nat) (s : State) : (elapse n s).claim = s.claim := bareTime_claim (elapse_bare n s)
@[simp] theorem elapse_fw (n : Nat) (s : State) : (elapse n s).fw = s.fw := bareTime_fw (elapse_bare n s)
@[simp] theorem elapse_flash (n : Nat) (s : State) : (elapse n s).flash = s.flash := bareTime_flash (elapse_bare n s)
@[simp] theorem elapse_otp (n : Nat) (s : State) : (elapse n s).otp = s.otp := bareTime_otp (elapse_bare n s)
@[simp] theorem elapse_start (n : Nat) (s : State) : (elapse n s).start = s.start := bareTime_start (elapse_bare n s)
@[simp] theorem elapse_mgmt (n : Nat) (s : State) : (elapse n s).mgmt = s.mgmt := bareTime_mgmt (elapse_bare n s)
@[simp] theorem elapse_pins (n : Nat) (s : State) : (elapse n s).pins = s.pins := bareTime_pins (elapse_bare n s)
@[simp] theorem elapse_outs (n : Nat) (s : State) : (elapse n s).outs = s.outs := bareTime_outs (elapse_bare n s)
@[simp] theorem elapse_draws (n : Nat) (s : State) : (elapse n s).draws = s.draws := bareTime_draws (elapse_bare n s)
@[simp] theorem elapse_pending (n : Nat) (s : State) : (elapse n s).pending = s.pending := bareTime_pending (elapse_bare n s)

/-! `elapseToNs` -/

@[simp] theorem elapseToNs_pend (t : Instant) (s : State) : (elapseToNs t s).pend = s.pend := bareTime_pend (elapseToNs_bare t s)
@[simp] theorem elapseToNs_posted (t : Instant) (s : State) : (elapseToNs t s).posted = s.posted := bareTime_posted (elapseToNs_bare t s)
@[simp] theorem elapseToNs_berths (t : Instant) (s : State) : (elapseToNs t s).berths = s.berths := bareTime_berths (elapseToNs_bare t s)
@[simp] theorem elapseToNs_dec (t : Instant) (s : State) : (elapseToNs t s).dec = s.dec := bareTime_dec (elapseToNs_bare t s)
@[simp] theorem elapseToNs_bcom (t : Instant) (s : State) : (elapseToNs t s).bcom = s.bcom := bareTime_bcom (elapseToNs_bare t s)
@[simp] theorem elapseToNs_mac (t : Instant) (s : State) : (elapseToNs t s).mac = s.mac := bareTime_mac (elapseToNs_bare t s)
@[simp] theorem elapseToNs_tables (t : Instant) (s : State) : (elapseToNs t s).tables = s.tables := bareTime_tables (elapseToNs_bare t s)
@[simp] theorem elapseToNs_svc (t : Instant) (s : State) : (elapseToNs t s).svc = s.svc := bareTime_svc (elapseToNs_bare t s)
@[simp] theorem elapseToNs_camp (t : Instant) (s : State) : (elapseToNs t s).camp = s.camp := bareTime_camp (elapseToNs_bare t s)
@[simp] theorem elapseToNs_ports (t : Instant) (s : State) : (elapseToNs t s).ports = s.ports := bareTime_ports (elapseToNs_bare t s)
@[simp] theorem elapseToNs_jobs (t : Instant) (s : State) : (elapseToNs t s).jobs = s.jobs := bareTime_jobs (elapseToNs_bare t s)
@[simp] theorem elapseToNs_stevs (t : Instant) (s : State) : (elapseToNs t s).stevs = s.stevs := bareTime_stevs (elapseToNs_bare t s)
@[simp] theorem elapseToNs_landed (t : Instant) (s : State) : (elapseToNs t s).landed = s.landed := bareTime_landed (elapseToNs_bare t s)
@[simp] theorem elapseToNs_lastServed (t : Instant) (s : State) : (elapseToNs t s).lastServed = s.lastServed := bareTime_lastServed (elapseToNs_bare t s)
@[simp] theorem elapseToNs_fabric (t : Instant) (s : State) : (elapseToNs t s).fabric = s.fabric := bareTime_fabric (elapseToNs_bare t s)
@[simp] theorem elapseToNs_keys (t : Instant) (s : State) : (elapseToNs t s).keys = s.keys := bareTime_keys (elapseToNs_bare t s)
@[simp] theorem elapseToNs_hold (t : Instant) (s : State) : (elapseToNs t s).hold = s.hold := bareTime_hold (elapseToNs_bare t s)
@[simp] theorem elapseToNs_claim (t : Instant) (s : State) : (elapseToNs t s).claim = s.claim := bareTime_claim (elapseToNs_bare t s)
@[simp] theorem elapseToNs_fw (t : Instant) (s : State) : (elapseToNs t s).fw = s.fw := bareTime_fw (elapseToNs_bare t s)
@[simp] theorem elapseToNs_flash (t : Instant) (s : State) : (elapseToNs t s).flash = s.flash := bareTime_flash (elapseToNs_bare t s)
@[simp] theorem elapseToNs_otp (t : Instant) (s : State) : (elapseToNs t s).otp = s.otp := bareTime_otp (elapseToNs_bare t s)
@[simp] theorem elapseToNs_start (t : Instant) (s : State) : (elapseToNs t s).start = s.start := bareTime_start (elapseToNs_bare t s)
@[simp] theorem elapseToNs_mgmt (t : Instant) (s : State) : (elapseToNs t s).mgmt = s.mgmt := bareTime_mgmt (elapseToNs_bare t s)
@[simp] theorem elapseToNs_pins (t : Instant) (s : State) : (elapseToNs t s).pins = s.pins := bareTime_pins (elapseToNs_bare t s)
@[simp] theorem elapseToNs_outs (t : Instant) (s : State) : (elapseToNs t s).outs = s.outs := bareTime_outs (elapseToNs_bare t s)
@[simp] theorem elapseToNs_draws (t : Instant) (s : State) : (elapseToNs t s).draws = s.draws := bareTime_draws (elapseToNs_bare t s)
@[simp] theorem elapseToNs_pending (t : Instant) (s : State) : (elapseToNs t s).pending = s.pending := bareTime_pending (elapseToNs_bare t s)

/-! `elapseToMono` -/

@[simp] theorem elapseToMono_pend (t : Nat) (s : State) : (elapseToMono t s).pend = s.pend := bareTime_pend (elapseToMono_bare t s)
@[simp] theorem elapseToMono_posted (t : Nat) (s : State) : (elapseToMono t s).posted = s.posted := bareTime_posted (elapseToMono_bare t s)
@[simp] theorem elapseToMono_berths (t : Nat) (s : State) : (elapseToMono t s).berths = s.berths := bareTime_berths (elapseToMono_bare t s)
@[simp] theorem elapseToMono_dec (t : Nat) (s : State) : (elapseToMono t s).dec = s.dec := bareTime_dec (elapseToMono_bare t s)
@[simp] theorem elapseToMono_bcom (t : Nat) (s : State) : (elapseToMono t s).bcom = s.bcom := bareTime_bcom (elapseToMono_bare t s)
@[simp] theorem elapseToMono_mac (t : Nat) (s : State) : (elapseToMono t s).mac = s.mac := bareTime_mac (elapseToMono_bare t s)
@[simp] theorem elapseToMono_tables (t : Nat) (s : State) : (elapseToMono t s).tables = s.tables := bareTime_tables (elapseToMono_bare t s)
@[simp] theorem elapseToMono_svc (t : Nat) (s : State) : (elapseToMono t s).svc = s.svc := bareTime_svc (elapseToMono_bare t s)
@[simp] theorem elapseToMono_camp (t : Nat) (s : State) : (elapseToMono t s).camp = s.camp := bareTime_camp (elapseToMono_bare t s)
@[simp] theorem elapseToMono_ports (t : Nat) (s : State) : (elapseToMono t s).ports = s.ports := bareTime_ports (elapseToMono_bare t s)
@[simp] theorem elapseToMono_jobs (t : Nat) (s : State) : (elapseToMono t s).jobs = s.jobs := bareTime_jobs (elapseToMono_bare t s)
@[simp] theorem elapseToMono_stevs (t : Nat) (s : State) : (elapseToMono t s).stevs = s.stevs := bareTime_stevs (elapseToMono_bare t s)
@[simp] theorem elapseToMono_landed (t : Nat) (s : State) : (elapseToMono t s).landed = s.landed := bareTime_landed (elapseToMono_bare t s)
@[simp] theorem elapseToMono_lastServed (t : Nat) (s : State) : (elapseToMono t s).lastServed = s.lastServed := bareTime_lastServed (elapseToMono_bare t s)
@[simp] theorem elapseToMono_fabric (t : Nat) (s : State) : (elapseToMono t s).fabric = s.fabric := bareTime_fabric (elapseToMono_bare t s)
@[simp] theorem elapseToMono_keys (t : Nat) (s : State) : (elapseToMono t s).keys = s.keys := bareTime_keys (elapseToMono_bare t s)
@[simp] theorem elapseToMono_hold (t : Nat) (s : State) : (elapseToMono t s).hold = s.hold := bareTime_hold (elapseToMono_bare t s)
@[simp] theorem elapseToMono_claim (t : Nat) (s : State) : (elapseToMono t s).claim = s.claim := bareTime_claim (elapseToMono_bare t s)
@[simp] theorem elapseToMono_fw (t : Nat) (s : State) : (elapseToMono t s).fw = s.fw := bareTime_fw (elapseToMono_bare t s)
@[simp] theorem elapseToMono_flash (t : Nat) (s : State) : (elapseToMono t s).flash = s.flash := bareTime_flash (elapseToMono_bare t s)
@[simp] theorem elapseToMono_otp (t : Nat) (s : State) : (elapseToMono t s).otp = s.otp := bareTime_otp (elapseToMono_bare t s)
@[simp] theorem elapseToMono_start (t : Nat) (s : State) : (elapseToMono t s).start = s.start := bareTime_start (elapseToMono_bare t s)
@[simp] theorem elapseToMono_mgmt (t : Nat) (s : State) : (elapseToMono t s).mgmt = s.mgmt := bareTime_mgmt (elapseToMono_bare t s)
@[simp] theorem elapseToMono_pins (t : Nat) (s : State) : (elapseToMono t s).pins = s.pins := bareTime_pins (elapseToMono_bare t s)
@[simp] theorem elapseToMono_outs (t : Nat) (s : State) : (elapseToMono t s).outs = s.outs := bareTime_outs (elapseToMono_bare t s)
@[simp] theorem elapseToMono_draws (t : Nat) (s : State) : (elapseToMono t s).draws = s.draws := bareTime_draws (elapseToMono_bare t s)
@[simp] theorem elapseToMono_pending (t : Nat) (s : State) : (elapseToMono t s).pending = s.pending := bareTime_pending (elapseToMono_bare t s)

/-! `fireTimer` -/

@[simp] theorem fireTimer_pend (t : Nat) (s : State) : (fireTimer t s).pend = s.pend := bareTime_pend (fireTimer_bare t s)
@[simp] theorem fireTimer_posted (t : Nat) (s : State) : (fireTimer t s).posted = s.posted := bareTime_posted (fireTimer_bare t s)
@[simp] theorem fireTimer_berths (t : Nat) (s : State) : (fireTimer t s).berths = s.berths := bareTime_berths (fireTimer_bare t s)
@[simp] theorem fireTimer_dec (t : Nat) (s : State) : (fireTimer t s).dec = s.dec := bareTime_dec (fireTimer_bare t s)
@[simp] theorem fireTimer_bcom (t : Nat) (s : State) : (fireTimer t s).bcom = s.bcom := bareTime_bcom (fireTimer_bare t s)
@[simp] theorem fireTimer_mac (t : Nat) (s : State) : (fireTimer t s).mac = s.mac := bareTime_mac (fireTimer_bare t s)
@[simp] theorem fireTimer_tables (t : Nat) (s : State) : (fireTimer t s).tables = s.tables := bareTime_tables (fireTimer_bare t s)
@[simp] theorem fireTimer_svc (t : Nat) (s : State) : (fireTimer t s).svc = s.svc := bareTime_svc (fireTimer_bare t s)
@[simp] theorem fireTimer_camp (t : Nat) (s : State) : (fireTimer t s).camp = s.camp := bareTime_camp (fireTimer_bare t s)
@[simp] theorem fireTimer_ports (t : Nat) (s : State) : (fireTimer t s).ports = s.ports := bareTime_ports (fireTimer_bare t s)
@[simp] theorem fireTimer_jobs (t : Nat) (s : State) : (fireTimer t s).jobs = s.jobs := bareTime_jobs (fireTimer_bare t s)
@[simp] theorem fireTimer_stevs (t : Nat) (s : State) : (fireTimer t s).stevs = s.stevs := bareTime_stevs (fireTimer_bare t s)
@[simp] theorem fireTimer_landed (t : Nat) (s : State) : (fireTimer t s).landed = s.landed := bareTime_landed (fireTimer_bare t s)
@[simp] theorem fireTimer_lastServed (t : Nat) (s : State) : (fireTimer t s).lastServed = s.lastServed := bareTime_lastServed (fireTimer_bare t s)
@[simp] theorem fireTimer_fabric (t : Nat) (s : State) : (fireTimer t s).fabric = s.fabric := bareTime_fabric (fireTimer_bare t s)
@[simp] theorem fireTimer_keys (t : Nat) (s : State) : (fireTimer t s).keys = s.keys := bareTime_keys (fireTimer_bare t s)
@[simp] theorem fireTimer_hold (t : Nat) (s : State) : (fireTimer t s).hold = s.hold := bareTime_hold (fireTimer_bare t s)
@[simp] theorem fireTimer_claim (t : Nat) (s : State) : (fireTimer t s).claim = s.claim := bareTime_claim (fireTimer_bare t s)
@[simp] theorem fireTimer_fw (t : Nat) (s : State) : (fireTimer t s).fw = s.fw := bareTime_fw (fireTimer_bare t s)
@[simp] theorem fireTimer_flash (t : Nat) (s : State) : (fireTimer t s).flash = s.flash := bareTime_flash (fireTimer_bare t s)
@[simp] theorem fireTimer_otp (t : Nat) (s : State) : (fireTimer t s).otp = s.otp := bareTime_otp (fireTimer_bare t s)
@[simp] theorem fireTimer_start (t : Nat) (s : State) : (fireTimer t s).start = s.start := bareTime_start (fireTimer_bare t s)
@[simp] theorem fireTimer_mgmt (t : Nat) (s : State) : (fireTimer t s).mgmt = s.mgmt := bareTime_mgmt (fireTimer_bare t s)
@[simp] theorem fireTimer_pins (t : Nat) (s : State) : (fireTimer t s).pins = s.pins := bareTime_pins (fireTimer_bare t s)
@[simp] theorem fireTimer_outs (t : Nat) (s : State) : (fireTimer t s).outs = s.outs := bareTime_outs (fireTimer_bare t s)
@[simp] theorem fireTimer_draws (t : Nat) (s : State) : (fireTimer t s).draws = s.draws := bareTime_draws (fireTimer_bare t s)
@[simp] theorem fireTimer_pending (t : Nat) (s : State) : (fireTimer t s).pending = s.pending := bareTime_pending (fireTimer_bare t s)

/-! ### Settling -/

theorem noteLowWater_bare (s : State) : bareSettle (noteLowWater s) = bareSettle s := by
  unfold noteLowWater; split <;> rfl

theorem watchPool_bare (s : State) : bareSettle (watchPool s) = bareSettle s := by
  unfold watchPool; dsimp only; split
  · split
    · rfl
    · rw [bareSettle_of_event (raise_bare _ _ _)]; rfl
  · split <;> rfl

theorem settlePool_bare (s : State) : bareSettle (settlePool s) = bareSettle s := (watchPool_bare (noteLowWater s)).trans (noteLowWater_bare s)

theorem assignOne_bare (s : State) : bareSettle (assignOne s) = bareSettle s := by
  unfold assignOne; split
  · split <;> rfl
  · rfl

theorem readyWrites_bare (f : Nat) (s : State) : bareSettle (readyWrites f s) = bareSettle s := rfl

theorem assignJobs_bare (s : State) : bareSettle (assignJobs s) = bareSettle s := by
  unfold assignJobs
  rw [foldl_keeps bareSettle _ (fun t _ => assignOne_bare t), forBelow_keeps bareSettle readyWrites readyWrites_bare]

theorem settlePins_bare (s : State) : bareSettle (settlePins s) = bareSettle s := rfl

theorem settle_bare (s : State) : bareSettle (settle s) = bareSettle s := by
  unfold settle; rw [settlePins_bare, assignJobs_bare, settlePool_bare]

/-! `settle` -/

@[simp] theorem settle_pend (s : State) : (settle s).pend = s.pend := bareSettle_pend (settle_bare s)
@[simp] theorem settle_posted (s : State) : (settle s).posted = s.posted := bareSettle_posted (settle_bare s)
@[simp] theorem settle_time (s : State) : (settle s).time = s.time := bareSettle_time (settle_bare s)
@[simp] theorem settle_berths (s : State) : (settle s).berths = s.berths := bareSettle_berths (settle_bare s)
@[simp] theorem settle_dec (s : State) : (settle s).dec = s.dec := bareSettle_dec (settle_bare s)
@[simp] theorem settle_bcom (s : State) : (settle s).bcom = s.bcom := bareSettle_bcom (settle_bare s)
@[simp] theorem settle_mac (s : State) : (settle s).mac = s.mac := bareSettle_mac (settle_bare s)
@[simp] theorem settle_tables (s : State) : (settle s).tables = s.tables := bareSettle_tables (settle_bare s)
@[simp] theorem settle_svc (s : State) : (settle s).svc = s.svc := bareSettle_svc (settle_bare s)
@[simp] theorem settle_camp (s : State) : (settle s).camp = s.camp := bareSettle_camp (settle_bare s)
@[simp] theorem settle_ports (s : State) : (settle s).ports = s.ports := bareSettle_ports (settle_bare s)
@[simp] theorem settle_landed (s : State) : (settle s).landed = s.landed := bareSettle_landed (settle_bare s)
@[simp] theorem settle_fabric (s : State) : (settle s).fabric = s.fabric := bareSettle_fabric (settle_bare s)
@[simp] theorem settle_keys (s : State) : (settle s).keys = s.keys := bareSettle_keys (settle_bare s)
@[simp] theorem settle_plinth (s : State) : (settle s).plinth = s.plinth := bareSettle_plinth (settle_bare s)
@[simp] theorem settle_claim (s : State) : (settle s).claim = s.claim := bareSettle_claim (settle_bare s)
@[simp] theorem settle_fw (s : State) : (settle s).fw = s.fw := bareSettle_fw (settle_bare s)
@[simp] theorem settle_flash (s : State) : (settle s).flash = s.flash := bareSettle_flash (settle_bare s)
@[simp] theorem settle_otp (s : State) : (settle s).otp = s.otp := bareSettle_otp (settle_bare s)
@[simp] theorem settle_start (s : State) : (settle s).start = s.start := bareSettle_start (settle_bare s)
@[simp] theorem settle_mgmt (s : State) : (settle s).mgmt = s.mgmt := bareSettle_mgmt (settle_bare s)
@[simp] theorem settle_outs (s : State) : (settle s).outs = s.outs := bareSettle_outs (settle_bare s)
@[simp] theorem settle_draws (s : State) : (settle s).draws = s.draws := bareSettle_draws (settle_bare s)
@[simp] theorem settle_pending (s : State) : (settle s).pending = s.pending := bareSettle_pending (settle_bare s)

/-! ### Read ports -/

theorem bareTap_emit (o : Out) (s : State) : bareTap (emit o s) = bareTap s := rfl

theorem bareTap_fset (b : Nat) (f : Fld) (v : Nat) (s : State) : bareTap (fset b f v s) = bareTap s := rfl

theorem bareTap_modTap (p : Nat) (g : PortTap → PortTap) (s : State) : bareTap (modTap p g s) = bareTap s := rfl

theorem popTap_bare (f p : Nat) (s : State) : bareTap (popTap f p s) = bareTap s := by
  unfold popTap; dsimp only; split
  · rw [bareTap_emit, bareTap_modTap]
  · rw [bareTap_emit, bareTap_fset]

theorem serveTap_bare (p : Nat) (s : State) : bareTap (serveTap p s) = bareTap s := by
  unfold serveTap; refine foldl_keeps bareTap _ (fun t b => ?_) _ s; split
  · rfl
  · rw [popTap_bare, bareTap_modTap]

theorem pushTap_bare (p : Nat) (hs : List TapWord) (s : State) : bareTap (pushTap p hs s) = bareTap s := by
  unfold pushTap; split
  · rw [bareTap_fset]
  · rw [serveTap_bare, bareTap_modTap]

theorem tapItem_bare (p : Nat) (s : State) (i : TapItem) : bareTap (tapItem p s i) = bareTap s := by
  unfold tapItem; rw [pushTap_bare]; rfl

theorem tapPort_bare (b : State) (p : Nat) (s : State) : bareTap (tapPort b p s) = bareTap s := by
  unfold tapPort; dsimp only; split
  · exact foldl_keeps bareTap _ (fun t i => tapItem_bare p t i) _ s
  · rfl

theorem tapAll_bare (b : State) (s : State) : bareTap (tapAll b s) = bareTap s := forBelow_keeps bareTap _ (fun p t => tapPort_bare b p t) 4 s

/-! `popTap` -/

@[simp] theorem popTap_pend (f p : Nat) (s : State) : (popTap f p s).pend = s.pend := bareTap_pend (popTap_bare f p s)
@[simp] theorem popTap_posted (f p : Nat) (s : State) : (popTap f p s).posted = s.posted := bareTap_posted (popTap_bare f p s)
@[simp] theorem popTap_time (f p : Nat) (s : State) : (popTap f p s).time = s.time := bareTap_time (popTap_bare f p s)
@[simp] theorem popTap_berths (f p : Nat) (s : State) : (popTap f p s).berths = s.berths := bareTap_berths (popTap_bare f p s)
@[simp] theorem popTap_dec (f p : Nat) (s : State) : (popTap f p s).dec = s.dec := bareTap_dec (popTap_bare f p s)
@[simp] theorem popTap_bcom (f p : Nat) (s : State) : (popTap f p s).bcom = s.bcom := bareTap_bcom (popTap_bare f p s)
@[simp] theorem popTap_mac (f p : Nat) (s : State) : (popTap f p s).mac = s.mac := bareTap_mac (popTap_bare f p s)
@[simp] theorem popTap_tables (f p : Nat) (s : State) : (popTap f p s).tables = s.tables := bareTap_tables (popTap_bare f p s)
@[simp] theorem popTap_svc (f p : Nat) (s : State) : (popTap f p s).svc = s.svc := bareTap_svc (popTap_bare f p s)
@[simp] theorem popTap_camp (f p : Nat) (s : State) : (popTap f p s).camp = s.camp := bareTap_camp (popTap_bare f p s)
@[simp] theorem popTap_fns (f p : Nat) (s : State) : (popTap f p s).fns = s.fns := bareTap_fns (popTap_bare f p s)
@[simp] theorem popTap_ports (f p : Nat) (s : State) : (popTap f p s).ports = s.ports := bareTap_ports (popTap_bare f p s)
@[simp] theorem popTap_jobs (f p : Nat) (s : State) : (popTap f p s).jobs = s.jobs := bareTap_jobs (popTap_bare f p s)
@[simp] theorem popTap_stevs (f p : Nat) (s : State) : (popTap f p s).stevs = s.stevs := bareTap_stevs (popTap_bare f p s)
@[simp] theorem popTap_landed (f p : Nat) (s : State) : (popTap f p s).landed = s.landed := bareTap_landed (popTap_bare f p s)
@[simp] theorem popTap_lastServed (f p : Nat) (s : State) : (popTap f p s).lastServed = s.lastServed := bareTap_lastServed (popTap_bare f p s)
@[simp] theorem popTap_fabric (f p : Nat) (s : State) : (popTap f p s).fabric = s.fabric := bareTap_fabric (popTap_bare f p s)
@[simp] theorem popTap_keys (f p : Nat) (s : State) : (popTap f p s).keys = s.keys := bareTap_keys (popTap_bare f p s)
@[simp] theorem popTap_plinth (f p : Nat) (s : State) : (popTap f p s).plinth = s.plinth := bareTap_plinth (popTap_bare f p s)
@[simp] theorem popTap_hold (f p : Nat) (s : State) : (popTap f p s).hold = s.hold := bareTap_hold (popTap_bare f p s)
@[simp] theorem popTap_claim (f p : Nat) (s : State) : (popTap f p s).claim = s.claim := bareTap_claim (popTap_bare f p s)
@[simp] theorem popTap_fw (f p : Nat) (s : State) : (popTap f p s).fw = s.fw := bareTap_fw (popTap_bare f p s)
@[simp] theorem popTap_flash (f p : Nat) (s : State) : (popTap f p s).flash = s.flash := bareTap_flash (popTap_bare f p s)
@[simp] theorem popTap_otp (f p : Nat) (s : State) : (popTap f p s).otp = s.otp := bareTap_otp (popTap_bare f p s)
@[simp] theorem popTap_mgmt (f p : Nat) (s : State) : (popTap f p s).mgmt = s.mgmt := bareTap_mgmt (popTap_bare f p s)
@[simp] theorem popTap_pins (f p : Nat) (s : State) : (popTap f p s).pins = s.pins := bareTap_pins (popTap_bare f p s)
@[simp] theorem popTap_pending (f p : Nat) (s : State) : (popTap f p s).pending = s.pending := bareTap_pending (popTap_bare f p s)
@[simp] theorem popTap_start_phase (f p : Nat) (s : State) : (popTap f p s).start.phase = s.start.phase := bareTap_start_phase (popTap_bare f p s)
@[simp] theorem popTap_start_straps (f p : Nat) (s : State) : (popTap f p s).start.straps = s.start.straps := bareTap_start_straps (popTap_bare f p s)
@[simp] theorem popTap_start_bankB33 (f p : Nat) (s : State) : (popTap f p s).start.bankB33 = s.start.bankB33 := bareTap_start_bankB33 (popTap_bare f p s)
@[simp] theorem popTap_start_held (f p : Nat) (s : State) : (popTap f p s).start.held = s.start.held := bareTap_start_held (popTap_bare f p s)
@[simp] theorem popTap_start_porLow (f p : Nat) (s : State) : (popTap f p s).start.porLow = s.start.porLow := bareTap_start_porLow (popTap_bare f p s)
@[simp] theorem popTap_start_brownOut (f p : Nat) (s : State) : (popTap f p s).start.brownOut = s.start.brownOut := bareTap_start_brownOut (popTap_bare f p s)
@[simp] theorem popTap_start_cause (f p : Nat) (s : State) : (popTap f p s).start.cause = s.start.cause := bareTap_start_cause (popTap_bare f p s)
@[simp] theorem popTap_start_resets (f p : Nat) (s : State) : (popTap f p s).start.resets = s.start.resets := bareTap_start_resets (popTap_bare f p s)
@[simp] theorem popTap_start_functionsReady (f p : Nat) (s : State) : (popTap f p s).start.functionsReady = s.start.functionsReady := bareTap_start_functionsReady (popTap_bare f p s)
@[simp] theorem popTap_start_selftestOk (f p : Nat) (s : State) : (popTap f p s).start.selftestOk = s.start.selftestOk := bareTap_start_selftestOk (popTap_bare f p s)
@[simp] theorem popTap_start_docked (f p : Nat) (s : State) : (popTap f p s).start.docked = s.start.docked := bareTap_start_docked (popTap_bare f p s)
@[simp] theorem popTap_start_dock (f p : Nat) (s : State) : (popTap f p s).start.dock = s.start.dock := bareTap_start_dock (popTap_bare f p s)
@[simp] theorem popTap_start_dockTesting (f p : Nat) (s : State) : (popTap f p s).start.dockTesting = s.start.dockTesting := bareTap_start_dockTesting (popTap_bare f p s)
@[simp] theorem popTap_start_katUnit (f p : Nat) (s : State) : (popTap f p s).start.katUnit = s.start.katUnit := bareTap_start_katUnit (popTap_bare f p s)
@[simp] theorem popTap_start_katNext (f p : Nat) (s : State) : (popTap f p s).start.katNext = s.start.katNext := bareTap_start_katNext (popTap_bare f p s)
@[simp] theorem popTap_start_katMono (f p : Nat) (s : State) : (popTap f p s).start.katMono = s.start.katMono := bareTap_start_katMono (popTap_bare f p s)
@[simp] theorem popTap_start_tap (f p : Nat) (s : State) : (popTap f p s).start.tap = s.start.tap := bareTap_start_tap (popTap_bare f p s)
@[simp] theorem popTap_start_femDriven (f p : Nat) (s : State) : (popTap f p s).start.femDriven = s.start.femDriven := bareTap_start_femDriven (popTap_bare f p s)
@[simp] theorem popTap_start_coexDriven (f p : Nat) (s : State) : (popTap f p s).start.coexDriven = s.start.coexDriven := bareTap_start_coexDriven (popTap_bare f p s)

/-! `tapAll` -/

@[simp] theorem tapAll_pend (b : State) (s : State) : (tapAll b s).pend = s.pend := bareTap_pend (tapAll_bare b s)
@[simp] theorem tapAll_posted (b : State) (s : State) : (tapAll b s).posted = s.posted := bareTap_posted (tapAll_bare b s)
@[simp] theorem tapAll_time (b : State) (s : State) : (tapAll b s).time = s.time := bareTap_time (tapAll_bare b s)
@[simp] theorem tapAll_berths (b : State) (s : State) : (tapAll b s).berths = s.berths := bareTap_berths (tapAll_bare b s)
@[simp] theorem tapAll_dec (b : State) (s : State) : (tapAll b s).dec = s.dec := bareTap_dec (tapAll_bare b s)
@[simp] theorem tapAll_bcom (b : State) (s : State) : (tapAll b s).bcom = s.bcom := bareTap_bcom (tapAll_bare b s)
@[simp] theorem tapAll_mac (b : State) (s : State) : (tapAll b s).mac = s.mac := bareTap_mac (tapAll_bare b s)
@[simp] theorem tapAll_tables (b : State) (s : State) : (tapAll b s).tables = s.tables := bareTap_tables (tapAll_bare b s)
@[simp] theorem tapAll_svc (b : State) (s : State) : (tapAll b s).svc = s.svc := bareTap_svc (tapAll_bare b s)
@[simp] theorem tapAll_camp (b : State) (s : State) : (tapAll b s).camp = s.camp := bareTap_camp (tapAll_bare b s)
@[simp] theorem tapAll_fns (b : State) (s : State) : (tapAll b s).fns = s.fns := bareTap_fns (tapAll_bare b s)
@[simp] theorem tapAll_ports (b : State) (s : State) : (tapAll b s).ports = s.ports := bareTap_ports (tapAll_bare b s)
@[simp] theorem tapAll_jobs (b : State) (s : State) : (tapAll b s).jobs = s.jobs := bareTap_jobs (tapAll_bare b s)
@[simp] theorem tapAll_stevs (b : State) (s : State) : (tapAll b s).stevs = s.stevs := bareTap_stevs (tapAll_bare b s)
@[simp] theorem tapAll_landed (b : State) (s : State) : (tapAll b s).landed = s.landed := bareTap_landed (tapAll_bare b s)
@[simp] theorem tapAll_lastServed (b : State) (s : State) : (tapAll b s).lastServed = s.lastServed := bareTap_lastServed (tapAll_bare b s)
@[simp] theorem tapAll_fabric (b : State) (s : State) : (tapAll b s).fabric = s.fabric := bareTap_fabric (tapAll_bare b s)
@[simp] theorem tapAll_keys (b : State) (s : State) : (tapAll b s).keys = s.keys := bareTap_keys (tapAll_bare b s)
@[simp] theorem tapAll_plinth (b : State) (s : State) : (tapAll b s).plinth = s.plinth := bareTap_plinth (tapAll_bare b s)
@[simp] theorem tapAll_hold (b : State) (s : State) : (tapAll b s).hold = s.hold := bareTap_hold (tapAll_bare b s)
@[simp] theorem tapAll_claim (b : State) (s : State) : (tapAll b s).claim = s.claim := bareTap_claim (tapAll_bare b s)
@[simp] theorem tapAll_fw (b : State) (s : State) : (tapAll b s).fw = s.fw := bareTap_fw (tapAll_bare b s)
@[simp] theorem tapAll_flash (b : State) (s : State) : (tapAll b s).flash = s.flash := bareTap_flash (tapAll_bare b s)
@[simp] theorem tapAll_otp (b : State) (s : State) : (tapAll b s).otp = s.otp := bareTap_otp (tapAll_bare b s)
@[simp] theorem tapAll_mgmt (b : State) (s : State) : (tapAll b s).mgmt = s.mgmt := bareTap_mgmt (tapAll_bare b s)
@[simp] theorem tapAll_pins (b : State) (s : State) : (tapAll b s).pins = s.pins := bareTap_pins (tapAll_bare b s)
@[simp] theorem tapAll_pending (b : State) (s : State) : (tapAll b s).pending = s.pending := bareTap_pending (tapAll_bare b s)
@[simp] theorem tapAll_start_phase (b : State) (s : State) : (tapAll b s).start.phase = s.start.phase := bareTap_start_phase (tapAll_bare b s)
@[simp] theorem tapAll_start_straps (b : State) (s : State) : (tapAll b s).start.straps = s.start.straps := bareTap_start_straps (tapAll_bare b s)
@[simp] theorem tapAll_start_bankB33 (b : State) (s : State) : (tapAll b s).start.bankB33 = s.start.bankB33 := bareTap_start_bankB33 (tapAll_bare b s)
@[simp] theorem tapAll_start_held (b : State) (s : State) : (tapAll b s).start.held = s.start.held := bareTap_start_held (tapAll_bare b s)
@[simp] theorem tapAll_start_porLow (b : State) (s : State) : (tapAll b s).start.porLow = s.start.porLow := bareTap_start_porLow (tapAll_bare b s)
@[simp] theorem tapAll_start_brownOut (b : State) (s : State) : (tapAll b s).start.brownOut = s.start.brownOut := bareTap_start_brownOut (tapAll_bare b s)
@[simp] theorem tapAll_start_cause (b : State) (s : State) : (tapAll b s).start.cause = s.start.cause := bareTap_start_cause (tapAll_bare b s)
@[simp] theorem tapAll_start_resets (b : State) (s : State) : (tapAll b s).start.resets = s.start.resets := bareTap_start_resets (tapAll_bare b s)
@[simp] theorem tapAll_start_functionsReady (b : State) (s : State) : (tapAll b s).start.functionsReady = s.start.functionsReady := bareTap_start_functionsReady (tapAll_bare b s)
@[simp] theorem tapAll_start_selftestOk (b : State) (s : State) : (tapAll b s).start.selftestOk = s.start.selftestOk := bareTap_start_selftestOk (tapAll_bare b s)
@[simp] theorem tapAll_start_docked (b : State) (s : State) : (tapAll b s).start.docked = s.start.docked := bareTap_start_docked (tapAll_bare b s)
@[simp] theorem tapAll_start_dock (b : State) (s : State) : (tapAll b s).start.dock = s.start.dock := bareTap_start_dock (tapAll_bare b s)
@[simp] theorem tapAll_start_dockTesting (b : State) (s : State) : (tapAll b s).start.dockTesting = s.start.dockTesting := bareTap_start_dockTesting (tapAll_bare b s)
@[simp] theorem tapAll_start_katUnit (b : State) (s : State) : (tapAll b s).start.katUnit = s.start.katUnit := bareTap_start_katUnit (tapAll_bare b s)
@[simp] theorem tapAll_start_katNext (b : State) (s : State) : (tapAll b s).start.katNext = s.start.katNext := bareTap_start_katNext (tapAll_bare b s)
@[simp] theorem tapAll_start_katMono (b : State) (s : State) : (tapAll b s).start.katMono = s.start.katMono := bareTap_start_katMono (tapAll_bare b s)
@[simp] theorem tapAll_start_tap (b : State) (s : State) : (tapAll b s).start.tap = s.start.tap := bareTap_start_tap (tapAll_bare b s)
@[simp] theorem tapAll_start_femDriven (b : State) (s : State) : (tapAll b s).start.femDriven = s.start.femDriven := bareTap_start_femDriven (tapAll_bare b s)
@[simp] theorem tapAll_start_coexDriven (b : State) (s : State) : (tapAll b s).start.coexDriven = s.start.coexDriven := bareTap_start_coexDriven (tapAll_bare b s)

/-- A step of a working device with no command waiting: a tick passes. -/
theorem step_idle {s : State} (h : s.pending = []) (w : s.start.held = false) :
    step s = .next (settle (tapAll s (idleTick s))) := by
  unfold step act
  rw [h]
  simp [w]

end Sys2Proof.Machine
end

