-- ==== Sys2Proof/Laws/Registers.lean ====
section
/-!
SUPPORT. The register file under the shared operations: a register reads what was written to it, a write leaves the others alone,
and raising, counting, the passing of time, the read ports and settling touch no register but their own.
-/

namespace Sys2Proof.Machine

theorem hmFn_of_start {a b : State} (h : a.start.straps = b.start.straps) : hmFn a = hmFn b := by unfold hmFn; rw [h]

theorem rd_of_regs {a b : State} (h : a.regs = b.regs) (hs : a.start.straps = b.start.straps) (k : Nat) : rd a k = rd b k := by
  unfold rd; rw [h, hmFn_of_start hs]

/-- A register reads what was written to it. -/
@[simp] theorem rd_wr_self (k : Nat) (v : Word) (s : State) : rd (wr k v s) k = v := by
  show (match (if v = regReset (hmFn s) k then s.regs.del k else s.regs.put k v).find k with
    | some w => w
    | none => regReset (hmFn s) k) = v
  by_cases h : v = regReset (hmFn s) k
  · rw [if_pos h, SMap.find_del_self]; exact h.symm
  · rw [if_neg h, SMap.find_put_self]

/-- A write leaves every other register alone. -/
theorem rd_wr_ne {k k' : Nat} (h : k' ≠ k) (v : Word) (s : State) : rd (wr k v s) k' = rd s k' := by
  show (match (if v = regReset (hmFn s) k then s.regs.del k else s.regs.put k v).find k' with
    | some w => w
    | none => regReset (hmFn s) k') = rd s k'
  by_cases h' : v = regReset (hmFn s) k
  · rw [if_pos h', SMap.find_del_ne _ h]; rfl
  · rw [if_neg h', SMap.find_put_ne _ h]; rfl

theorem rd_wr (k k' : Nat) (v : Word) (s : State) : rd (wr k v s) k' = if k' = k then v else rd s k' := by
  by_cases h : k' = k
  · rw [if_pos h, h, rd_wr_self]
  · rw [if_neg h, rd_wr_ne h]

/-- A field reads what was written to it, as far as it has room. -/
theorem fget_fset_self {b : Nat} {f : Fld} {v : Nat} {s : State} (h : f.lo ≤ f.hi) (h32 : f.hi < 32) :
    fget (fset b f v s) b f = v % 2 ^ (f.hi + 1 - f.lo) := by
  unfold fget fset
  rw [rd_wr_self, bitsOf_putBits_self h h32]

theorem rd_fset_ne {b k : Nat} {f : Fld} (h : k ≠ b + f.off) (v : Nat) (s : State) : rd (fset b f v s) k = rd s k := rd_wr_ne h _ _

theorem fget_fset_beside {b : Nat} {f g : Fld} {v : Nat} {s : State} (h : f.lo ≤ f.hi) (h32 : g.hi < 32)
    (hd : g.off ≠ f.off ∨ g.hi < f.lo ∨ f.hi < g.lo) : fget (fset b f v s) b g = fget s b g := by
  unfold fget fset
  by_cases ho : g.off = f.off
  · rw [ho, rd_wr_self]
    exact bitsOf_putBits_ne h h32 (hd.resolve_left fun n => n ho)
  · rw [rd_wr_ne (by omega)]

/-! ### Events and counters -/

theorem eventKey_pend {c f k : Nat} (hc : c < 256) (hf : f < 8) (h : eventKey k = false) :
    k ≠ fb f + Reg.EVT_PEND + c / 32 * 4 := by
  intro e
  subst e
  have : eventKey (fb f + Reg.EVT_PEND + c / 32 * 4) = true := by
    unfold eventKey fb Reg.EVT_PEND
    have h1 : (f * 0x10000 + 0x1820 + c / 32 * 4) % 0x10000 = 0x1820 + c / 32 * 4 := by omega
    rw [h1]
    simp only [Bool.or_eq_true, Bool.and_eq_true, decide_eq_true_eq]
    omega
  rw [this] at h; cases h

theorem eventKey_raw {c k : Nat} (hc : c < 256) (h : eventKey k = false) : k ≠ Reg.GEVT_RAW + c / 32 * 4 := by
  intro e
  subst e
  have : eventKey (Reg.GEVT_RAW + c / 32 * 4) = true := by
    unfold eventKey Reg.GEVT_RAW
    simp only [Bool.or_eq_true, Bool.and_eq_true, decide_eq_true_eq]
    omega
  rw [this] at h; cases h

theorem rd_modFn (f : Nat) (g : FnS → FnS) (s : State) (k : Nat) : rd (modFn f g s) k = rd s k := rfl

theorem rd_raiseTo {o : EvOcc} {f k : Nat} (hc : o.code < 256) (hf : f < 8) (h : eventKey k = false) (s : State) :
    rd (raiseTo o f s) k = rd s k := by
  unfold raiseTo
  split
  · dsimp only
    split
    · rw [rd_modFn, rd_wr_ne (eventKey_pend hc hf h)]
    · rw [rd_wr_ne (eventKey_pend hc hf h)]
  · rfl

theorem foldl_keeps_on {α β : Type} (p : State → α) (g : State → β → State) (l : List β) (h : ∀ t, ∀ b ∈ l, p (g t b) = p t)
    (s : State) : p (l.foldl g s) = p s := by
  induction l generalizing s with
  | nil => rfl
  | cons b l ih =>
    rw [List.foldl_cons, ih (fun t c hc => h t c (List.mem_cons_of_mem _ hc)), h s b List.mem_cons_self]

theorem forBelow_keeps_on {α : Type} (p : State → α) (g : Nat → State → State) (n : Nat) (h : ∀ i < n, ∀ t, p (g i t) = p t)
    (s : State) : p (forBelow n g s) = p s :=
  foldl_keeps_on p (fun t i => g i t) _ (fun t i hi => h i (List.mem_range.mp hi) t) s

/-- Raising an event changes no register beside GEVT_RAW and EVT_PEND. -/
theorem rd_raiseOcc {o : EvOcc} {k : Nat} (hc : o.code < 256) (h : eventKey k = false) (s : State) :
    rd (raiseOcc o s) k = rd s k := by
  unfold raiseOcc
  dsimp only
  rw [forBelow_keeps_on (fun t => rd t k) _ 8 (fun f hf t => rd_raiseTo hc hf h t), rd_wr_ne (eventKey_raw hc h)]

theorem rd_raiseFull {c k : Nat} (hc : c < 256) (h : eventKey k = false) (r n x : Nat) (s : State) :
    rd (raiseFull c r n x s) k = rd s k := by unfold raiseFull; exact rd_raiseOcc hc h s

theorem rd_raise {c k : Nat} (hc : c < 256) (h : eventKey k = false) (r : Nat) (s : State) : rd (raise c r s) k = rd s k := by
  unfold raise; exact rd_raiseFull hc h r noNode 0 s

theorem rd_raiseAux {c k : Nat} (hc : c < 256) (h : eventKey k = false) (r x : Nat) (s : State) :
    rd (raiseAux c r x s) k = rd s k := by unfold raiseAux; exact rd_raiseFull hc h r noNode x s

theorem rd_raiseNode {c k : Nat} (hc : c < 256) (h : eventKey k = false) (r n : Nat) (s : State) :
    rd (raiseNode c r n s) k = rd s k := by unfold raiseNode; exact rd_raiseFull hc h r n 0 s

theorem rd_raiseSaturated {k : Nat} (h : eventKey k = false) (j : Nat) (s : State) : rd (raiseSaturated j s) k = rd s k := by
  unfold raiseSaturated; exact rd_raiseAux (by omega) h _ _ s

/-- Counting changes the counter, its CNT_SAT register and the event registers only. -/
theorem rd_bumpBy_ne {b k : Nat} {c : Cnt} (h1 : k ≠ b + c.off) (h2 : k ≠ b + c.sat) (h : eventKey k = false) (n : Nat) (s : State) :
    rd (bumpBy b c n s) k = rd s k := by
  unfold bumpBy
  dsimp only
  split
  · rw [rd_wr_ne h1]
  · split
    · rw [rd_wr_ne h1]
    · rw [rd_raiseSaturated h, rd_wr_ne h2, rd_wr_ne h1]

/-- R42: a counter adds, and stops at its maximum. -/
theorem rd_bumpBy_self {b : Nat} {c : Cnt} (h : eventKey (b + c.off) = false) (hd : c.off ≠ c.sat) (n : Nat) (s : State) :
    rd (bumpBy b c n s) (b + c.off) = BitVec.ofNat 32 (min ((rd s (b + c.off)).toNat + n) 0xFFFFFFFF) := by
  unfold bumpBy
  dsimp only
  split
  · rw [rd_wr_self, Nat.min_eq_left (by omega)]
  · have e : min ((rd s (b + c.off)).toNat + n) 0xFFFFFFFF = 0xFFFFFFFF := by omega
    rw [e]
    split
    · rw [rd_wr_self]; rfl
    · rw [rd_raiseSaturated h, rd_wr_ne (by omega), rd_wr_self]; rfl

theorem rd_bump_ne {b k : Nat} {c : Cnt} (h1 : k ≠ b + c.off) (h2 : k ≠ b + c.sat) (h : eventKey k = false) (s : State) :
    rd (bump b c s) k = rd s k := rd_bumpBy_ne h1 h2 h 1 s

/-! ### Time, the read ports and settling -/

theorem rd_emit (o : Out) (s : State) (k : Nat) : rd (emit o s) k = rd s k := rfl

theorem rd_applySlew {k : Nat} (h : eventKey k = false) (n : Nat) (s : State) : rd (applySlew n s) k = rd s k := by
  unfold applySlew
  dsimp only
  split
  · unfold adjDone; rw [rd_raiseOcc (by dsimp only; omega) h]; rfl
  · rfl

theorem rd_elapse {k : Nat} (h : eventKey k = false) (n : Nat) (s : State) : rd (elapse n s) k = rd s k := by
  unfold elapse
  split
  · rfl
  · exact rd_applySlew h n s

theorem rd_elapseToNs {k : Nat} (h : eventKey k = false) (t : Instant) (s : State) : rd (elapseToNs t s) k = rd s k := by
  unfold elapseToNs
  dsimp only
  split
  · rfl
  · exact rd_elapse h _ s

theorem rd_elapseToMono {k : Nat} (h : eventKey k = false) (t : Nat) (s : State) : rd (elapseToMono t s) k = rd s k := by
  unfold elapseToMono
  split
  · rfl
  · exact rd_elapse h _ s

theorem rd_modTap (p : Nat) (g : PortTap → PortTap) (s : State) (k : Nat) : rd (modTap p g s) k = rd s k := rfl

theorem portKey_status {k p : Nat} (hp : p < 4) (h : portKey k = false) (j : Nat) (hj : j < 16) : k ≠ 0x10 * p + (0x2040 + j) := by
  intro e
  subst e
  have : portKey (0x10 * p + (0x2040 + j)) = true := by
    unfold portKey
    simp only [Bool.and_eq_true, decide_eq_true_eq]
    omega
  rw [this] at h; cases h

theorem rd_popTap {f p k : Nat} (hp : p < 4) (h : portKey k = false) (s : State) : rd (popTap f p s) k = rd s k := by
  unfold popTap
  dsimp only
  split
  · rw [rd_emit, rd_modTap]
  · rw [rd_emit, rd_fset_ne (portKey_status hp h (Fl.BRINGUP_PORT_STATUS_UNDERRUN.off - 0x2040) (by decide))]

theorem rd_serveTap {p k : Nat} (hp : p < 4) (h : portKey k = false) (s : State) : rd (serveTap p s) k = rd s k := by
  unfold serveTap
  refine foldl_keeps (fun t => rd t k) _ (fun t x => ?_) _ s
  split
  · rfl
  · rw [rd_popTap hp h, rd_modTap]

theorem rd_pushTap {p k : Nat} (hp : p < 4) (h : portKey k = false) (hs : List TapWord) (s : State) :
    rd (pushTap p hs s) k = rd s k := by
  unfold pushTap
  split
  · exact rd_fset_ne (portKey_status hp h (Fl.BRINGUP_PORT_STATUS_OVERFLOW.off - 0x2040) (by decide)) _ s
  · rw [rd_serveTap hp h, rd_modTap]

theorem rd_tapPort {p k : Nat} (hp : p < 4) (h : portKey k = false) (b s : State) : rd (tapPort b p s) k = rd s k := by
  unfold tapPort
  dsimp only
  split
  · exact foldl_keeps (fun t => rd t k) _ (fun t i => by unfold tapItem; exact rd_pushTap hp h _ _) _ s
  · rfl

theorem rd_tapAll {k : Nat} (h : portKey k = false) (b s : State) : rd (tapAll b s) k = rd s k :=
  forBelow_keeps_on (fun t => rd t k) _ 4 (fun _ hp t => rd_tapPort hp h b t) s

theorem rd_settlePool {k : Nat} (h : eventKey k = false) (s : State) : rd (settlePool s) k = rd s k := by
  have h1 : rd (noteLowWater s) k = rd s k := by unfold noteLowWater; split <;> rfl
  rw [← h1]
  unfold settlePool watchPool
  dsimp only
  split
  · split
    · rfl
    · rw [rd_raise (by omega) h]; rfl
  · split <;> rfl

theorem rd_assignOne (s : State) (k : Nat) : rd (assignOne s) k = rd s k := by
  unfold assignOne
  split
  · split <;> rfl
  · rfl

theorem rd_readyWrites (f : Nat) (s : State) (k : Nat) : rd (readyWrites f s) k = rd s k := rfl

theorem rd_assignJobs (s : State) (k : Nat) : rd (assignJobs s) k = rd s k := by
  unfold assignJobs
  rw [foldl_keeps (fun t => rd t k) _ (fun t _ => rd_assignOne t k), forBelow_keeps (fun t => rd t k) readyWrites (fun f t => rd_readyWrites f t k)]

theorem settlePins_regs (s : State) : (settlePins s).regs = s.regs := by unfold settlePins; rfl

theorem settlePins_start (s : State) : (settlePins s).start = s.start := by unfold settlePins; rfl

theorem rd_settlePins (s : State) (k : Nat) : rd (settlePins s) k = rd s k :=
  rd_of_regs (settlePins_regs s) (congrArg StartS.straps (settlePins_start s)) k

/-- Settling changes no register but those of events. -/
theorem rd_settle {k : Nat} (h : eventKey k = false) (s : State) : rd (settle s) k = rd s k := by
  unfold settle
  rw [rd_settlePins, rd_assignJobs, rd_settlePool h]

/-! ### Raised events -/

/-- An event bit once set stays set under a change of registers that sets bits there or leaves them. -/
theorem raised_of_rd {c : Nat} {s t : State} (e : rd t (Reg.GEVT_RAW + c / 32 * 4) = rd s (Reg.GEVT_RAW + c / 32 * 4))
    (h : Raised s c) : Raised t c := by unfold Raised at *; rw [e]; exact h

theorem pend_ne_raw {d c f : Nat} (hd : d < 256) (hc : c < 256) :
    Reg.GEVT_RAW + c / 32 * 4 ≠ fb f + Reg.EVT_PEND + d / 32 * 4 := by
  unfold Reg.GEVT_RAW fb Reg.EVT_PEND
  omega

theorem rd_raiseTo_raw {o : EvOcc} {f c : Nat} (ho : o.code < 256) (hc : c < 256) (s : State) :
    rd (raiseTo o f s) (Reg.GEVT_RAW + c / 32 * 4) = rd s (Reg.GEVT_RAW + c / 32 * 4) := by
  unfold raiseTo
  split
  · dsimp only
    split
    · rw [rd_modFn, rd_wr_ne (pend_ne_raw ho hc)]
    · rw [rd_wr_ne (pend_ne_raw ho hc)]
  · rfl

theorem rd_raiseOcc_raw {o : EvOcc} {c : Nat} (ho : o.code < 256) (hc : c < 256) (s : State) :
    rd (raiseOcc o s) (Reg.GEVT_RAW + c / 32 * 4) =
      rd (wr (Reg.GEVT_RAW + o.code / 32 * 4) (setBitAt (o.code % 32) (rd s (Reg.GEVT_RAW + o.code / 32 * 4)) true) s)
        (Reg.GEVT_RAW + c / 32 * 4) := by
  unfold raiseOcc
  dsimp only
  rw [forBelow_keeps_on (fun t => rd t (Reg.GEVT_RAW + c / 32 * 4)) _ 8 (fun f _ t => rd_raiseTo_raw ho hc t)]

/-- R45: raising an event sets its bit of GEVT_RAW. -/
theorem raised_raiseOcc_self {o : EvOcc} (ho : o.code < 256) (s : State) : Raised (raiseOcc o s) o.code := by
  unfold Raised
  rw [rd_raiseOcc_raw ho ho, rd_wr_self, bitAt_setBitAt_self (Nat.mod_lt _ (by omega))]

/-- Raising an event keeps the bits of the others. -/
theorem raised_raiseOcc {o : EvOcc} {c : Nat} (ho : o.code < 256) (hc : c < 256) {s : State} (h : Raised s c) :
    Raised (raiseOcc o s) c := by
  unfold Raised at *
  rw [rd_raiseOcc_raw ho hc, rd_wr]
  split
  · rename_i e
    have e2 : c / 32 = o.code / 32 := by omega
    by_cases hm : c % 32 = o.code % 32
    · rw [hm, bitAt_setBitAt_self (Nat.mod_lt _ (by omega))]
    · rw [bitAt_setBitAt_ne hm, ← e2]; exact h
  · exact h

theorem raised_raise_self {c : Nat} (hc : c < 256) (r : Nat) (s : State) : Raised (raise c r s) c := by
  unfold raise raiseFull; exact raised_raiseOcc_self hc s

theorem raised_raise {c d : Nat} (hc : c < 256) (hd : d < 256) (r : Nat) {s : State} (h : Raised s d) : Raised (raise c r s) d := by
  unfold raise raiseFull; exact raised_raiseOcc hc hd h

theorem raised_raiseAux_self {c : Nat} (hc : c < 256) (r x : Nat) (s : State) : Raised (raiseAux c r x s) c := by
  unfold raiseAux raiseFull; exact raised_raiseOcc_self hc s

theorem raised_raiseAux {c d : Nat} (hc : c < 256) (hd : d < 256) (r x : Nat) {s : State} (h : Raised s d) :
    Raised (raiseAux c r x s) d := by unfold raiseAux raiseFull; exact raised_raiseOcc hc hd h

theorem raised_raiseNode_self {c : Nat} (hc : c < 256) (r n : Nat) (s : State) : Raised (raiseNode c r n s) c := by
  unfold raiseNode raiseFull; exact raised_raiseOcc_self hc s

theorem raised_raiseFull_self {c : Nat} (hc : c < 256) (r n x : Nat) (s : State) : Raised (raiseFull c r n x s) c := by
  unfold raiseFull; exact raised_raiseOcc_self hc s

theorem raised_wr {k c : Nat} (h : k ≠ Reg.GEVT_RAW + c / 32 * 4) (v : Word) {s : State} (hr : Raised s c) : Raised (wr k v s) c :=
  raised_of_rd (rd_wr_ne (Ne.symm h) v s) hr

theorem portKey_raw {c : Nat} : portKey (Reg.GEVT_RAW + c / 32 * 4) = false := by
  unfold portKey Reg.GEVT_RAW
  simp only [Bool.and_eq_false_iff, decide_eq_false_iff_not]
  omega

/-- Settling and the read ports keep a raised event raised. -/
theorem raised_after {c : Nat} (hc : c < 256) {s t : State} (h : Raised t c) : Raised (settle (tapAll s t)) c := by
  have h1 : Raised (tapAll s t) c := raised_of_rd (rd_tapAll portKey_raw s t) h
  generalize tapAll s t = u at h1
  unfold settle
  have h2 : Raised (settlePool u) c := by
    have h3 : Raised (noteLowWater u) c := by
      unfold noteLowWater
      split
      · exact h1
      · exact h1
    unfold settlePool watchPool
    dsimp only
    split
    · split
      · exact h3
      · exact raised_raise (by omega) hc _ h3
    · split
      · exact h3
      · exact h3
  exact raised_of_rd ((rd_settlePins _ _).trans (rd_assignJobs _ _)) h2

/-! ### Output -/

theorem outs_popTap (f p : Nat) (s : State) : ∃ more, (popTap f p s).outs = more ++ s.outs := by
  unfold popTap
  dsimp only
  split
  · exact ⟨[_], rfl⟩
  · refine ⟨[.readData f (Reg.BRINGUP_PORT_DATA + 0x10 * p) (getTap s p).last], ?_⟩
    simp only [emit_outs, fset_outs, List.singleton_append]

theorem outs_foldl {β : Type} (g : State → β → State) (h : ∀ t b, ∃ more, (g t b).outs = more ++ t.outs) (l : List β) (s : State) :
    ∃ more, (l.foldl g s).outs = more ++ s.outs := by
  induction l generalizing s with
  | nil => exact ⟨[], rfl⟩
  | cons b l ih =>
    obtain ⟨m1, e1⟩ := ih (g s b)
    obtain ⟨m2, e2⟩ := h s b
    exact ⟨m1 ++ m2, by rw [List.foldl_cons, e1, e2, List.append_assoc]⟩

theorem outs_serveTap (p : Nat) (s : State) : ∃ more, (serveTap p s).outs = more ++ s.outs := by
  unfold serveTap
  refine outs_foldl _ (fun t x => ?_) _ s
  split
  · exact ⟨[], rfl⟩
  · obtain ⟨m, e⟩ := outs_popTap x.1 p (modTap p (fun y => { y with stalled := y.stalled.drop 1 }) t)
    exact ⟨m, e⟩

theorem outs_tapPort (b : State) (p : Nat) (s : State) : ∃ more, (tapPort b p s).outs = more ++ s.outs := by
  unfold tapPort
  dsimp only
  split
  · refine outs_foldl _ (fun t i => ?_) _ s
    unfold tapItem pushTap
    split
    · exact ⟨[], rfl⟩
    · exact outs_serveTap p _
  · exact ⟨[], rfl⟩

/-- The read ports put out nothing but answers to reads that had waited. -/
theorem outs_tapAll (b s : State) : ∃ more, (tapAll b s).outs = more ++ s.outs :=
  outs_foldl (fun t p => tapPort b p t) (fun t p => outs_tapPort b p t) _ s

theorem putOut_after {o : Out} {s u t : State} (h : t.outs = o :: s.outs) : PutOut s (settle (tapAll u t)) o := by
  obtain ⟨m, e⟩ := outs_tapAll u t
  exact ⟨m, by rw [settle_outs, e, h]⟩

/-! ### Steps -/

/-- What a step of a working device answers. -/
theorem act_works {s : State} (h : s.start.held = false) (f : State → State) : act f s = .next (settle (tapAll s (f s))) := by
  unfold act; rw [h]; rfl

/-- What a step of an engine answers, where the device works and start-up is not halted. -/
theorem engine_runs {s : State} (h : s.start.held = false) (hp : s.start.phase ≠ .halted) (f : State → State) :
    engine f s = .next (settle (tapAll s (f s))) := by
  unfold engine
  rw [act_works h]
  cases hq : s.start.phase <;> first | exact absurd hq hp | rfl

/-- A register that only its own operations change reads after a step as its effect left it. -/
theorem rd_after {s t : State} {k : Nat} (h : ownKey k = true) : rd (settle (tapAll s t)) k = rd t k := by
  unfold ownKey at h
  simp only [Bool.and_eq_true, Bool.not_eq_true'] at h
  rw [rd_settle h.1, rd_tapAll h.2]

/-- R37: a write that reaches its register, with every field in its range, has the register's effect. -/
theorem rowWrite_accepts {s : State} {f off : Nat} {v : Word} (h : Accepts s f off v = true) (eff : State → State) :
    rowWrite f off v true eff s = eff (active f s) := by
  unfold Accepts at h
  simp only [Bool.and_eq_true] at h
  unfold rowWrite hostWriteWith
  rw [if_pos h.1]
  have h2 := h.2
  dsimp only
  split at h2
  · rename_i b r i hr
    rw [hr]
    simp only [Bool.and_eq_true, Bool.not_eq_true'] at h2
    simp only [h2.1.1.1, h2.1.1.2, h2.1.2, h2.2, Bool.not_true, Bool.and_self]
    simp
  · cases h2

end Sys2Proof.Machine
end

