-- ==== Sys2Proof/Laws/Fns.lean ====
section
/-!
SUPPORT. The host functions under the shared operations: raising an event, counting, the passing of time and what ends every
meaning change nothing of a function but its events to write; the state at rest.
-/

namespace Sys2Proof.Machine

/-- A function without its events to write. -/
def FnS.bare (x : FnS) : FnS := { x with evq := [] }

/-- Function `f` without its events to write. -/
def bareFn (f : Nat) (s : State) : FnS := (getFn s f).bare

theorem getFn_of_fns {a b : State} (h : a.fns = b.fns) (f : Nat) : getFn a f = getFn b f := by unfold getFn; rw [h]

theorem getFn_modFn (f g : Nat) (k : FnS → FnS) (s : State) :
    getFn (modFn f k s) g = if f = g ∧ g < s.fns.length then k (getFn s g) else getFn s g := by
  unfold getFn modFn
  simp only [List.getD_eq_getElem?_getD, List.getElem?_modify]
  by_cases hg : g < s.fns.length
  · by_cases he : f = g <;> simp [he, hg]
  · simp [hg]

theorem getFn_modFn_ne {f g : Nat} (h : f ≠ g) (k : FnS → FnS) (s : State) : getFn (modFn f k s) g = getFn s g := by
  rw [getFn_modFn, if_neg (fun e => h e.1)]

theorem getFn_modFn_self {f : Nat} {s : State} (h : f < s.fns.length) (k : FnS → FnS) : getFn (modFn f k s) f = k (getFn s f) := by
  rw [getFn_modFn, if_pos ⟨rfl, h⟩]

@[simp] theorem modFn_length (f : Nat) (k : FnS → FnS) (s : State) : (modFn f k s).fns.length = s.fns.length :=
  List.length_modify _ _ _

@[simp] theorem getFn_wr (k : Nat) (v : Word) (s : State) (f : Nat) : getFn (wr k v s) f = getFn s f := rfl

theorem bareFn_modFn {f : Nat} {k : FnS → FnS} (h : ∀ x, (k x).bare = x.bare) (g : Nat) (s : State) :
    bareFn g (modFn f k s) = bareFn g s := by
  unfold bareFn
  rw [getFn_modFn]
  split
  · exact h _
  · rfl

theorem bareFn_raiseTo (o : EvOcc) (g f : Nat) (s : State) : bareFn g (raiseTo o f s) = bareFn g s := by
  unfold raiseTo
  split
  · dsimp only
    split
    · rw [bareFn_modFn (k := fun x => { x with evq := x.evq ++ [_] }) (fun _ => rfl)]; rfl
    · rfl
  · rfl

/-- Raising an event changes nothing of a function but its events to write. -/
theorem bareFn_raiseOcc (o : EvOcc) (g : Nat) (s : State) : bareFn g (raiseOcc o s) = bareFn g s := by
  unfold raiseOcc
  dsimp only
  rw [forBelow_keeps_on (bareFn g) _ 8 (fun f _ t => bareFn_raiseTo o g f t)]
  rfl

theorem bareFn_raiseFull (c r n x g : Nat) (s : State) : bareFn g (raiseFull c r n x s) = bareFn g s := bareFn_raiseOcc _ g s
theorem bareFn_raise (c r g : Nat) (s : State) : bareFn g (raise c r s) = bareFn g s := bareFn_raiseFull c r _ 0 g s
theorem bareFn_raiseAux (c r x g : Nat) (s : State) : bareFn g (raiseAux c r x s) = bareFn g s := bareFn_raiseFull c r _ x g s
theorem bareFn_raiseNode (c r n g : Nat) (s : State) : bareFn g (raiseNode c r n s) = bareFn g s := bareFn_raiseFull c r n 0 g s

theorem bareFn_raiseSaturated (k g : Nat) (s : State) : bareFn g (raiseSaturated k s) = bareFn g s := bareFn_raiseAux _ _ _ g s

/-- Counting changes nothing of a function but its events to write. -/
theorem bareFn_bumpBy (b : Nat) (c : Cnt) (n g : Nat) (s : State) : bareFn g (bumpBy b c n s) = bareFn g s := by
  unfold bumpBy
  dsimp only
  split
  · rfl
  · split
    · rfl
    · rw [bareFn_raiseSaturated]; rfl

theorem bareFn_bump (b : Nat) (c : Cnt) (g : Nat) (s : State) : bareFn g (bump b c s) = bareFn g s := bareFn_bumpBy b c 1 g s

theorem bareFn_applySlew (n g : Nat) (s : State) : bareFn g (applySlew n s) = bareFn g s := by
  unfold applySlew adjDone
  dsimp only
  split
  · rw [bareFn_raiseOcc]; rfl
  · rfl

/-- The passing of ticks changes nothing of a function but its events to write. -/
theorem bareFn_elapse (n g : Nat) (s : State) : bareFn g (elapse n s) = bareFn g s := by
  unfold elapse
  split
  · rfl
  · exact bareFn_applySlew n g s

theorem bareFn_settlePool (g : Nat) (s : State) : bareFn g (settlePool s) = bareFn g s := by
  have h : bareFn g (noteLowWater s) = bareFn g s := by unfold noteLowWater; split <;> rfl
  rw [← h]
  unfold settlePool watchPool
  dsimp only
  split
  · split
    · rfl
    · rw [bareFn_raise]; rfl
  · split <;> rfl

theorem assignOne_fns (s : State) : (assignOne s).fns = s.fns := by
  unfold assignOne; split
  · split <;> rfl
  · rfl

theorem readyWrites_fns (f : Nat) (s : State) : (readyWrites f s).fns = s.fns := rfl

theorem assignJobs_fns (s : State) : (assignJobs s).fns = s.fns := by
  unfold assignJobs
  rw [foldl_keeps (fun t => t.fns) (fun t _ => assignOne t) (fun t _ => assignOne_fns t),
    forBelow_keeps (fun t => t.fns) readyWrites readyWrites_fns]

theorem settlePins_fns (s : State) : (settlePins s).fns = s.fns := by unfold settlePins; rfl

theorem settle_fns (s : State) : (settle s).fns = (settlePool s).fns := by
  unfold settle; rw [settlePins_fns, assignJobs_fns]

/-- What ends every meaning changes nothing of a function but its events to write. -/
theorem bareFn_after (u t : State) (g : Nat) : bareFn g (settle (tapAll u t)) = bareFn g t := by
  have h : bareFn g (settle (tapAll u t)) = bareFn g (settlePool (tapAll u t)) := by
    unfold bareFn
    rw [getFn_of_fns (settle_fns _)]
  rw [h, bareFn_settlePool]
  unfold bareFn
  rw [getFn_of_fns (tapAll_fns u t)]

theorem rings_after (u t : State) (f : Nat) : (getFn (settle (tapAll u t)) f).rings = (getFn t f).rings := by
  have h := congrArg FnS.rings (bareFn_after u t f)
  simpa only [bareFn, FnS.bare] using h

theorem out_after (u t : State) (f : Nat) : (getFn (settle (tapAll u t)) f).out = (getFn t f).out := by
  have h := congrArg FnS.out (bareFn_after u t f)
  simpa only [bareFn, FnS.bare] using h

theorem held_after (u t : State) (f : Nat) : (getFn (settle (tapAll u t)) f).held = (getFn t f).held := by
  have h := congrArg FnS.held (bareFn_after u t f)
  simpa only [bareFn, FnS.bare] using h

theorem ring_after (u t : State) (f r : Nat) : getRing (settle (tapAll u t)) f r = getRing t f r := by
  unfold getRing; rw [rings_after]

/-! ### The state at rest -/

theorem pinLevels_settlePins (s : State) : pinLevels (settlePins s) = pinLevels s := by unfold settlePins; rfl

/-- After a meaning every output ball has its level. -/
theorem settle_pins (s : State) : (settle s).pins = pinLevels (settle s) := by
  unfold settle
  rw [pinLevels_settlePins]
  unfold settlePins
  rfl

theorem assignOne_same {s : State} (h : freeStev s = none ∨ pickJob s = none) : assignOne s = s := by
  unfold assignOne
  rcases h with h | h <;> rw [h]
  cases freeStev s <;> rfl

/-- Once the class-0 writes that are due are ready and no stevedore is free, or no job may move, assigning changes nothing. -/
theorem assignJobs_same {s : State} (h0 : forBelow 8 readyWrites s = s) (h : freeStev s = none ∨ pickJob s = none) :
    assignJobs s = s := by
  unfold assignJobs
  rw [h0]
  generalize List.range 8 = l
  induction l with
  | nil => rfl
  | cons a l ih => rw [List.foldl_cons, assignOne_same h, ih]

end Sys2Proof.Machine
end

