-- ==== Sys2Proof/WellFormed.lean ====
section
/-!
DEFINITION. Which commands are well formed: the ranges of the operands that are plain numbers, as the registers and records
that hold them have room for (R34, R92, R102, R112, R116, R187, R194, R353).
-/

namespace Sys2Proof

open Sys2Proof.Machine

/-- A channel entry that a berth has (R92). -/
def entryOk (n : Berth) (entry : Nat) : Bool := entry < berthEntries n.val

/-- A number that 16 bits in two's complement hold. -/
def int16 (i : Int) : Bool := (-32768 : Int) ≤ i && i < 32768

/-- A level in 0.25 dBm as a record holds it (R112, R116). -/
def quarterDb (q : Int) : Bool := int16 q

/-- The operands of a command lie in their ranges. -/
def Instr.wf : Instr → Bool
  | .linkParityFailure _ _ => true
  | .pilotWatchdog _ _ => true
  | .fabricRateWindow _ => true
  | .fabricUnfence _ _ => true
  | .fabricUnfenceDone _ => true
  | .clrLowWater _ _ => true
  | .quayOverflow n entry => entryOk n entry
  | .registerWrite _ off _ _ => off < 0x10000
  | .postedWriteAck _ => true
  | .cntSatClear _ off _ => off < 0x10000
  | .gevtInject _ _ => true
  | .c3EventEntryWrite _ => true
  | .evtHoldoffEnd _ _ => true
  | .slotStart => true
  | .slotRunStart => true
  | .slotRunStop => true
  | .stopInstant => true
  | .timeBufferIntervalEnd => true
  | .virtualSlotStart => true
  | .discChange _ => true
  | .tideSrcSelect _ => true
  | .servoClr => true
  | .timeLoad => true
  | .timeSnap => true
  | .timeRsnRead _ => true
  | .timeAdj _ => true
  | .adjDone => true
  | .timeConv _ => true
  | .ppsEdge _ _ => true
  | .ppsLost => true
  | .trigConfig _ _ => true
  | .trigFired _ => true
  | .capture _ _ _ => true
  | .captLoRead _ _ => true
  | .captHiRead _ _ => true
  | .tidePulse => true
  | .tidePair _ octets => octets.length = 24
  | .tideLost => true
  | .rxLoLocked _ => true
  | .rxLoUnlock _ => true
  | .rxClip _ peak => peak < 256
  | .rxCal _ => true
  | .rxCalDone _ dcRes imageRej _ => dcRes < 256 && imageRej < 256
  | .preambleDetected n entry lp floor => entryOk n entry && quarterDb lp && quarterDb floor
  | .sfdMatched n entry m => entryOk n entry && quarterDb m.rssi && int16 m.cfo
  | .syncRelease n entry _ => entryOk n entry
  | .sustainFail n entry => entryOk n entry
  | .phrDecoded n entry phr => entryOk n entry && phr.len < 2048
  | .recaptured n entry lp => entryOk n entry && quarterDb lp
  | .lastSymbolReceived n entry _ => entryOk n entry
  | .decoderEngineFree _ => true
  | .decodeDone _ _ => true
  | .blankEnd _ => true
  | .txSynthLocked _ => true
  | .txLockLost _ => true
  | .bandRefreshTrigger _ temp => int16 temp
  | .bandRefreshDone _ band _ => band < 64
  | .bandRefreshOverdue _ => true
  | .coexRequest _ => true
  | .txGo _ _ crossed _ => crossed < 2048
  | .txLastSymbol _ => true
  | .txUnderrun _ => true
  | .txPoisoned _ => true
  | .coexRevoked _ => true
  | .maskTrip _ => true
  | .dutyBucketAdvance => true
  | .dutyUsedPreload b _ => b < 8
  | .tapDataWrite _ _ _ => true
  | .profileFuse _ _ => true
  | .profileFuseDone _ => true
  | .planSlot => true
  | .cellDataWrite _ _ => true
  | .cellDataRead _ => true
  | .hopDataAccess _ _ => true
  | .cryptoBeginFrame _ _ _ => true
  | .receiveRecord _ _ => true
  | .ackWindowEnd _ => true
  | .arbiterRelease => true
  | .nbrAged _ index => index < 2048
  | .shortEnSet => true
  | .indexRepairDone => true
  | .strayExpired _ => true
  | .dioTrickleFire => true
  | .disReceived => true
  | .daoReceived _ => true
  | .versionInc => true
  | .dtsnInc => true
  | .daoLifeTick => true
  | .routeWalkTest _ _ _ => true
  | .tblLookup _ _ _ => true
  | .tblRead _ _ _ => true
  | .tblReadLock _ _ _ => true
  | .tblWrite _ _ _ => true
  | .tblInsert _ _ _ => true
  | .tblDelete _ _ _ => true
  | .tblUnlock _ _ => true
  | .tblNext _ _ _ => true
  | .lockExpired h => h < noNode
  | .msgSend _ _ _ => true
  | .msgGroup _ _ _ => true
  | .dgramSend _ _ _ => true
  | .rawFrame _ _ => true
  | .coapAckTimeout _ _ => true
  | .respWaitExpiry _ => true
  | .deadlineReached _ => true
  | .timedGuard _ => true
  | .mplTrickleFire _ => true
  | .fragmentReceived => true
  | .reasmTimeout place => place < 256
  | .upwardCoap _ => true
  | .upNotAcked => true
  | .upwardDatagram _ => true
  | .ringNudge _ => true
  | .doorbellPoll _ => true
  | .doorbellCopy _ => true
  | .nop _ _ => true
  | .rxBufferPost _ => true
  | .receiveDelivery _ => true
  | .returnEntryWrite _ => true
  | .ringModTimer _ _ => true
  | .slingDone _ octets _ => octets.length < 4097
  | .translationFault _ => true
  | .pageResponse _ _ _ => true
  | .priTimeout _ _ => true
  | .dmaFault _ _ => true
  | .xlateFaultRetry _ _ => true
  | .xlateFaultAbort _ _ => true
  | .xlateInv _ => true
  | .atsInvalidate _ page _ => page < 2 ^ 52
  | .ringFlush _ _ => true
  | .flushTimeout _ _ => true
  | .ringDrop _ _ => true
  | .ringQuiesced _ _ => true
  | .ringEnable _ _ => true
  | .ringDisable _ _ => true
  | .ringGrantWrite _ _ _ => true
  | .livenessExpiry _ => true
  | .portLinkDown _ => true
  | .portLinkUp _ => true
  | .busMasterDisable _ => true
  | .flr _ => true
  | .campaignStart _ => true
  | .campaignReport _ => true
  | .campaignPause _ => true
  | .campaignContinue _ => true
  | .campaignAbort _ => true
  | .campaignAddNode _ => true
  | .campaignRemoveNode _ => true
  | .campaignCheckpoint _ => true
  | .campaignVisit => true
  | .blockPrepared camp sbn => camp < 256 && sbn < 256
  | .campaignBudgetWindow camp => camp < 256
  | .campaignStartAt camp => camp < 256
  | .campaignCkptTimer camp => camp < 256
  | .campaignRecordConfirmed camp => camp < 256
  | .campaignDeadline camp => camp < 256
  | .mouldLoad _ _ => true
  | .mouldInvalidate _ _ => true
  | .mouldErase _ _ => true
  | .mouldEndGrace _ _ => true
  | .graceEnded _ => true
  | .genGraceEnded _ => true
  | .keyNodeGen _ _ => true
  | .entropyFail => true
  | .entropyRecovered => true
  | .drbgReseed => true
  | .tamperTrip _ samples => 0 < samples
  | .hostScuttle _ _ => true
  | .scuttleReset => true
  | .tamperLock _ _ => true
  | .vbatApplied => true
  | .generate _ => true
  | .fuseImgkey _ => true
  | .provisioned _ => true
  | .attestReq _ => true
  | .pilotBusFault _ _ _ _ => true
  | .queueReset q => q < 96
  | .holdQcmdFlush _ _ => true
  | .holdQcmdDropItem _ _ => true
  | .holdQcmdReset _ _ => true
  | .queueFlushForced => true
  | .holdLogClear _ _ => true
  | .fieldRepair _ _ => true
  | .fieldRepairDone _ => true
  | .bollardBusChange _ => true
  | .quietReached => true
  | .claimRise => true
  | .releaseProbe _ => true
  | .takeoverDone => true
  | .claimYield => true
  | .claimDiag => true
  | .selfDiagDone _ => true
  | .failoverSeen => true
  | .ckptFull => true
  | .ckptArea _ => true
  | .checkpointDue => true
  | .ckptWritten => true
  | .ckptLoad _ _ => true
  | .ckptLoaded => true
  | .fwStageOpen _ _ => true
  | .fwStageChunk _ _ => true
  | .fwStageCloseCommit _ => true
  | .fwStageCloseAbandon _ => true
  | .fwLeaseExpiry => true
  | .fwBreak _ => true
  | .fwVouch _ => true
  | .fwReject _ => true
  | .trialConfirmCheck => true
  | .trialWindowExpiry => true
  | .trialReset => true
  | .fwSignerFuse _ _ _ => true
  | .fwSignerRevoke _ _ => true
  | .fwSetWrite _ _ => true
  | .fallbackClear _ => true
  | .powerOnReset _ _ => true
  | .brownOut => true
  | .testReset _ _ => true
  | .portResetAssert _ => true
  | .portResetRelease _ => true
  | .tapReset => true
  | .tapInstruction _ => true
  | .fillDone => true
  | .selftestDone _ _ => true
  | .fwBooted => true
  | .serviceReady => true
  | .dockEnter _ _ => true
  | .dockLeave _ _ => true
  | .dockTestDone _ => true
  | .katRotation => true
  | .katDone _ => true
  | .testFence _ _ => true
  | .bringupPortRead _ _ => true
  | .bringupStallExpiry _ => true
  | .i2cWrite _ octets => octets.length < 257
  | .i2cRead _ count => count < 257
  | .mgmtRefresh temp => int16 temp
  | .readBusError _ off _ _ => off < 0x10000
  | .msixVectorUnmask _ _ => true
  | .busMasterEnable _ _ _ _ => true
  | .trigPulseEnd _ => true
  | .vbatLoss => true
  | .porNAssert => true
  | .brownOutEnd _ _ => true
  | .functionsReady => true
  | .katPassOver => true

end Sys2Proof
end

