-- ==== Sys2Proof/Tests/Slice0.lean ====
section
/-!
SUPPORT. The author's own tests: ill-formed commands, states and operands that meet the hypotheses of the statements, and small
checks of single steps against the spec.
-/

set_option Elab.async false

open Sys2Proof Sys2Proof.Machine

/-- A part in service with both links up and bus mastering on, everything else as reset leaves it. -/
def T.base : State :=
  { State.reset with
    start := { StartS.reset with phase := .service, functionsReady := true, selftestOk := true }
    ports := List.replicate 2 ⟨true, true, [], []⟩
    fns := List.replicate 8 { FnS.reset with busMaster := true } }

/-- A state with its TIME island changed. -/
def T.time (g : TimeS → TimeS) (s : State) : State := { s with time := g s.time }

/-- The octets of a tide message of a source whose slots are stopped (R84): locked, slots of 10,000 us. -/
def T.tide : List Byte := tideFrame (4 :: List.replicate 17 0 ++ [0x10, 0x27, 0, 0])

/-- What a follower reads in it. -/
def T.tideMsg : TideMsg := ⟨false, 0, 0, some ⟨0, Rsn.ofX 0⟩, 10000⟩

/-- The base state with every block granted to function 7 (R263). -/
def T.granted : State := wr (Reg.RING_GRANT + 28) 0x7FFFF T.base

/-- What a demodulator measures at an uncoded SFD that comes in time. -/
def T.sfd : SfdMeas := ⟨-320, 3, false, 5, 8, 0⟩

/-- A receive record of berth 0, entry 47. -/
def T.rec : RxRec := { newRecord T.base 0 47 T.sfd with sfdTime := 0, endAt := 0, slotStart := none, name := ⟨0, Rsn.ofX 0⟩ }

/-- Demodulator 47 of berth 0 follows the frame of a record. -/
def T.demod (st : DemodState) (r : Option RxRec) : State := modDemod 0 47 (fun d => { d with st := st, record := r }) T.base

/-- A good unsecured broadcast data frame of the node 9. -/
def T.frame : Frame := ⟨.data, 2, none, .broadcast, .eui 9, some 7, false, none, [], .none⟩

/-- A short EB of berth 0 that the crypto pool has begun, to go at once. -/
def T.tx : Tx where
  cls := .eb
  frame := { T.frame with kind := .beacon }
  queued := none
  len := 10
  chan := 0
  khz := 863125
  mode := 0
  coded := false
  fcs4 := false
  whitened := false
  power := 40
  refAt := 700000
  preAt := 300000
  goAt := 0
  lastAt := 900000
  endAt := 1100000
  airtimeUs := 0
  band := 0
  mask := none
  node := noNode
  shared := false
  name := ⟨0, Rsn.ofX 0⟩
  coexHeld := false
  chargedBucket := 0
  begun := true
  aes := 0
  stale := false
  done := false

/-- Berth 0 may transmit, on `T.tx`'s frequency, with a request waiting. -/
def T.ready : State :=
  wr (berthBase 0 + Reg.BERTH_TX_CTRL) 1
    (modBerth 0 (fun b => { b with requests := [T.tx], txLock := true, synKhz := 863125 })
      { T.base with claim := { ClaimS.reset with gate := true } })

/-- Berth 0 has a transmission on air, of a queued frame or not. -/
def T.onAir (x : Tx) : State := modBerth 0 (fun b => { b with onAir := some x, blankEnd := some x.endAt }) T.ready

/-- A record of `T.frame`, received whole in slot 0. -/
def T.good : RxRec := { T.rec with fcsOk := true, sfdTime := 2000000, slotStart := some 0, channel := 5, frame := some T.frame }

/-- Slots run with the gate open, one classic receive cell in slot 0 on channel 5, and a record that waits. -/
def T.slots (r : RxRec) : State :=
  wr Reg.MAC_SF_CFG 0xFF0001 (wr Reg.MAC_CTRL 0x10 { T.base with
    time := { TimeS.reset with slots := .running }
    claim := { ClaimS.reset with gate := true }
    mac := { MacS.reset with records := [r], active := ⟨[(0, ⟨0x10000000, 2⟩)], [(0, 5)]⟩ } })

/-- A frame whose key index names no slot. -/
def T.secFrame : Frame := { T.frame with sec := some ⟨5, 1, 17, true, true, ⟨0, 1, 9, 0⟩, ⟨0, Rsn.ofX 0⟩, true⟩ }

/-- A frame of the MAC engine itself for neighbour 9. -/
def T.queued : TxFrame := ⟨3, .bulk, .unicast noNode 9, .mac, T.frame, 20, none, none, none, 0, 0, none⟩

/-- The wait for its acknowledgement. -/
def T.await : AwaitAck := ⟨T.queued, 863125, 9, some 7, false, 0, 1000⟩

/-- The CRC of R139 before its final inversion. -/
def T.crc (c : BitVec 32) (bs : List Byte) : BitVec 32 :=
  bs.foldl (fun c b => (List.range 8).foldl (fun x _ => crcStep x) (c ^^^ b.zeroExtend 32)) c

theorem T.crc_0 : T.crc 0xFFFFFFFF (1 :: 1 :: List.replicate 60 0) = 0x294DF5D1 := by decide +kernel

theorem T.crc_1 : T.crc 0x294DF5D1 (List.replicate 60 0) = 0xAD92BAAC := by decide +kernel

theorem T.crc_2 : T.crc 0xAD92BAAC (List.replicate 60 0) = 0x392486C := by decide +kernel

theorem T.crc_3 : T.crc 0x392486C (List.replicate 60 0) = 0x95687349 := by decide +kernel

theorem T.crc_4 : T.crc 0x95687349 (List.replicate 60 0) = 0x968C076 := by decide +kernel

theorem T.crc_5 : T.crc 0x968C076 (List.replicate 60 0) = 0xDD4F4217 := by decide +kernel

theorem T.crc_6 : T.crc 0xDD4F4217 (List.replicate 60 0) = 0xDA9A37C2 := by decide +kernel

theorem T.crc_7 : T.crc 0xDA9A37C2 (List.replicate 54 0) = 0x8C2489EE := by decide +kernel

/-- The staged profile record (R139): one band entry that is not VALID, under its CRC. -/
def T.prof : List Byte := 1 :: 1 :: List.replicate 26 0 ++ leBytes 4 0x73DB7611 ++ List.replicate 448 0

theorem T.prof_crc : crc32 (T.prof.take 28 ++ T.prof.drop 32) = 0x73DB7611 := by
  have e : T.prof.take 28 ++ T.prof.drop 32 = (1 :: 1 :: List.replicate 60 0) ++ ((List.replicate 60 0) ++ ((List.replicate 60 0) ++ ((List.replicate 60 0) ++ ((List.replicate 60 0) ++ ((List.replicate 60 0) ++ ((List.replicate 60 0) ++ ((List.replicate 54 0)))))))) := by decide +kernel
  have f : ∀ bs, crc32 bs = ~~~(T.crc 0xFFFFFFFF bs) := fun _ => rfl
  have a : ∀ c x y, T.crc c (x ++ y) = T.crc (T.crc c x) y := fun c x y => List.foldl_append
  rw [f, e]
  simp only [a, T.crc_0, T.crc_1, T.crc_2, T.crc_3, T.crc_4, T.crc_5, T.crc_6, T.crc_7]
  decide

/-- The staged profile record is valid. -/
def T.fuse : State := wr Reg.BCOM_PROF 0x101 (wr (Reg.BCOM_PROF + 28) 0x73DB7611 T.base)

theorem T.fuse_ok : fuseOk T.fuse 0 = true := by
  have h : stagedProfile T.fuse = T.prof := by decide +kernel
  unfold fuseOk
  rw [h]
  unfold mayFuse profOk
  rw [T.prof_crc]
  decide +kernel

/-- A directory entry of the node 9. -/
def T.dir (st : NodeState) : DirEnt := DirEnt.fresh 9 st 7 1

/-- A neighbour entry of the node 9. -/
def T.nbr : Nbr := Nbr.fresh 9 5 0xFFFE 3 (-200) (-300) ⟨0, Rsn.ofX 0⟩ 0

/-- A state with its tables changed. -/
def T.tab (g : TablesS → TablesS) (s : State) : State := modTab g s

/-- Node 5 is in the directory and the index. -/
def T.node (d : DirEnt) : State := (dirInsert 5 d T.base).2

/-- Function 7 asks for a table command. -/
def T.ask (op table : Nat) (h : Nat) (e : Eui) (s : State) : State :=
  modTab (fun t => { t with cmdq := [.regs 7] }) <| fset (fb 7) Fl.TBL_STATUS_BUSY 1 (wr (fb 7 + Reg.TBL_CMD) (BitVec.ofNat 32 (op + 16 * table)) (wr (fb 7 + Reg.TBL_HANDLE) (BitVec.ofNat 32 h)
    (wr (fb 7 + Reg.TBL_KEY_LO) (BitVec.ofNat 32 e.toNat) (wr (fb 7 + Reg.TBL_KEY_HI) (BitVec.ofNat 32 (e.toNat >>> 32)) s))))

/-- An RPL message waits while RPL is on. -/
def T.rpl (m : Rpl) (s : State) : State :=
  modSvc (fun v => { v with rplq := [⟨9, 9, m, true, ⟨0, Rsn.ofX 0⟩⟩] }) (fset 0 Fl.ROUTE_CTRL_RPL_EN 1 s)

/-- The target of node 9. -/
def T.daoTarget : DaoTarget := ⟨128, Ip6.of 0 9⟩

/-- A DAO of node 9 with the root as its parent. -/
def T.dao (seq life : Byte) : Dao :=
  ⟨fget T.base 0 Fl.ROUTE_RPL_INST_INSTANCE, some (dodagId T.base), false, 3, [T.daoTarget], [⟨0, seq, life, some 0⟩]⟩

/-- A message as it waits. -/
def T.rplIn (m : Rpl) : RplIn := ⟨9, 9, m, true, ⟨0, Rsn.ofX 0⟩⟩

/-- A ready descriptor: its ring, octets at places, and its payload. -/
def T.desc (ring : Nat) (at0 : List (Nat × Byte)) (payload : List Byte) : DescS :=
  ⟨ring, 3, at0.foldl (fun l p => l.set p.1 p.2) (List.replicate 64 0), .ready, payload, false⟩

/-- Function 7's ring holds one descriptor. -/
def T.ring (x : DescS) (s : State) : State := modRing 7 x.ring (fun r => { r with descs := [x] }) s

/-- The same for an ATTEST_REQ, which has reached the plinth. -/
def T.attest (x : DescS) (s : State) : State := reachEngine 7 x (T.ring x s)

/-- The output gate is open. -/
def T.open (s : State) : State := { s with claim := { s.claim with gate := true } }

/-- Services run, and the gate is open. -/
def T.svc (s : State) : State := T.open (fset 0 Fl.SVC_CTRL_EN 1 (wr Reg.KEY_LINK_CFG 0 s))

/-- Node 5 is heard beside the device. -/
def T.near : State :=
  T.svc (T.tab (fun t => { t with nbrs := [(nbrHandle 0 3, { T.nbr with home := true })] })
    (T.node { T.dir .heard with nbrValid := true, nbr := nbrHandle 0 3, depth := 1 }))

/-- A MSG_SEND to node 5. -/
def T.send (op : Byte) : DescS := T.desc 0 [(0, op), (4, 9), (20, 9), (28, 5), (32, 2)] [0xFF, 7]

/-- A transaction with node 5. -/
def T.txn (phase : TxnPhase) : Txn :=
  ⟨7, 7, 0, 3, 9, none, 9, some 5, 1, true, 2, .urgent, [], none, false, phase, 2, 1000, some 500, some 500, none, none, 0, 0, 1, true,
    false, 0, false⟩

/-- An MPL message. -/
def T.mpl : MplJob :=
  ⟨4, 7, 0, 3, 9, 6, .bulk, none, none, 0, castPkt T.base (Ip6.group 6) 1 [.hopByHop none (some 0)] 60 (.echoReply []), false, 1, 1, 64, 2,
    some 500, 64000000, 3, [], false, 0⟩

/-- An upward packet of node 9. -/
def T.packet (b : Body) : Packet := ⟨.ipv6, Ip6.of 0 9, deviceAddr T.base, [], false, 60, b⟩

/-- A CoAP message to the device. -/
def T.coap (m : Coap) : Body := .coap 100 (portLocal T.base) m

/-- It waits for the service engine. -/
def T.up (u : Upper) : UpPkt := ⟨9, u, 0, ⟨0, Rsn.ofX 0⟩, 0, false, false⟩

/-- A state in which it waits. -/
def T.upq (u : UpPkt) (s : State) : State := modSvc (fun v => { v with upq := [u] }) s

/-- A NON request. -/
def T.non : Coap := ⟨.non, 2, 77, [1, 2, 3, 4], [0xFF, 5], true, none, none, none⟩

/-- An upward item. -/
def T.item : UpItem := itemOf T.base (T.up .none) 9 3 [1, 2]

/-- A state with function 7 changed. -/
def T.fn (g : FnS → FnS) (s : State) : State := modFn 7 g s

/-- Ring `r` of function 7 is enabled, and its blocks have addresses. -/
def T.on (r : Nat) (s : State) : State :=
  wr (fb 7 + Reg.RING_SB_LO) 0x2001 (wr (fb 7 + Reg.RING_DB_LO) 0x1001 (wr (ringKey 7 r Reg.RING_CTRL) 1 s))

/-- A return entry. -/
def T.entry : Entry := ⟨9, stOk, opNop, false, 0, noNode, 0, 0⟩

/-- An occurrence of event 49. -/
def T.occ : EvOcc := ⟨49, false, 0, noNode, 0, 0, true⟩

/-- C3 delivery applies for function 7. -/
def T.c3 (s : State) : State := fset (fb 7) Fl.EVT_CTRL_HOLDOFF_US 10 (fset (fb 7) Fl.EVT_CTRL_C3_EN 1 (T.on 7 s))

/-- A job of function 7. -/
def T.job (what : JobWhat) (total : Nat) (write : Bool) : Job := ⟨7, what, 1, 0x10F0, total, 0, write, [1, 2, 3], false, true, none, false, 0⟩

/-- It runs on stevedore 2. -/
def T.run (j : Job) (s : State) : State := { s with stevs := (List.replicate 8 none).set 2 (some j) }

/-- Campaign 3 of function 7: one block of two symbols. -/
def T.camp (phase : CampPhase) : Camp :=
  ⟨3, 7, 2, 3, 9, false, 5, 0x1000, 64, 32, 2, 1, 10, none, none, 0x2000, 200, 0, phase, false, true, false, false,
    [⟨2, 0, 100, false, false⟩], 0, 0, 4, [], 0, false, 0, 0, []⟩

/-- The campaign engine holds it, and slotframe 0 carries campaign frames. -/
def T.camps (c : Camp) (s : State) : State := wr Reg.MAC_SF_CFG 0xFF03F1 (modCampS (fun x => { x with camps := [c] }) s)

/-- A CAMPAIGN_CTRL about it. -/
def T.ctrl (action : Byte) (buf : Byte) : DescS := T.desc 2 [(0, BitVec.ofNat 8 opCampCtrl), (16, buf), (20, 3), (21, action), (24, 5)] []

/-- A CAMPAIGN_START of it, for group 1. -/
def T.start : DescS :=
  T.desc 2 [(0, BitVec.ofNat 8 opCampStart), (16, 64), (20, 3), (22, 1), (24, 32), (26, 2), (28, 9), (32, 0xFF), (33, 0xFF), (34, 0xFF),
    (35, 0xFF), (36, 0xFF), (37, 0xFF), (38, 0xFF), (39, 0xFF), (40, 0xFF), (41, 0xFF), (42, 0xFF), (43, 0xFF), (52, 200)] []

/-- A directory entry of function 7 in group 1. -/
def T.member : DirEnt := { T.dir .routed with groups := [1], campId := 0 }

/-- A job has ended. -/
def T.landed (j : Job) (s : State) : State := { s with landed := [j] }

/-- A state with its key store changed. -/
def T.keys (g : KeysS → KeysS) (s : State) : State := modKeys g s

/-- The root is valid, and functions 7 and 0 may write every block. -/
def T.rooted : State := { T.granted with plinth := { T.granted.plinth with root := some 5 } }

/-- Slot 15 holds a current and a prior key. -/
def T.mould (m : Mould) (s : State) : State := T.keys (fun k => { k with slots := k.slots.set 15 m }) s

/-- Its contents. -/
def T.cast : Mould := ⟨1, some 7, some 6, 1, some 500, 3, false⟩

/-- A state with its plinth changed. -/
def T.plinth (g : PlinthS → PlinthS) (s : State) : State := { s with plinth := g s.plinth }

/-- A state with its hold changed. -/
def T.hold (g : HoldS → HoldS) (s : State) : State := { s with hold := g s.hold }

/-- A state with its fabric changed. -/
def T.fab (g : FabricS → FabricS) (s : State) : State := { s with fabric := g s.fabric }

/-- A state with its claim logic changed. -/
def T.claim (g : ClaimS → ClaimS) (s : State) : State := { s with claim := g s.claim }

/-- A unit of priority 5 in a claim state. -/
def T.unit (st : ClaimState) : State :=
  { T.claim (fun c => { c with st := st }) T.base with start := { T.base.start with straps := ⟨0, 5, 0, 0⟩ } }

/-- A header of a checkpoint, and an image without entries. -/
def T.header : CkptHeader := ⟨true, false, true, true, 4, 0, 9, 15, 255, 240, ⟨0, Rsn.ofX 0⟩, 0, 0xF000, 0xFFFF, 200, 0, 0⟩

/-- An image without entries. -/
def T.image : CkptImage := ⟨T.header, [], [], [], []⟩

/-- A checkpoint area of function 7. -/
def T.area : CkptArea := ⟨7, 2, 3, 9, 0x4000, 10, false⟩

/-- A state with its firmware changed. -/
def T.fw (g : FwS → FwS) (s : State) : State := { s with fw := g s.fw }

/-- A staging descriptor of function 7: a number in octets 20 and 21, and a payload. -/
def T.stage (op : Nat) (lo hi : Byte) (payload : List Byte) : DescS := T.desc 2 [(0, BitVec.ofNat 8 op), (20, lo), (21, hi)] payload

/-- The staging lease of function 7, 2 of 5 octets staged. -/
def T.lease : Lease := ⟨7, 5, 2, 900⟩

/-- A trial that may be confirmed, or rejected. -/
def T.trial : State :=
  T.fw (fun w => { w with mode := 1, trialMono := some 900, secVersion := 5 })
    { wr (ringKey 7 6 Reg.RING_CTRL) 1 T.base with flash := { T.base.flash with boot := ⟨3, .trial, .confirmed, .trial, .inUse, 0, 7, 1⟩ } }

/-- OTP with these signers. -/
def T.signers (l : List Signer) (s : State) : State := { s with otp := { s.otp with signers := l } }

/-- A state with its start-up changed. -/
def T.start' (g : StartS → StartS) (s : State) : State := { s with start := g s.start }

/-- The maquette runs, with the DRBG, and this boot record. -/
def T.maq (b : BootRec) : State :=
  T.keys (fun k => { k with drbgReady := true })
    { T.start' (fun x => { x with phase := .maquette }) T.base with flash := { T.base.flash with boot := b } }

/-- A held device stays as it is. -/
theorem T.held_stays (s : State) (h : s.start.held = true) : exec .fillDone s = .next s := by
  simp [exec, execFillDone, act, h]

/-! ### Ill-formed commands are refused -/

theorem smoke_entry : Instr.wf (.quayOverflow 5 16) = false := by decide
theorem smoke_off : Instr.wf (.registerWrite 0 0x10000 0 .word) = false := by decide
theorem smoke_sat_off : Instr.wf (.cntSatClear 0 0x10000 0) = false := by decide
theorem smoke_tide : Instr.wf (.tidePair 0 (T.tide.take 23)) = false := by decide
theorem smoke_peak : Instr.wf (.rxClip 0 256) = false := by decide
theorem smoke_dc : Instr.wf (.rxCalDone 0 256 0 true) = false := by decide
theorem smoke_image : Instr.wf (.rxCalDone 0 0 256 true) = false := by decide
theorem smoke_preamble_entry : Instr.wf (.preambleDetected 0 48 0 0) = false := by decide
theorem smoke_preamble_level : Instr.wf (.preambleDetected 0 47 32768 0) = false := by decide
theorem smoke_preamble_floor : Instr.wf (.preambleDetected 0 47 0 (-32769)) = false := by decide
theorem smoke_sfd_entry : Instr.wf (.sfdMatched 0 48 T.sfd) = false := by decide
theorem smoke_sfd_rssi : Instr.wf (.sfdMatched 0 47 { T.sfd with rssi := -32769 }) = false := by decide
theorem smoke_sfd_cfo : Instr.wf (.sfdMatched 0 47 { T.sfd with cfo := 32768 }) = false := by decide
theorem smoke_release : Instr.wf (.syncRelease 4 16 (.window 3)) = false := by decide
theorem smoke_sustain : Instr.wf (.sustainFail 0 48) = false := by decide
theorem smoke_phr_entry : Instr.wf (.phrDecoded 0 48 ⟨true, false, false, false, 0⟩) = false := by decide
theorem smoke_phr_len : Instr.wf (.phrDecoded 0 47 ⟨true, false, false, false, 2048⟩) = false := by decide
theorem smoke_recaptured : Instr.wf (.recaptured 0 47 (-32769)) = false := by decide
theorem smoke_recaptured_entry : Instr.wf (.recaptured 0 48 0) = false := by decide
theorem smoke_last_symbol : Instr.wf (.lastSymbolReceived 0 48 ⟨true, none, false⟩) = false := by decide
theorem smoke_refresh_temp : Instr.wf (.bandRefreshTrigger 0 32768) = false := by decide
theorem smoke_refresh_band : Instr.wf (.bandRefreshDone 0 64 true) = false := by decide
theorem smoke_crossed (c : Cca) : Instr.wf (.txGo 0 c 2048 true) = false := by cases c <;> rfl
theorem smoke_bucket : Instr.wf (.dutyUsedPreload 8 0) = false := by decide
theorem smoke_aged : Instr.wf (.nbrAged 0 2048) = false := by decide
theorem smoke_lock : Instr.wf (.lockExpired noNode) = false := by decide
theorem smoke_place : Instr.wf (.reasmTimeout 256) = false := by decide
theorem smoke_sling : Instr.wf (.slingDone 0 (List.replicate 4097 0) false) = false := by decide +kernel
theorem smoke_page : Instr.wf (.atsInvalidate 0 (2 ^ 52) 1) = false := by decide +kernel
theorem smoke_block : Instr.wf (.blockPrepared 256 0) = false := by decide
theorem smoke_sbn : Instr.wf (.blockPrepared 0 256) = false := by decide
theorem smoke_budget_window : Instr.wf (.campaignBudgetWindow 256) = false := by decide
theorem smoke_start_at : Instr.wf (.campaignStartAt 256) = false := by decide
theorem smoke_ckpt_timer : Instr.wf (.campaignCkptTimer 256) = false := by decide
theorem smoke_record : Instr.wf (.campaignRecordConfirmed 256) = false := by decide
theorem smoke_deadline : Instr.wf (.campaignDeadline 256) = false := by decide
theorem smoke_samples : Instr.wf (.tamperTrip 0 0) = false := by decide
theorem smoke_queue : Instr.wf (.queueReset 96) = false := by decide
theorem smoke_i2c_write : Instr.wf (.i2cWrite 0 (List.replicate 257 0)) = false := by decide +kernel
theorem smoke_i2c_read : Instr.wf (.i2cRead 0 257) = false := by decide
theorem smoke_mgmt_temp : Instr.wf (.mgmtRefresh (-32769)) = false := by decide
theorem smoke_read_off : Instr.wf (.readBusError 0 0x10000 .word .clean) = false := by decide

/-! ### The spec's worked examples -/

/-- R7, R71: the slot [64:145:144:16] is x = 1,000,000 and reads 0x4091_9010. -/
theorem test_rsn_value : (⟨64, 145, 144, 16⟩ : Rsn).toX = 1000000 ∧ (⟨64, 145, 144, 16⟩ : Rsn).word = 0x40919010 := by decide +kernel

/-- R70: adding 3,000 slots to it gives [248:85:108:4]. -/
theorem test_rsn_add : (⟨64, 145, 144, 16⟩ : Rsn).add 3000 = ⟨248, 85, 108, 4⟩ := by decide +kernel

/-- R72: in epoch 1 its ASN is 4,146,475,840, and the first reduction slot lies in epoch 265 at x = 960,530,176. -/
theorem test_asn : (⟨1, ⟨64, 145, 144, 16⟩⟩ : SlotName).asn = 4146475840 ∧ (⟨265, Rsn.ofX 960530176⟩ : SlotName).asn = 0 := by
  decide +kernel

/-- R73, the epoch wrap example: E4 [87:89:93:97] lies 600 slots after E3 [255:254:252:250]. -/
theorem test_distance : slotDist ⟨3, Rsn.last⟩ ⟨4, ⟨87, 89, 93, 97⟩⟩ = 600 := by decide +kernel

/-- R74: [64:145:144:16] has position 650 in a slotframe of 1,265. -/
theorem test_position :
    sfPos (wr Reg.MAC_SF_CFG (1265 * 65536) T.base) 0 ⟨0, ⟨64, 145, 144, 16⟩⟩ = 650 := by decide +kernel

/-- R72, R74: in the first reduction slot every position is 0. -/
theorem test_position_reduced :
    sfPos (wr Reg.MAC_SF_CFG (255 * 65536) T.base) 0 ⟨265, Rsn.ofX 960530176⟩ = 0 := by decide +kernel

/-- R43: when FABRIC_REPLAY_CNT saturates, the record of event 255 carries RESULT 0x7C24 and AUX 0. -/
theorem test_saturated :
    ((getFn (bump 0 Ct.FABRIC_REPLAY (fset (fb 0) Fl.EVT_CTRL_ENABLE 1 (wr (fb 0 + Reg.EVT_ENABLE + 28) 0xFFFFFFFF
      (wr Reg.FABRIC_REPLAY_CNT 0xFFFFFFFE T.base)))) 0).evq.map fun o => (o.code, o.result, o.aux)) = [(255, 0x7C24, 0)] := by
  decide +kernel

/-- R105, R122: a 40-octet F1 frame takes 1,600 us and 6,720 us; F1 and F4 admit 85 and 348 octets at TsMaxTx. -/
theorem test_airtime :
    shrNs T.base 1 0 = 1600000 ∧ bodyNs 0 false 40 = 6720000 ∧ pMax (tsMaxTx T.base) 0 false = 85 ∧
      pMax (tsMaxTx T.base) 3 false = 348 := by decide +kernel

/-- R167, R169: SAX 0x3C31 and the hashes of the wide-cell example. -/
theorem test_wide_cell :
    sax 0x4C1A300000000102 = 0x3C31 ∧ sax 0x4C1A300000000200 = 0x3C31 ∧ hash4 0x4C1A300000000102 0x37 = 0xA ∧
      hash4 0x4C1A300000000200 0x81 = 0xD := by decide +kernel

/-- R236: FRAG1 of 54 octets covers 88, and FRAGN takes 38, in the dimming example. -/
theorem test_fragments : fragments 56 (headCompressed 4 true 4) (headLen 4) 41 = [(0, 88, 54), (88, 33, 38)] := by decide +kernel

/-- R166, R170: the IEs of the wide-cell example, with their descriptors 0x0C 0x90 and 0x1B 0x90. -/
theorem test_quay_ies :
    (Ie.wideCell 2 4 2 [⟨100, 4⟩]).wire 0xABCDEF = [0x0C, 0x90, 0xAB, 0xCD, 0xEF, 2, 2, 4, 2, 1, 0x64, 0, 4, 0] ∧
      (Ie.blockAck 0x4213 4 0 34 [75] [0xD]).wire 0xABCDEF =
        [0x1B, 0x90, 0xAB, 0xCD, 0xEF, 3, 0x13, 0x42, 4, 0, 34] ++ List.replicate 9 0 ++ [8] ++ List.replicate 7 0 ++ [0x0D] := by
  decide +kernel

/-- R303: the first 25 octets of the IE that opens the resumed campaign. -/
theorem test_symbol_ie :
    ((Ie.symbols 7 0x5E21 3 300000 64 2 0 3456 4 (List.replicate 256 0)).wire 0xABCDEF).take 25 =
      [0x15, 0x91, 0xAB, 0xCD, 0xEF, 6, 7, 0x21, 0x5E, 3, 0xE0, 0x93, 4, 0, 0, 0x40, 0, 2, 0, 0x80, 0x0D, 0, 4, 0, 0] := by decide +kernel

/-- The envelope of the dimming example (R230, R231). -/
def T.seal : Seal :=
  ⟨1, 4, 3, 0x215, some 1003000, ⟨0, 0, 0, 0⟩, 0x4C1A30FFFE000001, false, 3, [0x22, 0, 0x0A, 0x3C], true,
    [0xB4, 0x6C, 0x61, 0x6D, 0x70, 0xFF, 0x28]⟩

/-- R231: its nonce and associated data. -/
theorem test_seal :
    T.seal.nonce = [0x4C, 0x1A, 0x30, 0xFF, 0xFE, 0, 0, 1, 0, 2, 0x15, 0, 0] ∧
      T.seal.aad = [3, 0x22, 0, 0x0A, 0x3C, 0x43, 0x15, 2, 0, 1, 0, 0xF8, 0x4D, 0x0F, 0, 0] := by decide +kernel

/-- R216, R235: the compressed headers of the dimming example, whose route has four hops. -/
theorem test_headers :
    let p : Packet := ⟨.iphc (some (0, 0)) false true 3 true 3, 0, 0, [.routing 3 3 8 8 [2, 3, 4]], false, 121, .echoReply []⟩
    iphcOctets p true = [0x7E, 0xF7, 0] ∧ (p.exts.flatMap (ExtHdr.nhc true)).take 2 = [0xE7, 0x1E] ∧
      (p.exts.flatMap (ExtHdr.nhc true)).length = 32 ∧ udpNhc 5683 5683 0xABCD = [0xF0, 0x16, 0x33, 0x16, 0x33, 0xAB, 0xCD] := by
  decide +kernel

/-- R282, R295: the fault record of the faulting firmware chunk. -/
theorem test_fault_record :
    let x : DescS := { T.desc 2 [] [] with phase := .gather }
    let j : Job := ⟨5, .gather 2 x.index, 2, 0x4180000C00, 0x4000, 0x1400, false, [], false, false, none, false, 0⟩
    let s : State := setFault 5 0 (some ⟨j, false, 1, none⟩) (modRing 5 2 (fun r => { r with descs := [x] }) T.base)
    faultReg s 5 0 0 = 0x229 ∧ faultReg s 5 0 4 = 0x80002000 ∧ faultReg s 5 0 8 = 0x41 ∧ faultReg s 5 0 12 = 0x1400 ∧
      faultReg s 5 0 16 = 0x2C00 := by decide +kernel

/-- R283, R285: AUX of the faulting firmware chunk. -/
theorem test_fault_aux : faultAux 0x1400 2 1 = 0xA00001400 := by decide +kernel

/-- R317: the derivation input of node N's link cast in the worked example of R327. -/
theorem test_cast_input :
    CastKey.input ⟨0, 1, 0x4C1A300000000102, 0x43⟩ =
      [0x01, 0x51, 0x4C, 0x4E, 0x4B, 0, 0x4C, 0x1A, 0x30, 0, 0, 0, 1, 2, 0x43, 0, 0x80] := by decide +kernel

/-- R386: a written copy is the one that the maquette takes, and the other copy is written next. -/
theorem test_boot_copies :
    let r : BootRec := ⟨3, .confirmed, .staged, .inUse, .spare, 6, 9, 2⟩
    let c := writeCopy { r with seq := 10 } (writeCopy r (List.replicate 2 (List.replicate 64 0xFF)))
    bootTaken c = { r with seq := 10 } ∧ bootCopy (c.getD 0 []) = some r := by decide +kernel

/-- R430, R431: the I2C example: MGMT_ALERT reads 01 00 00 00 and FABRIC_VREQ F8 02 B4 01. -/
theorem test_i2c :
    mgmtOctets { T.base.mgmt with vreq := 0x1B402F8, alert := 1 } 4 4 = [1, 0, 0, 0] ∧
      mgmtOctets { T.base.mgmt with vreq := 0x1B402F8, alert := 1 } 1 4 = [0xF8, 2, 0xB4, 1] := by decide +kernel

/-- The directory of the route walk example (R215). -/
def T.walk : State :=
  let node (e : Eui) (p0 p1 : Nat) : DirEnt := { DirEnt.fresh e .routed 7 0 with parent0 := p0, parent1 := p1 }
  let put (h : Nat) (d : DirEnt) (s : State) : State := (dirInsert h d s).2
  put 0x1A2B (node 1 0x410 noNode) <| put 0x410 (node 2 0x7C2 0xC01) <| put 0x7C2 (node 3 0x955 noNode) <|
    put 0x955 (node 4 0x410 noNode) <| put 0xC01 (node 5 0x2F00 0x33) <|
      put 0x33 { node 6 0x33 noNode with nbr := 0x105E, nbrValid := true }
        (fset 0 Fl.ROUTE_CFG_MAX_BACKTRACK 2 (fset 0 Fl.ROUTE_CFG_SHORTCUT_LQM 255 T.base))

/-- R214, R215: the route of the example, its loop and its missing parent. -/
theorem test_walk :
    walkOf T.walk 0x1A2B =
      ⟨.ok, [0x1A2B, 0x410, 0xC01, 0x33], 2, some (0x955, 0x410), some (0xC01, 0x2F00), false, []⟩ := by decide +kernel

/-- R223: ROUTE_WALK_RESULT of the example. -/
theorem test_walk_result : rd (runWalk 0x1A2B .clean T.walk) Reg.ROUTE_WALK_RESULT = 0x417A0400 := by decide +kernel

/-! ### The hypotheses of the statements can be met -/

/-- The hypotheses of clause 1 of `Obligations.StepRunsFrontCommand` can be met. -/
theorem witness_StepRunsFrontCommand_1 :
    let c : Instr := .fillDone
    let rest : List Instr := [.i2cRead 4 1]
    let s : State := { T.base with pending := [.fillDone, .i2cRead 4 1] }
    (s.pending = c :: rest) := by decide +kernel

/-- The hypotheses of clause 1 of `Obligations.IdleStepIsTick` can be met. -/
theorem witness_IdleStepIsTick_1 :
    let s : State := T.base
    (Works s) ∧ (s.pending = []) := by decide +kernel

/-- The hypotheses of clauses 1 to 6 of `Obligations.TimeCtrlTakesEffect` can be met. -/
theorem witness_TimeCtrlTakesEffect_1 :
    (let s : State := T.base
    let passes (w : Word) : Prop := (timeCtrlWordOk w && timeCtrlOk s w) = true
    let d : Fin 3 := 2
    (Works s) ∧ (passes (timeCtrlWith s (d.val <<< 1) 6))) ∧
    (let s : State := T.base
    let passes (w : Word) : Prop := (timeCtrlWordOk w && timeCtrlOk s w) = true
    let on : Bool := true
    (Works s) ∧ (passes (timeCtrlWith s (if on then 8 else 0) 8))) ∧
    (let s : State := T.time (fun t => { t with integ := 5, servoCorr := 7 }) T.base
    let passes (w : Word) : Prop := (timeCtrlWordOk w && timeCtrlOk s w) = true
    (Works s) ∧ (passes (timeCtrlWith s 16 0))) ∧
    (let s : State := wr Reg.TIME_LOAD_HI 3 (T.time (fun t => { t with clock := 0x123456789, expected := some 5 }) T.base)
    let passes (w : Word) : Prop := (timeCtrlWordOk w && timeCtrlOk s w) = true
    (Works s) ∧ (passes (timeCtrlWith s 32 0))) ∧
    (let s : State := T.time (fun t => { t with clock := 0x5FFFFFFFFF123456789, mono := 0x5FFFFFFFFFF }) T.base
    let passes (w : Word) : Prop := (timeCtrlWordOk w && timeCtrlOk s w) = true
    (Works s) ∧ (passes (timeCtrlWith s 64 0))) ∧
    (let s : State := wr Reg.TIME_START_HI 1 T.base
    let passes (w : Word) : Prop := (timeCtrlWordOk w && timeCtrlOk s w) = true
    (Works s) ∧ (passes (timeCtrlWith s 1 0))) := by decide +kernel

/-- The hypotheses of clause 7 of `Obligations.TimeCtrlTakesEffect` can be met. -/
theorem witness_TimeCtrlTakesEffect_7 :
    let s : State := wr Reg.TIME_CTRL 1 (T.time (fun t => { t with slots := .running }) T.base)
    let passes (w : Word) : Prop := (timeCtrlWordOk w && timeCtrlOk s w) = true
    (Works s) ∧ (passes (timeCtrlWith s 0 1)) := by decide +kernel

/-- The hypotheses of clauses 1 to 6 of `Obligations.TimeCtrlRejects` can be met. -/
theorem witness_TimeCtrlRejects_1 :
    (let s : State := wr Reg.TIME_CTRL 8 T.base
    let fails (w : Word) : Prop := (timeCtrlWordOk w && timeCtrlOk s w) = false
    let d : Fin 3 := 2
    (Works s) ∧ (fails (timeCtrlWith s (d.val <<< 1) 6))) ∧
    (let s : State := wr Reg.TIME_CTRL 4 T.base
    let fails (w : Word) : Prop := (timeCtrlWordOk w && timeCtrlOk s w) = false
    let on : Bool := true
    (Works s) ∧ (fails (timeCtrlWith s (if on then 8 else 0) 8))) ∧
    (let s : State := wr Reg.TIME_CTRL 6 T.base
    let fails (w : Word) : Prop := (timeCtrlWordOk w && timeCtrlOk s w) = false
    (Works s) ∧ (fails (timeCtrlWith s 16 0))) ∧
    (let s : State := wr Reg.TIME_CTRL 4 T.base
    let fails (w : Word) : Prop := (timeCtrlWordOk w && timeCtrlOk s w) = false
    (Works s) ∧ (fails (timeCtrlWith s 32 0))) ∧
    (let s : State := wr Reg.TIME_CTRL 0x0C T.base
    let fails (w : Word) : Prop := (timeCtrlWordOk w && timeCtrlOk s w) = false
    (Works s) ∧ (fails (timeCtrlWith s 64 0))) ∧
    (let s : State := T.time (fun t => { t with clock := 0x100000000 }) T.base
    let fails (w : Word) : Prop := (timeCtrlWordOk w && timeCtrlOk s w) = false
    (Works s) ∧ (fails (timeCtrlWith s 1 0))) := by decide +kernel

/-- The hypotheses of clause 7 of `Obligations.TimeCtrlRejects` can be met. -/
theorem witness_TimeCtrlRejects_7 :
    let s : State := wr Reg.MAC_CTRL 1 (wr Reg.TIME_CTRL 1 (T.time (fun t => { t with slots := .running }) T.base))
    let fails (w : Word) : Prop := (timeCtrlWordOk w && timeCtrlOk s w) = false
    (Works s) ∧ (fails (timeCtrlWith s 0 1)) := by decide +kernel

/-- The hypotheses of clauses 1 to 6 of `Obligations.PpsReference` can be met. -/
theorem witness_PpsReference_1 :
    (let s : State := wr Reg.TIME_CTRL 2 T.base
    let rising : Bool := false
    (Works s) ∧ (ppsSelects s rising = false)) ∧
    (let s : State := T.time (fun t => { t with clock := 0x100000000 }) T.base
    let rising : Bool := true
    (Works s) ∧ (ppsSelects s rising = true)) ∧
    (let s : State := wr Reg.TIME_CTRL 2 (T.time (fun t => { t with clock := 0x100000000 }) T.base)
    let rising : Bool := true
    (Works s) ∧ (ppsSelects s rising = true) ∧ (disc s = 1) ∧ (s.time.expected = none)) ∧
    (let s : State := wr Reg.TIME_CTRL 2 (T.time (fun t => { t with clock := 0x6400000000, expected := some 60, integ := 19990 }) T.base)
    let rising : Bool := true
    let sub : Fin 25 := 10
    let x : Instant := 60
    let e := instantDiff x (nowNs s + BitVec.ofNat 48 sub.val)
    (Works s) ∧ (ppsSelects s rising = true) ∧ (disc s = 1) ∧ (s.time.expected = some x) ∧ (e.natAbs ≤ fget s 0 Fl.TIME_PPS_CFG_WINDOW_NS)) ∧
    (let s : State := wr Reg.TIME_CTRL 2 (T.time (fun t => { t with clock := 0x6400000000, expected := some 100000, rejRun := 2 }) T.base)
    let rising : Bool := true
    let sub : Fin 25 := 3
    let x : Instant := 100000
    let e := instantDiff x (nowNs s + BitVec.ofNat 48 sub.val)
    (Works s) ∧ (ppsSelects s rising = true) ∧ (disc s = 1) ∧ (s.time.expected = some x) ∧ (fget s 0 Fl.TIME_PPS_CFG_WINDOW_NS < e.natAbs)) ∧
    (let s : State := wr Reg.TIME_CTRL 2 (T.time (fun t => { t with integ := 3 }) T.base)
    (Works s) ∧ (disc s = 1) ∧ (s.time.ref ≠ .holdover)) := by decide +kernel

/-- The hypotheses of clauses 1 to 3 of `Obligations.PhaseAdjust` can be met. -/
theorem witness_PhaseAdjust_1 :
    (let s : State := T.base
    let v : Word := 1000000000
    let rem := s.time.adjRem + v.toInt * 4294967296
    (Works s) ∧ (disc s ≠ 2 ∧ rem.natAbs ≤ 1000000000 * 4294967296)) ∧
    (let s : State := T.base
    let v : Word := 1000000001
    let rem := s.time.adjRem + v.toInt * 4294967296
    (Works s) ∧ (¬(disc s ≠ 2 ∧ rem.natAbs ≤ 1000000000 * 4294967296))) ∧
    (let s : State := T.time (fun t => { t with adjRem := -5000000000 }) T.base
    (Works s) ∧ (s.time.adjRem ≠ 0) ∧ (0 < slewStep s)) := by decide +kernel

/-- The hypotheses of clauses 1 to 6 of `Obligations.SlotTimingAndNames` can be met. -/
theorem witness_SlotTimingAndNames_1 :
    (let s : State := T.time (fun t => { t with slots := .stopping }) T.base
    (Works s) ∧ (s.time.slots = .stopping)) ∧
    (let s : State := { T.time (fun t => { t with bufferEnd := some 3 }) T.base with pend := [(Reg.TIME_INC, 9)] }
    let d : Nat := 3
    let v : Word := 9
    (Works s) ∧ (s.time.bufferEnd = some d) ∧ (slotsOn s = false) ∧ (s.pend = [(Reg.TIME_INC, v)])) ∧
    (let s : State := T.time (fun t => { t with name := ⟨7, Rsn.ofX 9⟩ }) T.granted
    let f : Fn := 7
    (Works s) ∧ (Readable s f.val Reg.TIME_RSN = true)) ∧
    (let s : State := wr Reg.TIME_CONV_IN_LO 0x01020304 T.base
    let v : Word := 0x80000000
    let r : Rsn := ⟨1, 2, 3, 4⟩
    (Works s) ∧ (bitAt 31 v = true) ∧ (bitAt 0 v = false) ∧ (Rsn.ofWord (rd s Reg.TIME_CONV_IN_LO) = some r)) ∧
    (let s : State := wr Reg.TIME_CONV_IN_LO 0x01FF0304 T.base
    let v : Word := 0x80000000
    (Works s) ∧ (bitAt 31 v = true) ∧ (bitAt 0 v = false) ∧ (Rsn.ofWord (rd s Reg.TIME_CONV_IN_LO) = none)) ∧
    (let s : State := wr Reg.TIME_CONV_IN_HI 0x1FF (wr Reg.TIME_CONV_IN_LO 0xFFFFFFFF T.base)
    let v : Word := 0x80000001
    (Works s) ∧ (bitAt 31 v = true) ∧ (bitAt 0 v = true)) := by decide +kernel

/-- The hypotheses of clauses 1 to 5 of `Obligations.TriggersAndCaptures` can be met. -/
theorem witness_TriggersAndCaptures_1 :
    (let s : State := wr (Reg.TIME_TRIG_WIDTH + 0xE0) 1000 (wr (Reg.TIME_TRIG_AT_LO + 0xE0) 10000 T.base)
    let k : Fin 8 := 7
    let v : Word := 1
    let u := storeKey (0x20 * k.val + Reg.TIME_TRIG_CFG) v s
    (Works s) ∧ (k.val < s.time.trigs.length) ∧ (trigOk u k.val = true) ∧ (fget u (0x20 * k.val) Fl.TIME_TRIG_CFG_MODE = 1) ∧ (10000 ≤ instantDiff (nowNs s) (trigAt u k.val))) ∧
    (let s : State := wr (Reg.TIME_TRIG_WIDTH + 0xE0) 1000 (wr (Reg.TIME_TRIG_AT_LO + 0xE0) 9999 T.base)
    let k : Fin 8 := 7
    let v : Word := 1
    let u := storeKey (0x20 * k.val + Reg.TIME_TRIG_CFG) v s
    (Works s) ∧ (k.val < s.time.trigs.length) ∧ (trigOk u k.val = true) ∧ (fget u (0x20 * k.val) Fl.TIME_TRIG_CFG_MODE = 1) ∧ (instantDiff (nowNs s) (trigAt u k.val) < 10000)) ∧
    (let s : State := wr (Reg.TIME_TRIG_WIDTH + 0xE0) 24 T.base
    let k : Fin 8 := 7
    let v : Word := 1
    let u := storeKey (0x20 * k.val + Reg.TIME_TRIG_CFG) v s
    (Works s) ∧ (k.val < s.time.trigs.length) ∧ (trigOk u k.val = false)) ∧
    (let s : State := wr Reg.TIME_TRIG_CFG 1 (T.time (fun t => { t with trigs := t.trigs.set 0 ⟨none, some 50⟩ }) T.base)
    let k : Fin 8 := 0
    let at0 : Instant := 50
    (Works s) ∧ (k.val < s.time.trigs.length) ∧ (fget s (0x20 * k.val) Fl.TIME_TRIG_CFG_MODE = 1) ∧ ((getTrig s k.val).next = some at0)) ∧
    (let s : State := T.time (fun t => { t with trigs := t.trigs.set 0 ⟨some 5, some 50⟩ }) T.base
    let k : Fin 8 := 0
    let at0 : Instant := 5
    (Works s) ∧ (k.val < s.time.trigs.length) ∧ ((getTrig s k.val).active = some at0)) := by decide +kernel

/-- The hypotheses of clauses 6 to 8 of `Obligations.TriggersAndCaptures` can be met. -/
theorem witness_TriggersAndCaptures_6 :
    (let s : State := wr (Reg.TIME_CAPT_CFG + 0x30) 1 (T.time (fun t => { t with capts := t.capts.set 3 ⟨List.replicate 16 ⟨1, true⟩, none⟩ }) T.base)
    let c : Fin 4 := 3
    let rising : Bool := true
    (Works s) ∧ (c.val < s.time.capts.length) ∧ (captSelects s c.val rising = true) ∧ ((fbit s (0x10 * c.val) Fl.TIME_CAPT_CFG_WINDOWED = true → captWindow s c.val = true))) ∧
    (let s : State := T.time (fun t => { t with capts := t.capts.set 3 ⟨[⟨1, true⟩], none⟩ }) T.granted
    let f : Fn := 7
    let c : Fin 4 := 3
    let e : CaptEntry := ⟨1, true⟩
    let rest : List CaptEntry := []
    (Works s) ∧ (c.val < s.time.capts.length) ∧ (Readable s f.val (0x10 * c.val + Reg.TIME_CAPT_LO) = true) ∧ ((getCapt s c.val).fifo = e :: rest)) ∧
    (let s : State := T.time (fun t => { t with capts := t.capts.set 3 ⟨[⟨1, true⟩], some ⟨1, true⟩⟩ }) T.granted
    let f : Fn := 7
    let c : Fin 4 := 3
    let e : CaptEntry := ⟨1, true⟩
    let rest : List CaptEntry := []
    (Works s) ∧ (c.val < s.time.capts.length) ∧ (Readable s f.val (0x10 * c.val + Reg.TIME_CAPT_HI) = true) ∧ (getCapt s c.val = ⟨e :: rest, some e⟩)) := by decide +kernel

/-- The hypotheses of clauses 1 to 6 of `Obligations.TideLink` can be met. -/
theorem witness_TideLink_1 :
    (let s : State := wr Reg.TIME_CTRL 8 T.base
    (Works s) ∧ (fbit s 0 Fl.TIME_CTRL_TIDE_SRC = true) ∧ (s.claim.st ≠ .diag)) ∧
    (let s : State := T.base
    let fields : List Byte := List.replicate 22 0
    (Works s) ∧ (fields.length = 22)) ∧
    (let s : State := T.base
    let fields : List Byte := List.replicate 22 0
    let octets : List Byte := 0xA5 :: List.replicate 22 0 ++ [1]
    (Works s) ∧ (fields.length = 22) ∧ (octets.length = 24) ∧ (octets.head? = some 0xA5) ∧ ((octets.drop 1).take 22 = fields) ∧ (octets.getLast? ≠ some (crc8 fields))) ∧
    (let s : State := wr Reg.TIME_CTRL 4 (T.time (fun t => { t with rejRun := 2 }) T.base)
    let octets : List Byte := [0xA5]
    (Works s) ∧ (disc s = 2) ∧ (tideParse octets = none)) ∧
    (let s : State := wr Reg.TIME_CTRL 4 T.base
    let cap : Instant := 30
    let octets : List Byte := T.tide
    let m : TideMsg := T.tideMsg
    (Works s) ∧ (disc s = 2) ∧ (tideParse octets = some m) ∧ (tideMismatch s cap m = false)) ∧
    (let s : State := wr Reg.TIME_CTRL 4 T.base
    (Works s) ∧ (disc s = 2) ∧ (s.time.tideLostTold = false)) := by decide +kernel

/-- The hypotheses of clauses 1 to 4 of `Obligations.DemodulatorFollows` can be met. -/
theorem witness_DemodulatorFollows_1 :
    (let s : State := T.demod .search none
    let n : Berth := 0
    let j : Nat := 47
    let lp : Int := -300
    let floor : Int := -400
    (Works s) ∧ (n.val < s.berths.length) ∧ (j < (getBerth s n.val).demods.length) ∧ ((getDemod s n.val j).st = .search) ∧ (detects s n.val lp floor = true)) ∧
    (let s : State := T.demod .search none
    let n : Berth := 0
    let j : Nat := 47
    let lp : Int := -401
    let floor : Int := -400
    (Works s) ∧ (n.val < s.berths.length) ∧ (j < (getBerth s n.val).demods.length) ∧ ((getDemod s n.val j).st = .search) ∧ (detects s n.val lp floor = false)) ∧
    (let s : State := T.demod .sync none
    let n : Berth := 0
    let j : Nat := 47
    let m : SfdMeas := { T.sfd with preamble := 8193 }
    (Works s) ∧ (n.val < s.berths.length) ∧ (j < (getBerth s n.val).demods.length) ∧ ((getDemod s n.val j).st = .sync) ∧ (sfdAccepted s n.val j m = true) ∧ (sfdInTime s n.val j m = false)) ∧
    (let s : State := T.demod .sync none
    let n : Berth := 0
    let j : Nat := 47
    let m : SfdMeas := T.sfd
    (Works s) ∧ (n.val < s.berths.length) ∧ (j < (getBerth s n.val).demods.length) ∧ ((getDemod s n.val j).st = .sync) ∧ (sfdAccepted s n.val j m = true) ∧ (sfdInTime s n.val j m = true)) := by decide +kernel

/-- The hypotheses of clauses 5 to 8 of `Obligations.DemodulatorFollows` can be met. -/
theorem witness_DemodulatorFollows_5 :
    (let s : State := modDemod 5 15 (fun d => { d with st := .sync }) T.base
    let n : Berth := 5
    let j : Nat := 15
    let why : SyncEnd := .window 0
    (Works s) ∧ (n.val < s.berths.length) ∧ (j < (getBerth s n.val).demods.length) ∧ ((getDemod s n.val j).st = .sync) ∧ (mustRelease s n.val j why = false)) ∧
    (let s : State := modDemod 5 15 (fun d => { d with st := .sync }) T.base
    let n : Berth := 5
    let j : Nat := 15
    let why : SyncEnd := .preamble 8193
    (Works s) ∧ (n.val < s.berths.length) ∧ (j < (getBerth s n.val).demods.length) ∧ ((getDemod s n.val j).st = .sync) ∧ (mustRelease s n.val j why = true)) ∧
    (let s : State := T.demod .payload (some T.rec)
    let n : Berth := 0
    let j : Nat := 47
    let lp : Int := 1000
    (Works s) ∧ (n.val < s.berths.length) ∧ (j < (getBerth s n.val).demods.length) ∧ ((getDemod s n.val j).st = .payload) ∧ (captureRef s n.val j + 4 * (fget s (berthBase n.val) Fl.BERTH_RX_DET_CAPTURE_DB : Int) ≤ lp) ∧ (detects s n.val lp (getDemod s n.val j).floor = true)) ∧
    (let s : State := T.demod .payload (some T.rec)
    let n : Berth := 0
    let j : Nat := 47
    let lp : Int := -1000
    (Works s) ∧ (n.val < s.berths.length) ∧ (j < (getBerth s n.val).demods.length) ∧ ((getDemod s n.val j).st = .payload) ∧ (lp < captureRef s n.val j + 4 * (fget s (berthBase n.val) Fl.BERTH_RX_DET_CAPTURE_DB : Int))) := by decide +kernel

/-- The hypotheses of clauses 1 to 2 of `Obligations.FrameEnds` can be met. -/
theorem witness_FrameEnds_1 :
    (let s : State := T.demod .phr (some T.rec)
    let n : Berth := 0
    let j : Nat := 47
    let r : RxRec := T.rec
    let p : Phr := ⟨true, false, false, true, 20⟩
    (Works s) ∧ (s.hold.flushing = none) ∧ (n.val < s.berths.length) ∧ (j < (getBerth s n.val).demods.length) ∧ ((getDemod s n.val j).record = some r) ∧ (r.berth = n.val) ∧ ((getDemod s n.val j).st = .phr) ∧ (phrOk s r p = true)) ∧
    (let s : State := T.demod .phr (some T.rec)
    let n : Berth := 0
    let j : Nat := 47
    let r : RxRec := T.rec
    let p : Phr := ⟨true, true, false, true, 20⟩
    (Works s) ∧ (s.hold.flushing = none) ∧ (n.val < s.berths.length) ∧ (j < (getBerth s n.val).demods.length) ∧ ((getDemod s n.val j).record = some r) ∧ (r.berth = n.val) ∧ ((getDemod s n.val j).st = .phr) ∧ (phrOk s r p = false)) := by decide +kernel

/-- The hypotheses of clauses 3 to 4 of `Obligations.FrameEnds` can be met. -/
theorem witness_FrameEnds_3 :
    (let s : State := T.demod .payload (some T.rec)
    let n : Berth := 0
    let j : Nat := 47
    let r : RxRec := T.rec
    (Works s) ∧ (s.hold.flushing = none) ∧ (n.val < s.berths.length) ∧ (j < (getBerth s n.val).demods.length) ∧ ((getDemod s n.val j).record = some r) ∧ (r.berth = n.val) ∧ ((getDemod s n.val j).st = .payload)) ∧
    (let s : State := T.demod .payload (some T.rec)
    let n : Berth := 0
    let j : Nat := 47
    let r : RxRec := T.rec
    (Works s) ∧ (s.hold.flushing = none) ∧ (n.val < s.berths.length) ∧ (j < (getBerth s n.val).demods.length) ∧ ((getDemod s n.val j).record = some r) ∧ (r.berth = n.val) ∧ ((getDemod s n.val j).st = .payload)) := by decide +kernel

/-- The hypotheses of clauses 5 to 6 of `Obligations.FrameEnds` can be met. -/
theorem witness_FrameEnds_5 :
    (let s : State := T.demod .payload (some T.rec)
    let n : Berth := 0
    let j : Nat := 47
    let r : RxRec := T.rec
    let body : RxBody := ⟨true, none, false⟩
    (Works s) ∧ (s.hold.flushing = none) ∧ (n.val < s.berths.length) ∧ (j < (getBerth s n.val).demods.length) ∧ ((getDemod s n.val j).record = some r) ∧ (r.berth = n.val) ∧ ((getDemod s n.val j).st = .payload) ∧ (r.coded = false) ∧ (body.poisoned = false)) ∧
    (let s : State := T.demod .payload (some { T.rec with coded := true })
    let n : Berth := 0
    let j : Nat := 47
    let r : RxRec := { T.rec with coded := true }
    (Works s) ∧ (s.hold.flushing = none) ∧ (n.val < s.berths.length) ∧ (j < (getBerth s n.val).demods.length) ∧ ((getDemod s n.val j).record = some r) ∧ (r.berth = n.val) ∧ ((getDemod s n.val j).st = .payload) ∧ (r.coded = true)) := by decide +kernel

/-- The hypotheses of clauses 1 to 2 of `Obligations.DecoderPool` can be met. -/
theorem witness_DecoderPool_1 :
    (let s : State := { T.base with dec := ⟨[⟨T.rec, false⟩], List.replicate 8 none⟩ }
    let e : Fin 8 := 7
    let c : Coded := ⟨T.rec, false⟩
    (Runs s) ∧ (s.hold.flushing = none) ∧ (e.val < s.dec.engines.length) ∧ (s.dec.engines.getD e.val none = none) ∧ (unitOut s (20 + e.val) = false) ∧ (((firstCoded true s.dec.queue).orElse fun _ => firstCoded false s.dec.queue) = some c)) ∧
    (let s : State := { T.base with dec := ⟨[], List.replicate 8 (some ⟨T.rec, true⟩)⟩ }
    let e : Fin 8 := 7
    let c : Coded := ⟨T.rec, true⟩
    let body : RxBody := ⟨true, none, false⟩
    (Runs s) ∧ (s.hold.flushing = none) ∧ (e.val < s.dec.engines.length) ∧ (s.dec.engines.getD e.val none = some c) ∧ (body.poisoned = false)) := by decide +kernel

/-- The hypotheses of clauses 1 to 4 of `Obligations.BerthTuningAndCalibration` can be met. -/
theorem witness_BerthTuningAndCalibration_1 :
    (let s : State := wr (berthBase 5 + Reg.BERTH_RX_CTRL) 1 (modBerth 5 (fun b => { b with bins := List.replicate 16 (some 0) }) T.base)
    let n : Berth := 5
    let j : Nat := 15
    (Works s) ∧ (n.val < s.berths.length) ∧ (berthPresent s n.val = true) ∧ (rxOn s n.val = true) ∧ (entryOn s n.val j = true) ∧ ((getBerth s n.val).calBusy = false) ∧ ((getBerth s n.val).blankEnd = none) ∧ (inDock s n.val = false) ∧ (j < berthEntries n.val) ∧ (j < (getBerth s n.val).demods.length) ∧ ((getDemod s n.val j).st = .off)) ∧
    (let s : State := wr (berthBase 5 + Reg.BERTH_RX_CTRL) 1 (modBerth 5 (fun b => { b with loLock := true }) T.base)
    let n : Berth := 5
    (Works s) ∧ (n.val < s.berths.length) ∧ ((getBerth s n.val).loLock = true)) ∧
    (let s : State := modBerth 5 (fun b => { b with blankEnd := some 900 }) (wr (berthBase 5 + Reg.BERTH_RX_CTRL) 1 T.base)
    let n : Berth := 5
    (Works s) ∧ (n.val < s.berths.length) ∧ ((getBerth s n.val).blankEnd ≠ none)) ∧
    (let s : State := wr (berthBase 5 + Reg.BERTH_RX_CTRL) 1 T.base
    let n : Berth := 5
    (Works s) ∧ (n.val < s.berths.length) ∧ (rxOn s n.val = true) ∧ ((getBerth s n.val).blankEnd = none) ∧ ((getBerth s n.val).clipNow = false)) := by decide +kernel

/-- The hypotheses of clauses 5 to 8 of `Obligations.BerthTuningAndCalibration` can be met. -/
theorem witness_BerthTuningAndCalibration_5 :
    (let s : State := T.base
    let n : Berth := 5
    (Works s) ∧ (n.val < s.berths.length) ∧ (berthPresent s n.val = true) ∧ ((getBerth s n.val).calBusy = false) ∧ (rxOn s n.val = false)) ∧
    (let s : State := modBerth 5 (fun b => { b with calBusy := true }) T.base
    let n : Berth := 5
    (Works s) ∧ (n.val < s.berths.length) ∧ (berthPresent s n.val = true) ∧ ((getBerth s n.val).calBusy = true)) ∧
    (let s : State := modBerth 5 (fun b => { b with calBusy := true }) T.base
    let n : Berth := 5
    (Works s) ∧ (n.val < s.berths.length) ∧ ((getBerth s n.val).calBusy = true)) ∧
    (let s : State := modBerth 5 (fun b => { b with calBusy := true }) T.base
    let n : Berth := 5
    (Works s) ∧ (n.val < s.berths.length) ∧ ((getBerth s n.val).calBusy = true)) := by decide +kernel

/-- The hypotheses of clauses 1 to 5 of `Obligations.TransmitterReady` can be met. -/
theorem witness_TransmitterReady_1 :
    (let s : State := T.ready
    let n : Berth := 0
    (Works s) ∧ (n.val < s.berths.length) ∧ (berthPresent s n.val = true) ∧ ((getBerth s n.val).synCal = false)) ∧
    (let s : State := wr (Reg.BCOM_COEX_CFG + 4) 1 (modBerth 5 (fun b => { b with requests := [T.tx] }) T.base)
    let n : Berth := 5
    let i : Nat := 0
    let x : Tx := T.tx
    (Works s) ∧ (n.val < s.berths.length) ∧ (coexNext s n.val = some i) ∧ ((getBerth s n.val).requests[i]? = some x) ∧ (coexOn s n.val = true)) ∧
    (let s : State := modBerth 5 (fun b => { b with calValid := true }) T.base
    let n : Berth := 5
    (Works s) ∧ (n.val < s.berths.length) ∧ (berthPresent s n.val = true) ∧ ((getBerth s n.val).calValid = true) ∧ ((getBerth s n.val).refreshDue = none)) ∧
    (let s : State := modBerth 5 (fun b => { b with synCal := true, refreshDue := some 0 }) T.base
    let n : Berth := 5
    let band : Nat := 63
    (Works s) ∧ (n.val < s.berths.length) ∧ (band < 64) ∧ ((getBerth s n.val).synCal = true)) ∧
    (let s : State := modBerth 5 (fun b => { b with synCal := true, refreshDue := some 0 }) T.base
    let n : Berth := 5
    (Works s) ∧ (n.val < s.berths.length) ∧ ((getBerth s n.val).synCal = true)) := by decide +kernel

/-- The hypotheses of clauses 6 to 8 of `Obligations.TransmitterReady` can be met. -/
theorem witness_TransmitterReady_6 :
    (let s : State := T.time (fun t => { t with mono := 0xDF8475800 <<< 32 }) (modBerth 5 (fun b => { b with refreshDue := some 0 }) T.base)
    let n : Berth := 5
    let due : Nat := 0
    (Works s) ∧ (n.val < s.berths.length) ∧ ((getBerth s n.val).refreshDue = some due) ∧ ((getBerth s n.val).refreshOverdue = false) ∧ ((getBerth s n.val).synCal = false) ∧ (due + 60000000000 ≤ monoNs s)) ∧
    (let s : State := wr (berthBase 5 + Reg.BERTH_TX_TAP_ADDR) 511 T.granted
    let n : Berth := 5
    let f : Fn := 7
    let v : Word := 0x8001
    let a := fget s (berthBase n.val) Fl.BERTH_TX_TAP_ADDR_ADDR
    (Works s) ∧ (n.val < s.berths.length) ∧ (Accepts s f.val (berthBase n.val + Reg.BERTH_TX_TAP_DATA) v = true) ∧ (fbit s (berthBase n.val + 4 * (a / 64)) Fl.BERTH_TX_MASK_EN = false)) ∧
    (let s : State := wr (berthBase 5 + Reg.BERTH_TX_MASK + 28) 0x80000000 (wr (berthBase 5 + Reg.BERTH_TX_TAP_ADDR) 511 T.granted)
    let n : Berth := 5
    let f : Fn := 7
    let v : Word := 0x8001
    let a := fget s (berthBase n.val) Fl.BERTH_TX_TAP_ADDR_ADDR
    (Works s) ∧ (n.val < s.berths.length) ∧ (Accepts s f.val (berthBase n.val + Reg.BERTH_TX_TAP_DATA) v = true) ∧ (fbit s (berthBase n.val + 4 * (a / 64)) Fl.BERTH_TX_MASK_EN = true)) := by decide +kernel

/-- The hypotheses of clauses 1 to 2 of `Obligations.GoInstant` can be met. -/
theorem witness_GoInstant_1 :
    (let s : State := T.ready
    let n : Berth := 0
    let cca : Cca := .noBerth
    let crossed : Nat := 10
    let gnt : Bool := true
    let x : Tx := T.tx
    let rest : List Tx := []
    let u := setGnt (coexGroup n.val) gnt (runRetune n.val (elapseToNs x.goAt s))
    let y := { x with coexHeld := coexOn u n.val }
    let p : Int := 40
    (Works s) ∧ (n.val < s.berths.length) ∧ ((getBerth s n.val).requests = x :: rest) ∧ (goCheck u n.val y cca crossed gnt = .inr p)) ∧
    (let s : State := T.ready
    let n : Berth := 0
    let cca : Cca := .noBerth
    let crossed : Nat := 9
    let gnt : Bool := true
    let x : Tx := T.tx
    let rest : List Tx := []
    let u := setGnt (coexGroup n.val) gnt (runRetune n.val (elapseToNs x.goAt s))
    let y := { x with coexHeld := coexOn u n.val }
    let o : TxOutcome := .underrun
    (Works s) ∧ (n.val < s.berths.length) ∧ ((getBerth s n.val).requests = x :: rest) ∧ (goCheck u n.val y cca crossed gnt = .inl o)) := by decide +kernel

/-- The hypotheses of clauses 1 to 5 of `Obligations.TransmissionEnds` can be met. -/
theorem witness_TransmissionEnds_1 :
    (let s : State := T.onAir T.tx
    let n : Berth := 0
    let x : Tx := T.tx
    let e : Instant := 1100000
    (Works s) ∧ (n.val < s.berths.length) ∧ ((getBerth s n.val).onAir = some x) ∧ ((getBerth s n.val).blankEnd = some e)) ∧
    (let s : State := T.onAir T.tx
    let n : Berth := 0
    let x : Tx := T.tx
    (Works s) ∧ (n.val < s.berths.length) ∧ ((getBerth s n.val).onAir = some x) ∧ (x.done = false)) ∧
    (let s : State := T.onAir T.tx
    let n : Berth := 0
    let x : Tx := T.tx
    (Works s) ∧ (n.val < s.berths.length) ∧ ((getBerth s n.val).onAir = some x) ∧ (x.done = false)) ∧
    (let s : State := T.onAir T.tx
    let n : Berth := 0
    let x : Tx := T.tx
    (Works s) ∧ (n.val < s.berths.length) ∧ ((getBerth s n.val).onAir = some x) ∧ (x.done = false)) ∧
    (let s : State := T.onAir T.tx
    let n : Berth := 0
    let x : Tx := T.tx
    (Works s) ∧ (n.val < s.berths.length) ∧ ((getBerth s n.val).onAir = some x) ∧ (x.done = false)) := by decide +kernel

/-- The hypotheses of clauses 6 to 8 of `Obligations.TransmissionEnds` can be met. -/
theorem witness_TransmissionEnds_6 :
    (let s : State := modBerth 0 (fun b => { b with airSent := true }) (T.onAir { T.tx with done := true })
    let n : Berth := 0
    let x : Tx := { T.tx with done := true }
    (Works s) ∧ (n.val < s.berths.length) ∧ ((getBerth s n.val).onAir = some x) ∧ (x.done = true) ∧ ((getBerth s n.val).airSent = true)) ∧
    (let s : State := wr Reg.BCOM_COEX_CFG 0x11 (T.onAir T.tx)
    let n : Berth := 0
    let x : Tx := T.tx
    let g : Fin 2 := 0
    (Works s) ∧ (n.val < s.berths.length) ∧ ((getBerth s n.val).onAir = some x) ∧ (x.done = false) ∧ (fbit s (4 * coexGroup n.val) Fl.BCOM_COEX_CFG_EN = true) ∧ (fbit s (4 * coexGroup n.val) Fl.BCOM_COEX_CFG_REVOKE_ABORT = true) ∧ (g.val = coexGroup n.val)) ∧
    (let s : State := wr (berthBase 0 + Reg.BERTH_TX_MASK + 28) 0x80000000 (T.onAir { T.tx with mask := some 7 })
    let n : Berth := 0
    let x : Tx := { T.tx with mask := some 7 }
    let j : Nat := 7
    (Works s) ∧ (n.val < s.berths.length) ∧ ((getBerth s n.val).onAir = some x) ∧ (j < 8) ∧ (x.done = false) ∧ (x.mask = some j)) := by decide +kernel

/-- The hypotheses of clauses 1 to 6 of `Obligations.ProfileAndDuty` can be met. -/
theorem witness_ProfileAndDuty_1 :
    (let s : State := { T.base with bcom := { T.base.bcom with duty := List.replicate 8 [(0, 5)] } }
    (Works s)) ∧
    (let s : State := T.base
    let b : Nat := 7
    (Works s) ∧ (b < 8) ∧ (b < s.bcom.duty.length)) ∧
    (let s : State := T.base
    let f : Fn := 0
    let v : Word := 0
    (Works s) ∧ (Accepts s f.val Reg.BCOM_PROF_CTRL (v ||| 0x80000000) = true) ∧ (fuseOk s f.val = false)) ∧
    (let s : State := { T.base with bcom := { T.base.bcom with fusing := true } }
    (Works s) ∧ (s.bcom.fusing = true)) ∧
    (let s : State := { T.base with bcom := { T.base.bcom with fusing := true } }
    (Works s) ∧ (s.bcom.fusing = true)) := by decide +kernel

/-- The hypotheses of clause 3 of `Obligations.ProfileAndDuty` can be met. -/
theorem witness_ProfileAndDuty_3 :
    let s : State := T.fuse
    let f : Fn := 0
    let v : Word := 0
    (Works s) ∧ (Accepts s f.val Reg.BCOM_PROF_CTRL (v ||| 0x80000000) = true) ∧ (fuseOk s f.val = true) := by
  exact ⟨by decide +kernel, by decide +kernel, T.fuse_ok⟩

/-- The hypotheses of clauses 1 to 5 of `Obligations.MacWindows` can be met. -/
theorem witness_MacWindows_1 :
    (let s : State := wr Reg.MAC_CELL_ADDR 4095 T.granted
    let f : Fn := 7
    let v : Word := 2
    (Works s) ∧ (Accepts s f.val Reg.MAC_CELL_DATA1 v = true)) ∧
    (let s : State := wr Reg.MAC_CELL_ADDR 4095 T.granted
    let f : Fn := 7
    let v : Word := 2
    let k : Nat := 0
    (Works s) ∧ (Accepts s f.val Reg.MAC_CELL_DATA1 v = true) ∧ (k ≠ fget s 0 Fl.MAC_CELL_ADDR_INDEX)) ∧
    (let s : State := wr Reg.MAC_CELL_ADDR 4095 T.granted
    let f : Fn := 7
    (Works s) ∧ (Readable s f.val Reg.MAC_CELL_DATA1 = true)) ∧
    (let s : State := wr Reg.MAC_HOP_ADDR 255 T.granted
    let f : Fn := 7
    let v : Word := 3
    (Works s) ∧ (Accepts s f.val Reg.MAC_HOP_DATA v = true)) ∧
    (let s : State := wr Reg.MAC_HOP_ADDR 255 T.granted
    let f : Fn := 7
    (Works s) ∧ (Readable s f.val Reg.MAC_HOP_DATA = true)) := by decide +kernel

/-- The hypotheses of clauses 1 to 6 of `Obligations.SlotsAndPlans` can be met. -/
theorem witness_SlotsAndPlans_1 :
    (let s : State := T.time (fun t => { t with slots := .armed, slotStart := 100000 }) T.base
    (Works s) ∧ (s.time.slots = .armed) ∧ ((disc s = 2 → s.time.adopted.isSome = true))) ∧
    (let s : State := T.time (fun t => { t with slots := .running, slotStart := 100000 }) T.base
    (Works s) ∧ (s.time.slots = .running)) ∧
    (let s : State := T.base
    (Works s) ∧ (slotsOn s = false)) ∧
    (let s : State := wr Reg.MAC_CTRL 1 { T.slots T.good with mac := MacS.reset }
    (Works s) ∧ (s.start.phase ≠ .halted) ∧ (s.time.slots = .running) ∧ (meshOn s = true) ∧ (gateOpen s = true) ∧ (s.mac.planned ≠ some (plannedName s))) ∧
    (let s : State := modBerth 0 (fun b => { b with requests := [{ T.tx with begun := false }] }) T.base
    let b : Berth := 0
    let i : Nat := 0
    let x : Tx := { T.tx with begun := false }
    (Works s) ∧ (s.start.phase ≠ .halted) ∧ (b.val < s.berths.length) ∧ ((getBerth s b.val).requests.findIdx? (fun r => !r.begun) = some i) ∧ ((getBerth s b.val).requests[i]? = some x) ∧ (x.cls ≠ .ba)) ∧
    (let s : State := { T.base with mac := { MacS.reset with awaiting := [T.await] } }
    let id : Nat := 3
    let a : AwaitAck := T.await
    (Works s) ∧ (s.start.phase ≠ .halted) ∧ (s.mac.awaiting.find? (fun a => a.queued.id = id) = some a)) := by decide +kernel

/-- The hypotheses of clauses 1 to 3 of `Obligations.ReceiveRecordSteps` can be met. -/
theorem witness_ReceiveRecordSteps_1 :
    (let s : State := T.slots { T.good with fcsOk := false }
    let r : RxRec := { T.good with fcsOk := false }
    (Runs s) ∧ (s.mac.records = [r]) ∧ (fget s 0 Fl.SVC_RAW_CFG_RX_MODE = 0) ∧ (r.whole = false)) ∧
    (let s : State := T.slots T.good
    let what : Struct := .dir 0 0
    let r : RxRec := T.good
    let m : HoldRead := .bad .ue 0
    (Runs s) ∧ (s.mac.records = [r]) ∧ (fget s 0 Fl.SVC_RAW_CFG_RX_MODE = 0) ∧ (r.whole = true) ∧ (s.mac.recent = []) ∧ (structDrops m what = true)) ∧
    (let s : State := { T.slots T.good with mac := { (T.slots T.good).mac with recent := [⟨recKhz T.base T.good, T.frame.src, T.frame.dsn, T.good.sfdTime, false⟩] } }
    let r : RxRec := T.good
    let y : Reception := ⟨recKhz T.base T.good, T.frame.src, T.frame.dsn, T.good.sfdTime, false⟩
    (Runs s) ∧ (s.mac.records = [r]) ∧ (fget s 0 Fl.SVC_RAW_CFG_RX_MODE = 0) ∧ (r.whole = true) ∧ (recentOf s r = some y) ∧ (y.passed = false)) := by decide +kernel

/-- The hypotheses of clauses 4 to 5 of `Obligations.ReceiveRecordSteps` can be met. -/
theorem witness_ReceiveRecordSteps_4 :
    (let s : State := T.slots { T.good with frame := some { T.frame with version := 1 } }
    let r : RxRec := { T.good with frame := some { T.frame with version := 1 } }
    let f : Frame := { T.frame with version := 1 }
    (Runs s) ∧ (s.mac.records = [r]) ∧ (fget s 0 Fl.SVC_RAW_CFG_RX_MODE = 0) ∧ (r.whole = true) ∧ (recentOf s r = none) ∧ (r.frame = some f) ∧ (frameOurs s f = false)) ∧
    (let s : State := T.slots { T.good with sfdTime := 0 }
    let r : RxRec := { T.good with sfdTime := 0 }
    let f : Frame := T.frame
    (Runs s) ∧ (s.mac.records = [r]) ∧ (fget s 0 Fl.SVC_RAW_CFG_RX_MODE = 0) ∧ (r.whole = true) ∧ (recentOf s r = none) ∧ (r.frame = some f) ∧ (frameOurs s f = true) ∧ (f.kind = .data) ∧ (inWindow s r = false)) := by decide +kernel

/-- The hypotheses of clause 6 of `Obligations.ReceiveRecordSteps` can be met. -/
theorem witness_ReceiveRecordSteps_6 :
    let s : State := T.slots { T.good with frame := some T.secFrame }
    let r : RxRec := { T.good with frame := some T.secFrame }
    let f : Frame := T.secFrame
    let c : FrameSec := ⟨5, 1, 17, true, true, ⟨0, 1, 9, 0⟩, ⟨0, Rsn.ofX 0⟩, true⟩
    (Runs s) ∧ (s.mac.records = [r]) ∧ (fget s 0 Fl.SVC_RAW_CFG_RX_MODE = 0) ∧ (r.whole = true) ∧ (recentOf s r = none) ∧ (r.frame = some f) ∧ (frameOurs s f = true) ∧ (f.kind = .data) ∧ (inWindow s r = true) ∧ (f.sec = some c) ∧ (c.level ≠ 0) ∧ (16 < c.keyIndex) := by decide +kernel

/-- The hypotheses of clause 7 of `Obligations.ReceiveRecordSteps` can be met. -/
theorem witness_ReceiveRecordSteps_7 :
    let s : State := T.slots T.good
    let r : RxRec := T.good
    let f : Frame := T.frame
    let e : Eui := 9
    (Runs s) ∧ (s.mac.records = [r]) ∧ (fget s 0 Fl.SVC_RAW_CFG_RX_MODE = 0) ∧ (r.whole = true) ∧ (r.frame = some f) ∧ (frameOurs s f = true) ∧ (f.kind = .data) ∧ (f.src = .eui e) ∧ (f.dst = Addr.broadcast) ∧ (inWindow s r = true) ∧ (f.sec = none) ∧ (fbit s 0 Fl.MAC_CTRL_RX_UNSEC = true) ∧ (gateOpen s = true) ∧ (s.mac.recent = []) ∧ (nbrsOf s e = []) ∧ (learnsSuspect s r f (some e) = none) ∧ (isWide s (bandOfBerth r.berth) r.name = false) ∧ ((classicChans s (bandOfBerth r.berth) r.name).contains r.channel = true) := by decide +kernel

/-- The hypotheses of clauses 1 to 5 of `Obligations.TablesAge` can be met. -/
theorem witness_TablesAge_1 :
    (let s : State := T.tab (fun t => { t with repairing := some 3 }) T.base
    (Runs s) ∧ (s.tables.repairing.isSome = true)) ∧
    (let s : State := T.tab (fun t => { t with strays := [⟨9, none, some 5000⟩, ⟨8, none, none⟩] }) T.base
    let e : Eui := 9
    let x : Stray := ⟨9, none, some 5000⟩
    let m : Nat := 5000
    (Runs s) ∧ (s.tables.strays.find? (fun y => y.eui = e) = some x) ∧ (x.until? = some m)) ∧
    (let s : State := wr (berthBase 0 + Reg.BERTH_TX_CTRL) 1 (T.tab (fun t => { t with arb := [⟨9, nbrHandle 0 0, -100, 50, 0⟩], nbrs := [(nbrHandle 0 0, T.nbr)] }) (T.node (T.dir .heard)))
    let ev : ArbEvent := ⟨9, nbrHandle 0 0, -100, 50, 0⟩
    let x : Nbr := T.nbr
    (Runs s) ∧ (s.tables.arb = [ev]) ∧ (ev.releaseMono ≤ monoNs s) ∧ (nbrsOf s ev.eui = [(ev.nbr, x)]) ∧ (x.home = false) ∧ (homeEligible s (ev.nbr / 2048) = true)) ∧
    (let s : State := wr Reg.ROUTE_NBR_CFG 10 (T.tab (fun t => { t with nbrs := [(nbrHandle 5 2047, T.nbr)] }) (T.node (T.dir .heard)))
    let n : Berth := 5
    let i : Nat := 2047
    let x : Nbr := T.nbr
    (Runs s) ∧ (nbrGet s (nbrHandle n.val i) = some x) ∧ (fget s 0 Fl.ROUTE_NBR_CFG_AGE_S ≠ 0) ∧ ((s.mac.queue.any fun q => q.toEui x.eui) = false)) ∧
    (let s : State := wr Reg.ROUTE_NBR_CFG 10 (T.tab (fun t => { t with nbrs := [(nbrHandle 5 2047, T.nbr)] }) (T.node (T.dir .heard)))
    let n : Berth := 5
    let i : Nat := 2047
    let x : Nbr := T.nbr
    (Runs s) ∧ (nbrGet s (nbrHandle n.val i) = some x) ∧ (fget s 0 Fl.ROUTE_NBR_CFG_AGE_S ≠ 0) ∧ ((s.mac.queue.any fun q => q.toEui x.eui) = false) ∧ (nbrsOf s x.eui = [(nbrHandle n.val i, x)]) ∧ ((dirGet s x.node).isSome = true)) := by decide +kernel

/-- The hypotheses of clauses 1 to 6 of `Obligations.RouteControls` can be met. -/
theorem witness_RouteControls_1 :
    (let s : State := T.granted
    (Works s) ∧ (Accepts s (hmFn s) Reg.ROUTE_CTRL (routeCtrlWith s 1) = true)) ∧
    (let s : State := T.tab (fun t => { t with nbrs := [(nbrHandle 5 2047, T.nbr)] }) T.granted
    let k : Nat := nbrHandle 5 2047
    let x : Nbr := T.nbr
    (Works s) ∧ (Accepts s (hmFn s) Reg.ROUTE_CTRL (routeCtrlWith s 1) = true) ∧ (fbit s 0 Fl.ROUTE_CTRL_SHORT_EN = false) ∧ (s.tables.nbrs = [(k, x)]) ∧ (x.short = 0xFFFE)) ∧
    (let s : State := fset 0 Fl.ROUTE_RPL_INST_VERSION 255 T.granted
    (Works s) ∧ (Accepts s (hmFn s) Reg.ROUTE_CTRL (routeCtrlWith s 3) = true)) ∧
    (let s : State := fset 0 Fl.ROUTE_CTRL_RPL_EN 1 T.granted
    (Works s) ∧ (Accepts s (hmFn s) Reg.ROUTE_CTRL (routeCtrlWith s 3) = true) ∧ (fbit s 0 Fl.ROUTE_CTRL_RPL_EN = true)) ∧
    (let s : State := fset 0 Fl.ROUTE_RPL_TRICKLE_DTSN 127 T.granted
    (Works s) ∧ (Accepts s (hmFn s) Reg.ROUTE_CTRL (routeCtrlWith s 4) = true)) ∧
    (let s : State := T.granted
    let f : Fn := 7
    let v : Word := 0x3FFFF
    (Works s) ∧ (Accepts s f.val Reg.ROUTE_WALK_CTRL (v ||| 0x80000000) = true) ∧ (dirGet s (bitsOf 17 0 v) = none)) := by decide +kernel

/-- The hypotheses of clauses 7 to 9 of `Obligations.RouteControls` can be met. -/
theorem witness_RouteControls_7 :
    (let s : State := wr (Reg.RING_GRANT + 28) 0x7FFFF (T.node { T.dir .heard with nbrValid := true, nbr := 16383 })
    let f : Fn := 7
    let v : Word := 5
    let d : DirEnt := { T.dir .heard with nbrValid := true, nbr := 16383 }
    (Works s) ∧ (Accepts s f.val Reg.ROUTE_WALK_CTRL (v ||| 0x80000000) = true) ∧ (dirGet s (bitsOf 17 0 v) = some d) ∧ (d.state = .heard) ∧ (d.bad = []) ∧ (d.nbrValid = true) ∧ (d.nbr < 16384)) ∧
    (let s : State := wr (Reg.RING_GRANT + 28) 0x7FFFF (T.node (T.dir .routed))
    let f : Fn := 7
    let v : Word := 5
    let d : DirEnt := T.dir .routed
    (Works s) ∧ (Accepts s f.val Reg.ROUTE_WALK_CTRL (v ||| 0x80000000) = true) ∧ (dirGet s (bitsOf 17 0 v) = some d) ∧ (d.state = .routed) ∧ (d.bad = []) ∧ (d.nbrValid = false) ∧ (d.parent0 = noNode) ∧ (d.parent1 = noNode) ∧ (d.pref.testBit 1 = false)) ∧
    (let s : State := wr (Reg.RING_GRANT + 28) 0x7FFFF (T.node (T.dir .suspect))
    let f : Fn := 7
    let v : Word := 5
    let d : DirEnt := T.dir .suspect
    (Works s) ∧ (Accepts s f.val Reg.ROUTE_WALK_CTRL (v ||| 0x80000000) = true) ∧ (dirGet s (bitsOf 17 0 v) = some d) ∧ (d.state = .suspect)) := by decide +kernel

/-- The hypotheses of clause 10 of `Obligations.RouteControls` can be met. -/
theorem witness_RouteControls_10 :
    let s : State := wr (Reg.RING_GRANT + 28) 0x7FFFF (T.node { T.dir .routed with bad := [7] })
    let f : Fn := 7
    let v : Word := 5
    let d : DirEnt := { T.dir .routed with bad := [7] }
    let w : Nat := 7
    (Works s) ∧ (Accepts s f.val Reg.ROUTE_WALK_CTRL (v ||| 0x80000000) = true) ∧ (dirGet s (bitsOf 17 0 v) = some d) ∧ (d.state ≠ .suspect) ∧ (d.bad = [w]) := by decide +kernel

/-- The hypotheses of clauses 1 to 3 of `Obligations.RplMessages` can be met. -/
theorem witness_RplMessages_1 :
    (let s : State := fset 0 Fl.ROUTE_CTRL_RPL_EN 1 (fset 0 Fl.ROUTE_RPL_TRICKLE_REDUNDANCY 2 (T.tab (fun t => { t with trickle := ⟨2000, some 100, 2000000, 2⟩ }) T.base))
    let m : Nat := 100
    (Runs s) ∧ (s.tables.trickle.fireMono = some m) ∧ (fbit s 0 Fl.ROUTE_CTRL_RPL_EN = true) ∧ (fget s 0 Fl.ROUTE_RPL_TRICKLE_REDUNDANCY ≠ 0) ∧ (fget s 0 Fl.ROUTE_RPL_TRICKLE_REDUNDANCY ≤ s.tables.trickle.heard)) ∧
    (let s : State := T.rpl .dis T.base
    let x : RplIn := T.rplIn .dis
    (Runs s) ∧ (s.svc.rplq = [x]) ∧ (x.msg = .dis) ∧ (x.multicast = true) ∧ (fbit s 0 Fl.ROUTE_CTRL_RPL_EN = true)) ∧
    (let s : State := T.rpl (.dao { T.dao 5 1 with inst := 77 }) T.base
    let x : RplIn := T.rplIn (.dao { T.dao 5 1 with inst := 77 })
    let d : Dao := { T.dao 5 1 with inst := 77 }
    (Runs s) ∧ (s.svc.rplq = [x]) ∧ (x.msg = .dao d) ∧ (fbit s 0 Fl.ROUTE_CTRL_RPL_EN = true) ∧ (d.inst ≠ fget s 0 Fl.ROUTE_RPL_INST_INSTANCE)) := by decide +kernel

/-- The hypotheses of clause 4 of `Obligations.RplMessages` can be met. -/
theorem witness_RplMessages_4 :
    let s : State := T.rpl (.dao (T.dao 5 255)) (T.node (T.dir .heard))
    let x : RplIn := T.rplIn (.dao (T.dao 5 255))
    let d : Dao := T.dao 5 255
    let g : DaoTarget := T.daoTarget
    let p : Transit := ⟨0, 5, 255, some 0⟩
    let h : Handle := 5
    let e : DirEnt := T.dir .heard
    (Runs s) ∧ (s.svc.rplq = [x]) ∧ (x.msg = .dao d) ∧ (fbit s 0 Fl.ROUTE_CTRL_RPL_EN = true) ∧ (d.inst = fget s 0 Fl.ROUTE_RPL_INST_INSTANCE) ∧ (d.dodag.all (fun a => a = dodagId s) = true) ∧ (d.kFlag = false) ∧ (d.targets = [g]) ∧ (g.len = 128) ∧ (inPrefix s g.addr = true) ∧ (d.transits = [p]) ∧ (p.parent = some (dodagId s)) ∧ (inPrefix s (dodagId s) = true) ∧ (p.lifetime ≠ 0) ∧ (lookup s g.addr.node = some h) ∧ (dirGet s h = some e) ∧ (e.bad = []) ∧ (e.state = .heard) := by decide +kernel

/-- The hypotheses of clause 5 of `Obligations.RplMessages` can be met. -/
theorem witness_RplMessages_5 :
    let s : State := T.rpl (.dao (T.dao 5 255)) (T.node { T.dir .routed with daoSeq := 6 })
    let x : RplIn := T.rplIn (.dao (T.dao 5 255))
    let d : Dao := T.dao 5 255
    let g : DaoTarget := T.daoTarget
    let p : Transit := ⟨0, 5, 255, some 0⟩
    let h : Handle := 5
    let e : DirEnt := { T.dir .routed with daoSeq := 6 }
    (Runs s) ∧ (s.svc.rplq = [x]) ∧ (x.msg = .dao d) ∧ (fbit s 0 Fl.ROUTE_CTRL_RPL_EN = true) ∧ (d.inst = fget s 0 Fl.ROUTE_RPL_INST_INSTANCE) ∧ (d.dodag.all (fun a => a = dodagId s) = true) ∧ (d.kFlag = false) ∧ (d.targets = [g]) ∧ (g.len = 128) ∧ (inPrefix s g.addr = true) ∧ (d.transits = [p]) ∧ (p.parent = some (dodagId s)) ∧ (inPrefix s (dodagId s) = true) ∧ (p.lifetime ≠ 0) ∧ (lookup s g.addr.node = some h) ∧ (dirGet s h = some e) ∧ (e.bad = []) ∧ (e.state = .routed) ∧ (p.sequence ≠ e.daoSeq) ∧ (seqNewer p.sequence.toNat e.daoSeq.toNat = false) := by decide +kernel

/-- The hypotheses of clause 6 of `Obligations.RplMessages` can be met. -/
theorem witness_RplMessages_6 :
    let s : State := T.rpl (.dao (T.dao 5 0)) (T.node { T.dir .routed with daoSeq := 4 })
    let x : RplIn := T.rplIn (.dao (T.dao 5 0))
    let d : Dao := T.dao 5 0
    let g : DaoTarget := T.daoTarget
    let p : Transit := ⟨0, 5, 0, some 0⟩
    let h : Handle := 5
    let e : DirEnt := { T.dir .routed with daoSeq := 4 }
    (Runs s) ∧ (s.svc.rplq = [x]) ∧ (x.msg = .dao d) ∧ (fbit s 0 Fl.ROUTE_CTRL_RPL_EN = true) ∧ (d.inst = fget s 0 Fl.ROUTE_RPL_INST_INSTANCE) ∧ (d.dodag.all (fun a => a = dodagId s) = true) ∧ (d.kFlag = false) ∧ (d.targets = [g]) ∧ (g.len = 128) ∧ (inPrefix s g.addr = true) ∧ (d.transits = [p]) ∧ (p.parent = some (dodagId s)) ∧ (inPrefix s (dodagId s) = true) ∧ (p.lifetime = 0) ∧ (lookup s g.addr.node = some h) ∧ (dirGet s h = some e) ∧ (e.bad = []) ∧ (e.state = .routed) ∧ (seqNewer p.sequence.toNat e.daoSeq.toNat = true) := by decide +kernel

/-- The hypotheses of clause 7 of `Obligations.RplMessages` can be met. -/
theorem witness_RplMessages_7 :
    let s : State := T.rpl (.dao (T.dao 5 0)) (T.node { T.dir .routed with daoSeq := 5 })
    let x : RplIn := T.rplIn (.dao (T.dao 5 0))
    let d : Dao := T.dao 5 0
    let g : DaoTarget := T.daoTarget
    let p : Transit := ⟨0, 5, 0, some 0⟩
    let h : Handle := 5
    let e : DirEnt := { T.dir .routed with daoSeq := 5 }
    (Runs s) ∧ (s.svc.rplq = [x]) ∧ (x.msg = .dao d) ∧ (fbit s 0 Fl.ROUTE_CTRL_RPL_EN = true) ∧ (d.inst = fget s 0 Fl.ROUTE_RPL_INST_INSTANCE) ∧ (d.dodag.all (fun a => a = dodagId s) = true) ∧ (d.kFlag = false) ∧ (d.targets = [g]) ∧ (g.len = 128) ∧ (inPrefix s g.addr = true) ∧ (d.transits = [p]) ∧ (p.parent = some (dodagId s)) ∧ (inPrefix s (dodagId s) = true) ∧ (p.lifetime = 0) ∧ (lookup s g.addr.node = some h) ∧ (dirGet s h = some e) ∧ (e.bad = []) ∧ (e.state = .routed) ∧ (p.sequence = e.daoSeq) := by decide +kernel

/-- The hypotheses of clauses 8 to 9 of `Obligations.RplMessages` can be met. -/
theorem witness_RplMessages_8 :
    (let s : State := T.node { T.dir .routed with daoLife := 65534 }
    let h : Handle := 5
    let e : DirEnt := { T.dir .routed with daoLife := 65534 }
    (Runs s) ∧ ((s.tables.dir.filter fun p => p.1 = h) = [(h, e)]) ∧ (1 < e.daoLife) ∧ (e.daoLife ≠ 0xFFFF)) ∧
    (let s : State := T.node { T.dir .routed with daoLife := 1 }
    let h : Handle := 5
    let e : DirEnt := { T.dir .routed with daoLife := 1 }
    (Runs s) ∧ ((s.tables.dir.filter fun p => p.1 = h) = [(h, e)]) ∧ (e.daoLife = 1) ∧ (e.state = .routed)) := by decide +kernel

/-- The hypotheses of clauses 1 to 3 of `Obligations.TableReads` can be met. -/
theorem witness_TableReads_1 :
    (let s : State := T.ask 1 0 noNode 9 T.base
    let f : Fn := 7
    let op := fget s (fb f.val) Fl.TBL_CMD_OP
    let c := tblRegs s f.val
    (Runs s) ∧ (nextTbl s = some (.regs f.val)) ∧ (op = 1) ∧ (c.table = 0) ∧ (lookup s c.key = none)) ∧
    (let s : State := T.ask 1 0 noNode 9 (T.node (T.dir .heard))
    let f : Fn := 7
    let op := fget s (fb f.val) Fl.TBL_CMD_OP
    let c := tblRegs s f.val
    let h : Handle := 5
    let d : DirEnt := T.dir .heard
    (Runs s) ∧ (nextTbl s = some (.regs f.val)) ∧ (op = 1) ∧ (c.table = 0) ∧ (lookup s c.key = some h) ∧ (dirGet s h = some d)) ∧
    (let s : State := T.ask 2 0 5 0 (T.node (T.dir .heard))
    let f : Fn := 7
    let op := fget s (fb f.val) Fl.TBL_CMD_OP
    let c := tblRegs s f.val
    let d : DirEnt := T.dir .heard
    (Runs s) ∧ (nextTbl s = some (.regs f.val)) ∧ (op = 2) ∧ (c.table = 0) ∧ (c.handle ≠ noNode) ∧ (dirGet s c.handle = some d) ∧ (maySee s f.val d = true) ∧ (d.bad = [])) := by decide +kernel

/-- The hypotheses of clauses 4 to 5 of `Obligations.TableReads` can be met. -/
theorem witness_TableReads_4 :
    (let s : State := T.ask 3 0 5 0 (T.node (T.dir .heard))
    let f : Fn := 7
    let op := fget s (fb f.val) Fl.TBL_CMD_OP
    let c := tblRegs s f.val
    let d : DirEnt := T.dir .heard
    (Runs s) ∧ (nextTbl s = some (.regs f.val)) ∧ (op = 3) ∧ (c.table = 0) ∧ (c.handle ≠ noNode) ∧ (dirGet s c.handle = some d) ∧ (maySee s f.val d = true) ∧ (d.bad = []) ∧ (lockedBy s f.val c.handle = none) ∧ ((s.tables.locks.filter fun l => l.fn = f.val).length < 8)) ∧
    (let s : State := T.ask 3 0 5 0 (T.tab (fun t => { t with locks := [⟨5, 2, 1000⟩] }) (T.node (T.dir .heard)))
    let f : Fn := 7
    let op := fget s (fb f.val) Fl.TBL_CMD_OP
    let c := tblRegs s f.val
    let d : DirEnt := T.dir .heard
    let g : Fn := 2
    (Runs s) ∧ (nextTbl s = some (.regs f.val)) ∧ (op = 3) ∧ (c.table = 0) ∧ (c.handle ≠ noNode) ∧ (dirGet s c.handle = some d) ∧ (maySee s f.val d = true) ∧ (lockedBy s f.val c.handle = some g.val)) := by decide +kernel

/-- The hypotheses of clauses 6 to 7 of `Obligations.TableReads` can be met. -/
theorem witness_TableReads_6 :
    (let s : State := T.ask 7 0 5 0 (T.tab (fun t => { t with locks := [⟨5, 7, 1000⟩] }) (T.node (T.dir .heard)))
    let f : Fn := 7
    let op := fget s (fb f.val) Fl.TBL_CMD_OP
    let c := tblRegs s f.val
    let d : DirEnt := T.dir .heard
    (Runs s) ∧ (nextTbl s = some (.regs f.val)) ∧ (op = 7) ∧ (c.table = 0) ∧ (c.handle ≠ noNode) ∧ (dirGet s c.handle = some d) ∧ (maySee s f.val d = true) ∧ (lockedBy s f.val c.handle = none)) ∧
    (let s : State := T.ask 8 0 4 0 (T.node (T.dir .heard))
    let f : Fn := 7
    let op := fget s (fb f.val) Fl.TBL_CMD_OP
    let c := tblRegs s f.val
    let h : Handle := 5
    let d : DirEnt := T.dir .heard
    (Runs s) ∧ (nextTbl s = some (.regs f.val)) ∧ (op = 8) ∧ (c.table = 0) ∧ (dirGet s h = some d) ∧ (maySee s f.val d = true) ∧ ((c.handle = noNode ∨ c.handle < h)) ∧ ((∀ p ∈ (s.tables.dir.takeWhile fun p => p.1 ≠ h), maySee s f.val p.2 = true → c.handle ≠ noNode ∧ p.1 ≤ c.handle))) := by decide +kernel

/-- The hypotheses of clause 8 of `Obligations.TableReads` can be met. -/
theorem witness_TableReads_8 :
    let s : State := T.ask 8 0 5 0 (T.node (T.dir .heard))
    let f : Fn := 7
    let op := fget s (fb f.val) Fl.TBL_CMD_OP
    let c := tblRegs s f.val
    (Runs s) ∧ (nextTbl s = some (.regs f.val)) ∧ (op = 8) ∧ (c.table = 0) ∧ ((∀ p ∈ s.tables.dir, maySee s f.val p.2 = true → c.handle ≠ noNode ∧ p.1 ≤ c.handle)) := by decide +kernel

/-- The hypotheses of clauses 1 to 2 of `Obligations.TableChanges` can be met. -/
theorem witness_TableChanges_1 :
    (let s : State := wr (fb 7 + Reg.TBL_DATA + 44) 0x20001 (wr (fb 7 + Reg.TBL_DATA + 40) 0x40003 (fset (fb 7) Fl.TBL_CMD_WMASK 0x20 (T.ask 4 0 5 0 (T.node { T.dir .heard with bad := [5, 6] }))))
    let f : Fn := 7
    let asked (op : Nat) : Prop := nextTbl s = some (.regs f.val) ∧ fget s (fb f.val) Fl.TBL_CMD_OP = op ∧ fget s (fb f.val) Fl.TBL_CMD_TABLE = 0
    let c := tblRegs s f.val
    let d : DirEnt := { T.dir .heard with bad := [5, 6] }
    (Runs s) ∧ (asked 4) ∧ (c.handle ≠ noNode) ∧ (dirGet s c.handle = some d) ∧ (maySee s f.val d = true) ∧ (lockedBy s f.val c.handle = none) ∧ (d.state ≠ .suspect) ∧ (c.wmask = 0x20)) ∧
    (let s : State := fset (fb 7) Fl.TBL_CMD_WMASK 0x20 (T.ask 4 0 5 0 (T.node (T.dir .heard)))
    let f : Fn := 7
    let asked (op : Nat) : Prop := nextTbl s = some (.regs f.val) ∧ fget s (fb f.val) Fl.TBL_CMD_OP = op ∧ fget s (fb f.val) Fl.TBL_CMD_TABLE = 0
    let c := tblRegs s f.val
    let d : DirEnt := T.dir .heard
    let k : Handle := 4
    (Runs s) ∧ (asked 4) ∧ (c.handle ≠ noNode) ∧ (dirGet s c.handle = some d) ∧ (maySee s f.val d = true) ∧ (lockedBy s f.val c.handle = none) ∧ (d.state ≠ .suspect) ∧ (c.wmask = 0x20) ∧ (k ≠ c.handle)) := by decide +kernel

/-- The hypotheses of clauses 3 to 4 of `Obligations.TableChanges` can be met. -/
theorem witness_TableChanges_3 :
    (let s : State := (fset (fb 7) Fl.TBL_CMD_WMASK 0x20 (T.ask 4 0 5 0 (T.node { T.dir .heard with tenant := 2 })))
    let f : Fn := 7
    let asked (op : Nat) : Prop := nextTbl s = some (.regs f.val) ∧ fget s (fb f.val) Fl.TBL_CMD_OP = op ∧ fget s (fb f.val) Fl.TBL_CMD_TABLE = 0
    let c := tblRegs s f.val
    let d : DirEnt := { T.dir .heard with tenant := 2 }
    (Runs s) ∧ (asked 4) ∧ (c.handle ≠ noNode) ∧ (dirGet s c.handle = some d) ∧ (maySee s f.val d = false)) ∧
    (let s : State := wr (fb 7 + Reg.TBL_DATA) 9 (wr (fb 7 + Reg.TBL_DATA + 8) 0xFFFFFFFF (wr (fb 7 + Reg.TBL_DATA + 12) 0x120F (T.ask 5 0 5 9 T.base)))
    let f : Fn := 7
    let asked (op : Nat) : Prop := nextTbl s = some (.regs f.val) ∧ fget s (fb f.val) Fl.TBL_CMD_OP = op ∧ fget s (fb f.val) Fl.TBL_CMD_TABLE = 0
    let c := tblRegs s f.val
    let i : Nat := 0
    (Runs s) ∧ (asked 5) ∧ (c.handle ≠ noNode) ∧ (lookup s c.key = none) ∧ (underRepair s (keysOf s c.key) = false) ∧ (dirGet s c.handle = none) ∧ (imageOk s 0xFF c.handle c.key (wordsOf c.image) = true) ∧ (emptyWay s (keysOf s c.key).b1 = some i) ∧ (s.camp.camps = [])) := by decide +kernel

/-- The hypotheses of clauses 5 to 6 of `Obligations.TableChanges` can be met. -/
theorem witness_TableChanges_5 :
    (let s : State := T.ask 5 0 5 9 (T.node (T.dir .heard))
    let f : Fn := 7
    let asked (op : Nat) : Prop := nextTbl s = some (.regs f.val) ∧ fget s (fb f.val) Fl.TBL_CMD_OP = op ∧ fget s (fb f.val) Fl.TBL_CMD_TABLE = 0
    let c := tblRegs s f.val
    let h : Handle := 5
    let d : DirEnt := T.dir .heard
    (Runs s) ∧ (asked 5) ∧ (lookup s c.key = some h) ∧ (dirGet s h = some d)) ∧
    (let s : State := T.ask 6 0 5 0 (T.tab (fun t => { t with locks := [⟨5, 7, 1000⟩] }) (T.node (T.dir .heard)))
    let f : Fn := 7
    let asked (op : Nat) : Prop := nextTbl s = some (.regs f.val) ∧ fget s (fb f.val) Fl.TBL_CMD_OP = op ∧ fget s (fb f.val) Fl.TBL_CMD_TABLE = 0
    let c := tblRegs s f.val
    let d : DirEnt := T.dir .heard
    (Runs s) ∧ (asked 6) ∧ (c.handle ≠ noNode) ∧ (dirGet s c.handle = some d) ∧ (maySee s f.val d = true) ∧ (lockedBy s f.val c.handle = none) ∧ (nbrsOf s d.eui = []) ∧ (s.camp.camps = [])) := by decide +kernel

/-- The hypotheses of clauses 7 to 10 of `Obligations.TableChanges` can be met. -/
theorem witness_TableChanges_7 :
    (let s : State := T.ask 6 1 12287 0 (T.tab (fun t => { t with nbrs := [(nbrHandle 5 2047, T.nbr)] }) { T.node (T.dir .heard) with start := { T.base.start with straps := { T.base.start.straps with hm := 7 } } })
    let f : Fn := 7
    let askedNbr (op : Nat) : Prop := nextTbl s = some (.regs f.val) ∧ fget s (fb f.val) Fl.TBL_CMD_OP = op ∧ fget s (fb f.val) Fl.TBL_CMD_TABLE = 1
    let c := tblRegs s f.val
    let x : Nbr := T.nbr
    (Runs s) ∧ (askedNbr 6) ∧ (f.val = hmFn s) ∧ (nbrGet s (c.handle % 16384) = some x) ∧ ((s.mac.queue.any fun q => q.toEui x.eui) = false)) ∧
    (let s : State := T.ask 6 1 12287 0 (T.tab (fun t => { t with nbrs := [(nbrHandle 5 2047, T.nbr)] }) (T.node (T.dir .heard)))
    let f : Fn := 7
    let askedNbr (op : Nat) : Prop := nextTbl s = some (.regs f.val) ∧ fget s (fb f.val) Fl.TBL_CMD_OP = op ∧ fget s (fb f.val) Fl.TBL_CMD_TABLE = 1
    let c := tblRegs s f.val
    let x : Nbr := T.nbr
    (Runs s) ∧ (askedNbr 6) ∧ (f.val ≠ hmFn s) ∧ (nbrGet s (c.handle % 16384) = some x)) ∧
    (let s : State := T.base
    let f : Fn := 7
    (Runs s) ∧ (nextTbl s ≠ some (.regs f.val))) ∧
    (let s : State := T.tab (fun t => { t with locks := [⟨5, 7, 1000⟩] }) T.base
    let h : Handle := 5
    let l : TblLock := ⟨5, 7, 1000⟩
    (Runs s) ∧ (s.tables.locks.find? (fun l => l.handle = h) = some l)) := by decide +kernel

/-- The hypotheses of clause 1 of `Obligations.SendsBegin` can be met. -/
theorem witness_SendsBegin_1 :
    let s : State := T.ring (T.send 1) T.near
    let f : Fn := 7
    let r : Fin 2 := 0
    let x : DescS := T.send 1
    let near (h : Handle) (d : DirEnt) (n : Nbr) : Prop := dirGet s h = some d ∧ nbrGet s d.nbr = some n ∧ d.state = .heard ∧ d.nbrValid = true ∧ d.depth = 1 ∧ d.bad = [] ∧ (f.val = hmFn s ∨ d.tenant = f.val)
    let names (h : Handle) (d : DirEnt) : Prop := h ≠ noNode ∧ x.num 28 4 = h ∧ BitVec.ofNat 64 (x.num 20 8) = d.eui
    let h : Handle := 5
    let d : DirEnt := { T.dir .heard with nbrValid := true, nbr := nbrHandle 0 3, depth := 1 }
    let n : Nbr := { T.nbr with home := true }
    (Runs s) ∧ ((getRing s f.val r.val).descs = [x]) ∧ (x.phase = .ready) ∧ (x.ring = r.val) ∧ (x.op = opMsgSend) ∧ (sendOn s = true) ∧ (bodyStatus x.payload = none) ∧ (near h d n) ∧ (names h d) ∧ ((sendSpec f.val x).sealed = false) ∧ ((sendSpec f.val x).actAt = none) ∧ ((sendSpec f.val x).deadline = none) ∧ (s.svc.txns = []) ∧ (cellsOpen s (cellsFor (x.payload.length + 256)) = true) ∧ (fget s 0 Fl.KEY_LINK_CFG_LEVEL = 0) ∧ (x.payload.length ≤ 1224) := by decide +kernel

/-- The hypotheses of clauses 2 to 3 of `Obligations.SendsBegin` can be met. -/
theorem witness_SendsBegin_2 :
    (let s : State := T.ring (T.send 1) T.base
    let f : Fn := 7
    let r : Fin 2 := 0
    let x : DescS := T.send 1
    (Runs s) ∧ ((getRing s f.val r.val).descs = [x]) ∧ (x.phase = .ready) ∧ (x.ring = r.val) ∧ (x.op = opMsgSend) ∧ (sendOn s = false) ∧ (s.claim.st ≠ .diag)) ∧
    (let s : State := T.ring (T.send 1) (T.svc T.base)
    let f : Fn := 7
    let r : Fin 2 := 0
    let x : DescS := T.send 1
    (Runs s) ∧ ((getRing s f.val r.val).descs = [x]) ∧ (x.phase = .ready) ∧ (x.ring = r.val) ∧ (x.op = opMsgSend) ∧ (sendOn s = true) ∧ (bodyStatus x.payload = none) ∧ (s.claim.st ≠ .diag) ∧ (resolve (x.num 28 4) (BitVec.ofNat 64 (x.num 20 8)) s = none)) := by decide +kernel

/-- The hypotheses of clause 4 of `Obligations.SendsBegin` can be met. -/
theorem witness_SendsBegin_4 :
    let s : State := T.ring (T.send 3) T.near
    let f : Fn := 7
    let r : Fin 2 := 0
    let x : DescS := T.send 3
    let near (h : Handle) (d : DirEnt) (n : Nbr) : Prop := dirGet s h = some d ∧ nbrGet s d.nbr = some n ∧ d.state = .heard ∧ d.nbrValid = true ∧ d.depth = 1 ∧ d.bad = [] ∧ (f.val = hmFn s ∨ d.tenant = f.val)
    let names (h : Handle) (d : DirEnt) : Prop := h ≠ noNode ∧ x.num 28 4 = h ∧ BitVec.ofNat 64 (x.num 20 8) = d.eui
    let h : Handle := 5
    let d : DirEnt := { T.dir .heard with nbrValid := true, nbr := nbrHandle 0 3, depth := 1 }
    let n : Nbr := { T.nbr with home := true }
    (Runs s) ∧ ((getRing s f.val r.val).descs = [x]) ∧ (x.phase = .ready) ∧ (x.ring = r.val) ∧ (x.op = opDgram) ∧ (sendOn s = true) ∧ (x.num 32 2 ≠ portLocal s) ∧ (near h d n) ∧ (names h d) ∧ ((x.slotName 38).name = none) ∧ (fget s 0 Fl.KEY_LINK_CFG_LEVEL = 0) ∧ (x.payload.length ≤ 1232) := by decide +kernel

/-- The hypotheses of clauses 5 to 6 of `Obligations.SendsBegin` can be met. -/
theorem witness_SendsBegin_5 :
    (let s : State := T.ring (T.send 3) T.base
    let f : Fn := 7
    let r : Fin 2 := 0
    let x : DescS := T.send 3
    (Runs s) ∧ ((getRing s f.val r.val).descs = [x]) ∧ (x.phase = .ready) ∧ (x.ring = r.val) ∧ (x.op = opDgram) ∧ (sendOn s = false) ∧ (s.claim.st ≠ .diag)) ∧
    (let s : State := T.ring (T.desc 0 [(0, 4), (24, 2)] [1, 2, 3]) (T.svc T.base)
    let f : Fn := 7
    let r : Fin 2 := 0
    let x : DescS := T.desc 0 [(0, 4), (24, 2)] [1, 2, 3]
    let at0 : SlotName := ((T.desc 0 [(0, 4), (24, 2)] []).slotName 24).name.getD ⟨0, Rsn.ofX 0⟩
    (Runs s) ∧ ((getRing s f.val r.val).descs = [x]) ∧ (x.phase = .ready) ∧ (x.ring = r.val) ∧ (x.op = opRaw) ∧ (sendOn s = true) ∧ ((x.slotName 24).name = some at0) ∧ (2 ≤ slotDist s.time.name at0)) := by decide +kernel

/-- The hypotheses of clause 7 of `Obligations.SendsBegin` can be met. -/
theorem witness_SendsBegin_7 :
    let s : State := T.ring (T.desc 0 [(0, 4), (24, 1), (25, 1), (26, 1), (27, 1)] []) (T.svc T.base)
    let f : Fn := 7
    let r : Fin 2 := 0
    let x : DescS := T.desc 0 [(0, 4), (24, 1), (25, 1), (26, 1), (27, 1)] []
    let at0 : SlotName := ((T.desc 0 [(0, 4), (24, 1), (25, 1), (26, 1), (27, 1)] []).slotName 24).name.getD ⟨0, Rsn.ofX 0⟩
    (Runs s) ∧ ((getRing s f.val r.val).descs = [x]) ∧ (x.phase = .ready) ∧ (x.ring = r.val) ∧ (x.op = opRaw) ∧ (sendOn s = true) ∧ ((x.slotName 24).name = some at0) ∧ (slotDist s.time.name at0 < 2) ∧ (s.claim.st ≠ .diag) := by decide +kernel

/-- The hypotheses of clause 1 of `Obligations.GroupMessages` can be met. -/
theorem witness_GroupMessages_1 :
    let s : State := T.ring (T.desc 0 [(0, 2), (20, 6), (22, 1), (23, 2)] []) (modSvc (fun v => { v with owners := [(6, 7)] }) (T.svc T.base))
    let only (f : Fn) (r : Fin 2) (x : DescS) : Prop := (getRing s f.val r.val).descs = [x] ∧ x.phase = .ready ∧ x.ring = r.val ∧ x.op = opMsgGroup ∧ sendOn s = true ∧ bodyStatus x.payload = none
    let f : Fn := 7
    let r : Fin 2 := 0
    let x : DescS := T.desc 0 [(0, 2), (20, 6), (22, 1), (23, 2)] []
    (Runs s) ∧ (only f r x) ∧ (x.byte 22 = 1) ∧ ((groupSpec f.val x).sealed = false) ∧ (f.val = groupOwner s (x.num 20 2)) ∧ (x.num 20 2 ≠ 4095) ∧ ((groupSpec f.val x).actAt = none) ∧ ((groupSpec f.val x).deadline = none) ∧ (x.payload.length ≤ 1216) ∧ (s.svc.mpls = []) := by decide +kernel

/-- The hypotheses of clauses 2 to 3 of `Obligations.GroupMessages` can be met. -/
theorem witness_GroupMessages_2 :
    (let s : State := T.ring (T.desc 0 [(0, 2), (20, 6), (22, 2), (23, 2)] []) (T.svc T.base)
    let only (f : Fn) (r : Fin 2) (x : DescS) : Prop := (getRing s f.val r.val).descs = [x] ∧ x.phase = .ready ∧ x.ring = r.val ∧ x.op = opMsgGroup ∧ sendOn s = true ∧ bodyStatus x.payload = none
    let f : Fn := 7
    let r : Fin 2 := 0
    let x : DescS := T.desc 0 [(0, 2), (20, 6), (22, 2), (23, 2)] []
    (Runs s) ∧ (only f r x) ∧ (x.byte 22 = 2) ∧ (x.num 20 2 ≠ 4095) ∧ (s.tables.dir = []) ∧ (s.svc.groups = []) ∧ (s.claim.st ≠ .diag)) ∧
    (let s : State := T.ring (T.desc 0 [(0, 2), (20, 6), (22, 1), (23, 2)] []) (T.svc T.base)
    let only (f : Fn) (r : Fin 2) (x : DescS) : Prop := (getRing s f.val r.val).descs = [x] ∧ x.phase = .ready ∧ x.ring = r.val ∧ x.op = opMsgGroup ∧ sendOn s = true ∧ bodyStatus x.payload = none
    let f : Fn := 7
    let r : Fin 2 := 0
    let x : DescS := T.desc 0 [(0, 2), (20, 6), (22, 1), (23, 2)] []
    (Runs s) ∧ (only f r x) ∧ (x.byte 22 = 1) ∧ (f.val ≠ groupOwner s (x.num 20 2)) ∧ (s.claim.st ≠ .diag)) := by decide +kernel

/-- The hypotheses of clauses 4 to 5 of `Obligations.GroupMessages` can be met. -/
theorem witness_GroupMessages_4 :
    (let s : State := fset 0 Fl.SVC_MPL_CFG_K 3 (modSvc (fun v => { v with mpls := [T.mpl] }) (T.svc T.base))
    let id : Nat := 4
    let m : Nat := 500
    let j : MplJob := T.mpl
    (Runs s) ∧ (s.svc.mpls = [j]) ∧ (j.id = id) ∧ (j.fireMono = some m) ∧ (j.actAt = none) ∧ (fget s 0 Fl.SVC_MPL_CFG_K ≠ 0) ∧ (fget s 0 Fl.SVC_MPL_CFG_K ≤ j.heard) ∧ (j.stopped = false)) ∧
    (let s : State := fset 0 Fl.SVC_MPL_CFG_K 0 (fset 0 Fl.SVC_MPL_CFG_EXPIRATIONS 3 (wr (berthBase 0 + Reg.BERTH_TX_CTRL) 1 (modSvc (fun v => { v with mpls := [T.mpl] }) (T.svc T.base))))
    let id : Nat := 4
    let m : Nat := 500
    let j : MplJob := T.mpl
    (Runs s) ∧ (s.svc.mpls = [j]) ∧ (j.id = id) ∧ (j.fireMono = some m) ∧ (j.actAt = none) ∧ (fget s 0 Fl.SVC_MPL_CFG_K = 0) ∧ (j.fired + 1 < fget s 0 Fl.SVC_MPL_CFG_EXPIRATIONS)) := by decide +kernel

/-- The hypotheses of clauses 6 to 9 of `Obligations.GroupMessages` can be met. -/
theorem witness_GroupMessages_6 :
    (let s : State := fset 0 Fl.SVC_MPL_CFG_K 0 (fset 0 Fl.SVC_MPL_CFG_EXPIRATIONS 2 (wr (berthBase 0 + Reg.BERTH_TX_CTRL) 1 (modSvc (fun v => { v with mpls := [T.mpl] }) (T.svc T.base))))
    let id : Nat := 4
    let m : Nat := 500
    let j : MplJob := T.mpl
    (Runs s) ∧ (s.svc.mpls = [j]) ∧ (j.id = id) ∧ (j.fireMono = some m) ∧ (j.actAt = none) ∧ (fget s 0 Fl.SVC_MPL_CFG_K = 0) ∧ (fget s 0 Fl.SVC_MPL_CFG_EXPIRATIONS ≤ j.fired + 1) ∧ (txBerths s ≠ [])) ∧
    (let s : State := fset 0 Fl.SVC_MPL_CFG_K 0 (fset 0 Fl.SVC_MPL_CFG_EXPIRATIONS 2 (modSvc (fun v => { v with mpls := [T.mpl] }) (T.svc T.base)))
    let id : Nat := 4
    let m : Nat := 500
    let j : MplJob := T.mpl
    (Runs s) ∧ (s.svc.mpls = [j]) ∧ (j.id = id) ∧ (j.fireMono = some m) ∧ (j.actAt = none) ∧ (fget s 0 Fl.SVC_MPL_CFG_K = 0) ∧ (fget s 0 Fl.SVC_MPL_CFG_EXPIRATIONS ≤ j.fired + 1) ∧ (txBerths s = []) ∧ (j.parts = [])) ∧
    (let s : State := T.svc T.base
    (Runs s)) ∧
    (let s : State := T.svc T.base
    (Runs s)) := by decide +kernel

/-- The hypotheses of clauses 1 to 2 of `Obligations.MessageTimers` can be met. -/
theorem witness_MessageTimers_1 :
    (let s : State := modSvc (fun v => { v with txns := [{ T.txn .waitAck with retxLeft := 0 }] }) T.near
    let only (tok : Word) (x : Txn) : Prop := s.svc.txns = [x] ∧ x.token = tok ∧ x.group = none
    let tok : Word := 7
    let x : Txn := { T.txn .waitAck with retxLeft := 0 }
    let m : Nat := 500
    (Runs s) ∧ (only tok x) ∧ (x.phase = .waitAck) ∧ (x.ackMono = some m) ∧ (x.actAt = none) ∧ (x.retxLeft = 0)) ∧
    (let s : State := modSvc (fun v => { v with txns := [{ T.txn .waitAck with retxLeft := 0, actAt := some ⟨0, Rsn.ofX 9⟩ }] }) T.near
    let only (tok : Word) (x : Txn) : Prop := s.svc.txns = [x] ∧ x.token = tok ∧ x.group = none
    let tok : Word := 7
    let x : Txn := { T.txn .waitAck with retxLeft := 0, actAt := some ⟨0, Rsn.ofX 9⟩ }
    let m : Nat := 500
    (Runs s) ∧ (only tok x) ∧ (x.phase = .waitAck) ∧ (x.ackMono = some m) ∧ (x.actAt ≠ none) ∧ (x.retxLeft = 0)) := by decide +kernel

/-- The hypotheses of clause 3 of `Obligations.MessageTimers` can be met. -/
theorem witness_MessageTimers_3 :
    let s : State := modSvc (fun v => { v with txns := [T.txn .waitAck] }) T.near
    let only (tok : Word) (x : Txn) : Prop := s.svc.txns = [x] ∧ x.token = tok ∧ x.group = none
    let tok : Word := 7
    let x : Txn := T.txn .waitAck
    let m : Nat := 500
    let h : Handle := 5
    let d : DirEnt := { T.dir .heard with nbrValid := true, nbr := nbrHandle 0 3, depth := 1 }
    let n : Nbr := { T.nbr with home := true }
    (Runs s) ∧ (only tok x) ∧ (x.phase = .waitAck) ∧ (x.ackMono = some m) ∧ (x.actAt = none) ∧ (0 < x.retxLeft) ∧ (x.handle = some h) ∧ (dirGet s h = some d) ∧ (nbrGet s d.nbr = some n) ∧ (d.state = .heard) ∧ (d.nbrValid = true) ∧ (d.depth = 1) ∧ (d.eui = x.target) ∧ (d.bad = []) ∧ (x.sealed = false) ∧ (fget s 0 Fl.KEY_LINK_CFG_LEVEL = 0) ∧ (x.body.length ≤ 1224) := by decide +kernel

/-- The hypotheses of clauses 4 to 6 of `Obligations.MessageTimers` can be met. -/
theorem witness_MessageTimers_4 :
    (let s : State := modSvc (fun v => { v with txns := [T.txn .waitResp] }) T.near
    let only (tok : Word) (x : Txn) : Prop := s.svc.txns = [x] ∧ x.token = tok ∧ x.group = none
    let tok : Word := 7
    let x : Txn := T.txn .waitResp
    let m : Nat := 500
    (Runs s) ∧ (only tok x) ∧ (x.phase = .waitResp) ∧ (x.respMono = some m)) ∧
    (let s : State := modSvc (fun v => { v with txns := [{ T.txn .sending with deadline := some ⟨0, Rsn.ofX 0⟩, sent := false, made := 0 }] }) T.near
    let only (tok : Word) (x : Txn) : Prop := s.svc.txns = [x] ∧ x.token = tok ∧ x.group = none
    let tok : Word := 7
    let x : Txn := { T.txn .sending with deadline := some ⟨0, Rsn.ofX 0⟩, sent := false, made := 0 }
    let d : SlotName := ⟨0, Rsn.ofX 0⟩
    (Runs s) ∧ (only tok x) ∧ (x.deadline = some d) ∧ (slotReached s d = true) ∧ (x.sent = false) ∧ (x.made = 0) ∧ (anyTried s (.txn tok.toNat) = false)) ∧
    (let s : State := modSvc (fun v => { v with txns := [{ T.txn .sending with deadline := some ⟨0, Rsn.ofX 0⟩ }] }) T.near
    let only (tok : Word) (x : Txn) : Prop := s.svc.txns = [x] ∧ x.token = tok ∧ x.group = none
    let tok : Word := 7
    let x : Txn := { T.txn .sending with deadline := some ⟨0, Rsn.ofX 0⟩ }
    let d : SlotName := ⟨0, Rsn.ofX 0⟩
    (Runs s) ∧ (only tok x) ∧ (x.deadline = some d) ∧ (slotReached s d = true) ∧ (x.sent = true)) := by decide +kernel

/-- The hypotheses of clauses 7 to 10 of `Obligations.MessageTimers` can be met. -/
theorem witness_MessageTimers_7 :
    (let s : State := modSvc (fun v => { v with txns := [{ T.txn .sending with actAt := some ⟨0, Rsn.ofX 1⟩, sent := false, made := 0 }] }) T.near
    let only (tok : Word) (x : Txn) : Prop := s.svc.txns = [x] ∧ x.token = tok ∧ x.group = none
    let tok : Word := 7
    let x : Txn := { T.txn .sending with actAt := some ⟨0, Rsn.ofX 1⟩, sent := false, made := 0 }
    (Runs s) ∧ (only tok x) ∧ (guardReached s x.actAt = true) ∧ (x.phase = .sending) ∧ (x.begun = false) ∧ (anyTried s (.txn tok.toNat) = false)) ∧
    (let s : State := modSvc (fun v => { v with dgrams := [⟨2, 7, 0, 3, 9, none, some ⟨0, Rsn.ofX 0⟩, 1, 0, false⟩] }) T.near
    let id : Nat := 2
    let j : DgramJob := ⟨2, 7, 0, 3, 9, none, some ⟨0, Rsn.ofX 0⟩, 1, 0, false⟩
    let d : SlotName := ⟨0, Rsn.ofX 0⟩
    (Runs s) ∧ (s.svc.dgrams = [j]) ∧ (j.id = id) ∧ (j.deadline = some d) ∧ (slotReached s d = true)) ∧
    (let s : State := modSvc (fun v => { v with mpls := [{ T.mpl with deadline := some ⟨0, Rsn.ofX 0⟩ }] }) T.near
    let id : Nat := 4
    let j : MplJob := { T.mpl with deadline := some ⟨0, Rsn.ofX 0⟩ }
    let d : SlotName := ⟨0, Rsn.ofX 0⟩
    (Runs s) ∧ (s.svc.mpls = [j]) ∧ (j.id = id) ∧ (j.deadline = some d) ∧ (slotReached s d = true)) ∧
    (let s : State := modSvc (fun v => { v with mpls := [{ T.mpl with actAt := some ⟨0, Rsn.ofX 1⟩ }] }) T.near
    let id : Nat := 4
    let j : MplJob := { T.mpl with actAt := some ⟨0, Rsn.ofX 1⟩ }
    (Runs s) ∧ (s.svc.mpls = [j]) ∧ (j.id = id) ∧ (guardReached s j.actAt = true)) := by decide +kernel

/-- The hypotheses of clauses 1 to 2 of `Obligations.UpwardItems` can be met. -/
theorem witness_UpwardItems_1 :
    (let s : State := T.upq (T.up (.fragment 4 100 0 40 6 (T.packet (.echoReply [])))) T.base
    let u : UpPkt := T.up (.fragment 4 100 0 40 6 (T.packet (.echoReply [])))
    let tag : Nat := 4
    let size : Nat := 100
    let off : Nat := 0
    let len : Nat := 40
    let digest : Nat := 6
    let p : Packet := T.packet (.echoReply [])
    (Runs s) ∧ (s.svc.upq = [u]) ∧ (u.upper = .fragment tag size off len digest p) ∧ (s.svc.reasm = []) ∧ (size ≤ 1280) ∧ (off + len ≤ size) ∧ (len < size)) ∧
    (let s : State := modSvc (fun v => { v with reasm := [⟨9, 4, 100, [⟨0, 40, 6⟩], 0, true, false⟩] }) (T.upq (T.up (.fragment 4 100 40 60 8 (T.packet (.echoReply [])))) T.base)
    let u : UpPkt := T.up (.fragment 4 100 40 60 8 (T.packet (.echoReply [])))
    let tag : Nat := 4
    let size : Nat := 100
    let off : Nat := 40
    let len : Nat := 60
    let digest : Nat := 8
    let p : Packet := T.packet (.echoReply [])
    let r : Reasm := ⟨9, 4, 100, [⟨0, 40, 6⟩], 0, true, false⟩
    let g : Frag := ⟨0, 40, 6⟩
    (Runs s) ∧ (s.svc.upq = [u]) ∧ (u.upper = .fragment tag size off len digest p) ∧ (s.svc.reasm = [r]) ∧ (r.src = u.link) ∧ (r.tag = tag) ∧ (r.size = size) ∧ (r.frags = [g]) ∧ (g.offset = 0) ∧ (g.len = off) ∧ (off + len = size) ∧ (size ≤ 1280) ∧ (0 < len) ∧ (0 < off)) := by decide +kernel

/-- The hypotheses of clauses 3 to 4 of `Obligations.UpwardItems` can be met. -/
theorem witness_UpwardItems_3 :
    (let s : State := modSvc (fun v => { v with reasm := [⟨9, 4, 100, [⟨0, 40, 6⟩], 0, true, false⟩] }) (T.upq (T.up (.fragment 4 100 39 60 8 (T.packet (.echoReply [])))) T.base)
    let u : UpPkt := T.up (.fragment 4 100 39 60 8 (T.packet (.echoReply [])))
    let tag : Nat := 4
    let size : Nat := 100
    let off : Nat := 39
    let len : Nat := 60
    let digest : Nat := 8
    let p : Packet := T.packet (.echoReply [])
    let r : Reasm := ⟨9, 4, 100, [⟨0, 40, 6⟩], 0, true, false⟩
    let g : Frag := ⟨0, 40, 6⟩
    (Runs s) ∧ (s.svc.upq = [u]) ∧ (u.upper = .fragment tag size off len digest p) ∧ (s.svc.reasm = [r]) ∧ (r.src = u.link) ∧ (r.tag = tag) ∧ (r.size = size) ∧ (r.frags = [g]) ∧ (g ≠ ⟨off, len, digest⟩) ∧ (off < g.offset + g.len) ∧ (g.offset < off + len)) ∧
    (let s : State := modSvc (fun v => { v with reasm := [⟨9, 4, 100, [⟨0, 40, 6⟩], 0, true, false⟩] }) T.base
    let i : Nat := 0
    let r : Reasm := ⟨9, 4, 100, [⟨0, 40, 6⟩], 0, true, false⟩
    (Runs s) ∧ (s.svc.reasm[i]? = some r)) := by decide +kernel

/-- The hypotheses of clause 5 of `Obligations.UpwardItems` can be met. -/
theorem witness_UpwardItems_5 :
    let s : State := T.upq (T.up (.packet (T.packet (T.coap T.non)))) T.near
    let whole (p : Packet) : Prop := isMpl p = false ∧ p.accepted = true ∧ p.rplOpt = none
    let knows (p : Packet) (h : Handle) (d : DirEnt) : Prop := lookup s p.src.node = some h ∧ dirGet s h = some d ∧ d.bad = []
    let u : UpPkt := T.up (.packet (T.packet (T.coap T.non)))
    let p : Packet := T.packet (T.coap T.non)
    let m : Coap := T.non
    let h : Handle := 5
    let d : DirEnt := { T.dir .heard with nbrValid := true, nbr := nbrHandle 0 3, depth := 1 }
    (Runs s) ∧ (s.svc.upq = [u]) ∧ (u.upper = .packet p) ∧ (whole p) ∧ (coapOf s p.body = some m) ∧ (u.poisoned = false) ∧ (svcOn s = true) ∧ (m.typ = .non) ∧ (m.wellFormed = true) ∧ (m.code = 2) ∧ (m.envelope = none) ∧ (m.report = none) ∧ (fbit s 0 Fl.SVC_CTRL_UP_REQUIRE_SEAL = false) ∧ (knows p h d) ∧ (d.state ≠ .suspect) ∧ (d.mid0 ≠ m.mid) ∧ (d.mid1 ≠ m.mid) ∧ (d.tenant < s.fns.length) ∧ (hasPlace s d.tenant = true) := by decide +kernel

/-- The hypotheses of clauses 6 to 7 of `Obligations.UpwardItems` can be met. -/
theorem witness_UpwardItems_6 :
    (let s : State := T.tab (fun t => t) (T.upq (T.up (.packet (T.packet (T.coap T.non)))) (T.svc (T.node (T.dir .suspect))))
    let whole (p : Packet) : Prop := isMpl p = false ∧ p.accepted = true ∧ p.rplOpt = none
    let knows (p : Packet) (h : Handle) (d : DirEnt) : Prop := lookup s p.src.node = some h ∧ dirGet s h = some d ∧ d.bad = []
    let u : UpPkt := T.up (.packet (T.packet (T.coap T.non)))
    let p : Packet := T.packet (T.coap T.non)
    let m : Coap := T.non
    let h : Handle := 5
    let d : DirEnt := T.dir .suspect
    (Runs s) ∧ (s.svc.upq = [u]) ∧ (u.upper = .packet p) ∧ (whole p) ∧ (coapOf s p.body = some m) ∧ (knows p h d) ∧ (d.state = .suspect)) ∧
    (let s : State := T.upq (T.up (.packet (T.packet (T.coap T.non)))) T.base
    let whole (p : Packet) : Prop := isMpl p = false ∧ p.accepted = true ∧ p.rplOpt = none
    let u : UpPkt := T.up (.packet (T.packet (T.coap T.non)))
    let p : Packet := T.packet (T.coap T.non)
    let m : Coap := T.non
    (Runs s) ∧ (s.svc.upq = [u]) ∧ (u.upper = .packet p) ∧ (whole p) ∧ (coapOf s p.body = some m) ∧ ((sourceRead p.src.node .clean s).1 = true) ∧ (svcOn s = false)) := by decide +kernel

/-- The hypotheses of clauses 8 to 10 of `Obligations.UpwardItems` can be met. -/
theorem witness_UpwardItems_8 :
    (let s : State := T.upq (T.up (.packet (T.packet (.udp 100 200 [1])))) T.near
    let whole (p : Packet) : Prop := isMpl p = false ∧ p.accepted = true ∧ p.rplOpt = none
    let knows (p : Packet) (h : Handle) (d : DirEnt) : Prop := lookup s p.src.node = some h ∧ dirGet s h = some d ∧ d.bad = []
    let u : UpPkt := T.up (.packet (T.packet (.udp 100 200 [1])))
    let p : Packet := T.packet (.udp 100 200 [1])
    let sp : Nat := 100
    let dp : Nat := 200
    let bs : List Byte := [1]
    let h : Handle := 5
    let d : DirEnt := { T.dir .heard with nbrValid := true, nbr := nbrHandle 0 3, depth := 1 }
    (Runs s) ∧ (s.svc.upq = [u]) ∧ (u.upper = .packet p) ∧ (p.body = .udp sp dp bs) ∧ (dp ≠ portLocal s) ∧ (whole p) ∧ (u.poisoned = false) ∧ (svcOn s = true) ∧ (knows p h d) ∧ (d.state ≠ .suspect) ∧ (d.tenant < s.fns.length) ∧ (hasPlace s d.tenant = true)) ∧
    (let s : State := T.upq (T.up (.octets [1])) T.base
    let u : UpPkt := T.up (.octets [1])
    let bs : List Byte := [1]
    (Runs s) ∧ (s.svc.upq = [u]) ∧ (u.upper = .octets bs)) ∧
    (let s : State := modFn 7 (fun x => { x with ups := List.replicate 1024 T.item }) (modSvc (fun v => { v with waits := [⟨7, T.item, T.non, 9, 100, 500⟩] }) T.base)
    let w : UpWait := ⟨7, T.item, T.non, 9, 100, 500⟩
    (Runs s) ∧ (s.svc.waits = [w]) ∧ (hasPlace s w.fn = false)) := by decide +kernel

/-- The hypotheses of clauses 11 to 12 of `Obligations.UpwardItems` can be met. -/
theorem witness_UpwardItems_11 :
    (let s : State := modFn 7 (fun x => { x with ups := [T.item], posts := [⟨1, 4096, 0, false⟩] }) T.base
    let f : Fn := 7
    let i : UpItem := T.item
    let p : RxPost := ⟨1, 4096, 0, false⟩
    let k : Nat := 0
    (Runs s) ∧ ((getFn s f.val).ups = [i]) ∧ ((getFn s f.val).posts = [p]) ∧ (dmaOn s f.val = true) ∧ (i.abandoned = false) ∧ (writer s f.val JobWhat.delivers = some k) ∧ ((s.stevs.getD k none).all (fun j => j = writeJob f.val (.deliver none) p.addr i.octets.length) = true) ∧ (s.svc.waits = [])) ∧
    (let s : State := { T.base with stevs := List.replicate 8 (some (T.job (.gather 1 3) 64 false)) }
    let f : Fn := 7
    (Runs s) ∧ (writer s f.val JobWhat.delivers = none)) := by decide +kernel

/-- The hypotheses of clauses 1 to 4 of `Obligations.DoorbellsAndNops` can be met. -/
theorem witness_DoorbellsAndNops_1 :
    (let s : State := T.on 0 T.granted
    let f : Fn := 7
    let mayRead : Prop := serving s = true ∧ (getFn s f.val).quiesced = false ∧ bitAt 0 (rd s (fb f.val + Reg.RING_DB_LO)) = true ∧ ((faultAt s f.val fun w => w = .doorbell).any fun i => (getFault s f.val i).any FaultRec.auto) = false
    (Works s) ∧ (Accepts s f.val Reg.RING_NUDGE 0 = true) ∧ (mayRead)) ∧
    (let s : State := wr (fb 7 + Reg.RING_POLL) 5 (T.on 0 T.base)
    let f : Fn := 7
    let mayRead : Prop := serving s = true ∧ (getFn s f.val).quiesced = false ∧ bitAt 0 (rd s (fb f.val + Reg.RING_DB_LO)) = true ∧ ((faultAt s f.val fun w => w = .doorbell).any fun i => (getFault s f.val i).any FaultRec.auto) = false
    (Works s) ∧ (bitsOf 9 0 (rd s (fb f.val + Reg.RING_POLL)) ≠ 0) ∧ (mayRead)) ∧
    (let s : State := T.fn (fun x => { x with doorbell := some (List.replicate 64 3) }) (T.on 0 T.base)
    let f : Fn := 7
    let bs : List Byte := List.replicate 64 3
    let r : Fin 8 := 7
    (Works s) ∧ (s.start.phase ≠ .halted) ∧ ((getFn s f.val).doorbell = some bs) ∧ (r.val < (getFn s f.val).rings.length)) ∧
    (let s : State := T.ring (T.desc 2 [(0, 0x7F)] []) T.base
    let f : Fn := 7
    let r : Fin 3 := 2
    let x : DescS := T.desc 2 [(0, 0x7F)] []
    (Works s) ∧ (s.start.phase ≠ .halted) ∧ (s.claim.st ≠ .diag) ∧ ((getRing s f.val r.val).descs = [x]) ∧ (x.phase = .ready) ∧ (x.op = opNop)) := by decide +kernel

/-- The hypotheses of clause 5 of `Obligations.DoorbellsAndNops` can be met. -/
theorem witness_DoorbellsAndNops_5 :
    let s : State := T.ring (T.desc 3 [(0, 0x7F), (4, 6), (9, 1)] []) T.base
    let f : Fn := 7
    let x : DescS := T.desc 3 [(0, 0x7F), (4, 6), (9, 1)] []
    (Works s) ∧ (s.start.phase ≠ .halted) ∧ ((getRing s f.val 3).descs = [x]) ∧ (x.phase = .ready) ∧ (x.op = opNop) := by decide +kernel

/-- The hypotheses of clauses 1 to 2 of `Obligations.EntriesAndMessages` can be met. -/
theorem witness_EntriesAndMessages_1 :
    (let s : State := T.on 4 (T.fn (fun x => { x with loss := none, out := [(4, T.entry)] }) T.base)
    let f : Fn := 7
    let fresh : Prop := s.start.phase ≠ .halted ∧ (getFn s f.val).held = [] ∧ (List.range 8).findSome? (fun k => (s.stevs.getD k none).bind fun j => doReturnEntryWrite.retried f.val k j) = none
    let c : Nat := 4
    let k : Nat := 0
    let e : Entry := T.entry
    let rest : List (Nat × Entry) := []
    (Works s) ∧ (fresh) ∧ ((getFn s f.val).out = (c, e) :: rest) ∧ ((getFn s f.val).loss = none) ∧ (c ≠ 7) ∧ (c < (getFn s f.val).rings.length) ∧ (canTake s f.val c = true) ∧ (writer s f.val doReturnEntryWrite.isReturn = some k)) ∧
    (let s : State := T.fn (fun x => { x with loss := none, out := [(4, T.entry)] }) T.base
    let f : Fn := 7
    let fresh : Prop := s.start.phase ≠ .halted ∧ (getFn s f.val).held = [] ∧ (List.range 8).findSome? (fun k => (s.stevs.getD k none).bind fun j => doReturnEntryWrite.retried f.val k j) = none
    let c : Nat := 4
    let e : Entry := T.entry
    let rest : List (Nat × Entry) := []
    (Works s) ∧ (fresh) ∧ ((getFn s f.val).out = (c, e) :: rest) ∧ ((getFn s f.val).loss = none) ∧ (ringOpen s f.val c = false)) := by decide +kernel

/-- The hypotheses of clauses 3 to 4 of `Obligations.EntriesAndMessages` can be met. -/
theorem witness_EntriesAndMessages_3 :
    (let s : State := T.fn (fun x => { x with busMaster := false, loss := none, out := [(4, T.entry)] }) (T.on 4 T.base)
    let f : Fn := 7
    let fresh : Prop := s.start.phase ≠ .halted ∧ (getFn s f.val).held = [] ∧ (List.range 8).findSome? (fun k => (s.stevs.getD k none).bind fun j => doReturnEntryWrite.retried f.val k j) = none
    let c : Nat := 4
    let e : Entry := T.entry
    let rest : List (Nat × Entry) := []
    (Works s) ∧ (fresh) ∧ ((getFn s f.val).out = (c, e) :: rest) ∧ ((getFn s f.val).loss = none) ∧ (ringOpen s f.val c = true) ∧ ((dmaOn s f.val = false ∨ writer s f.val doReturnEntryWrite.isReturn = none))) ∧
    (let s : State := T.on 6 (T.fn (fun x => { x with loss := some 3, out := [(4, T.entry)] }) T.base)
    let f : Fn := 7
    let fresh : Prop := s.start.phase ≠ .halted ∧ (getFn s f.val).held = [] ∧ (List.range 8).findSome? (fun k => (s.stevs.getD k none).bind fun j => doReturnEntryWrite.retried f.val k j) = none
    let n : Nat := 3
    let k : Nat := 0
    (Works s) ∧ (fresh) ∧ ((getFn s f.val).loss = some n) ∧ (f.val < s.fns.length) ∧ (6 < (getFn s f.val).rings.length) ∧ (canTake s f.val 6 = true) ∧ (writer s f.val doReturnEntryWrite.isReturn = some k)) := by decide +kernel

/-- The hypotheses of clauses 5 to 6 of `Obligations.EntriesAndMessages` can be met. -/
theorem witness_EntriesAndMessages_5 :
    (let s : State := wr (ringKey 7 6 Reg.RING_MOD) 0x100F12 (T.fn (fun x => { x with msixEn := true, msixMask := List.replicate 16 false }) (modRing 7 6 (fun r => { r with oldest := some 5, unsignalled := 2 }) T.base))
    let f : Fn := 7
    let c : Fin 8 := 6
    let m : Nat := 5
    (Works s) ∧ (s.start.phase ≠ .halted) ∧ ((getRing s f.val c.val).oldest = some m) ∧ (4 ≤ c.val) ∧ (c.val ≠ 7) ∧ (bitAt 4 (rd s (ringKey f.val c.val Reg.RING_MOD)) = true) ∧ ((getRing s f.val c.val).unsignalled ≠ 0) ∧ ((getFn s f.val).quiesced = false) ∧ ((getFn s f.val).statusDue = false) ∧ ((getFn s f.val).masked (bitsOf 3 0 (rd s (ringKey f.val c.val Reg.RING_MOD))) = false)) ∧
    (let s : State := wr (ringKey 7 6 Reg.RING_MOD) 0x100F12 (T.fn (fun x => { x with statusDue := true }) (modRing 7 6 (fun r => { r with oldest := some 5, unsignalled := 2 }) (T.on 6 T.base)))
    let f : Fn := 7
    let c : Fin 8 := 6
    let m : Nat := 5
    (Works s) ∧ (s.start.phase ≠ .halted) ∧ ((getRing s f.val c.val).oldest = some m) ∧ (4 ≤ c.val) ∧ (c.val ≠ 7) ∧ (bitAt 4 (rd s (ringKey f.val c.val Reg.RING_MOD)) = true) ∧ ((getRing s f.val c.val).unsignalled ≠ 0) ∧ (statusReady s f.val = true)) := by decide +kernel

/-- The hypotheses of clauses 7 to 9 of `Obligations.EntriesAndMessages` can be met. -/
theorem witness_EntriesAndMessages_7 :
    (let s : State := T.c3 (T.fn (fun x => { x with evq := [T.occ] }) T.base)
    let f : Fn := 7
    let c3 := getRing s f.val 7
    let writes (k : Nat) : Prop := c3On s f.val = true ∧ (c3.tail - c3.head).toNat < ringSize s f.val 7 ∧ eventWriter s f.val = some k
    let o : EvOcc := T.occ
    let rest : List EvOcc := []
    let k : Nat := 0
    (Works s) ∧ (s.start.phase ≠ .halted) ∧ ((getFn s f.val).evq = o :: rest) ∧ (writes k) ∧ ((getFn s f.val).holdoffs.find o.code = none) ∧ (7 < (getFn s f.val).rings.length)) ∧
    (let s : State := { T.c3 (T.fn (fun x => { x with evq := [T.occ] }) T.base) with stevs := List.replicate 8 (some (T.job (.gather 1 3) 64 false)) }
    let f : Fn := 7
    let o : EvOcc := T.occ
    let rest : List EvOcc := []
    (Works s) ∧ (s.start.phase ≠ .halted) ∧ ((getFn s f.val).evq = o :: rest) ∧ (c3On s f.val = true) ∧ ((getFn s f.val).holdoffs.find o.code = none) ∧ (eventWriter s f.val = none)) ∧
    (let s : State := T.c3 (T.fn (fun x => { x with evq := [T.occ], holdoffs := [(49, ⟨500, 1, none⟩)] }) T.base)
    let f : Fn := 7
    let o : EvOcc := T.occ
    let rest : List EvOcc := []
    let h : Holdoff := ⟨500, 1, none⟩
    (Works s) ∧ (s.start.phase ≠ .halted) ∧ ((getFn s f.val).evq = o :: rest) ∧ (c3On s f.val = true) ∧ ((getFn s f.val).holdoffs.find o.code = some h)) := by decide +kernel

/-- The hypotheses of clauses 10 to 12 of `Obligations.EntriesAndMessages` can be met. -/
theorem witness_EntriesAndMessages_10 :
    (let s : State := modRing 7 7 (fun r => { r with tail := 64 }) (T.c3 (T.fn (fun x => { x with evq := [T.occ] }) T.base))
    let f : Fn := 7
    let c3 := getRing s f.val 7
    let o : EvOcc := T.occ
    let rest : List EvOcc := []
    (Works s) ∧ (s.start.phase ≠ .halted) ∧ ((getFn s f.val).evq = o :: rest) ∧ (c3On s f.val = true) ∧ (ringSize s f.val 7 ≤ (c3.tail - c3.head).toNat) ∧ ((getFn s f.val).holdoffs.find o.code = none)) ∧
    (let s : State := T.fn (fun x => { x with evq := [T.occ], msixEn := true, msixMask := List.replicate 16 false }) T.base
    let f : Fn := 7
    let o : EvOcc := T.occ
    let rest : List EvOcc := []
    (Works s) ∧ (s.start.phase ≠ .halted) ∧ ((getFn s f.val).evq = o :: rest) ∧ (c3On s f.val = false) ∧ ((getFn s f.val).quiesced = false) ∧ (o.newly = true) ∧ ((getFn s f.val).masked (evtVector s f.val o.code) = false)) ∧
    (let s : State := T.fn (fun x => { x with holdoffs := [(49, ⟨500, 0, none⟩)] }) T.base
    let f : Fn := 7
    let code : Byte := 49
    let h : Holdoff := ⟨500, 0, none⟩
    (Works s) ∧ (s.start.phase ≠ .halted) ∧ ((getFn s f.val).holdoffs.find code.toNat = some h) ∧ (h.latest = none)) := by decide +kernel

/-- The hypotheses of clauses 13 to 15 of `Obligations.EntriesAndMessages` can be met. -/
theorem witness_EntriesAndMessages_13 :
    (let s : State := T.c3 (T.fn (fun x => { x with holdoffs := [(49, ⟨500, 2, some T.occ⟩)] }) T.base)
    let f : Fn := 7
    let c3 := getRing s f.val 7
    let writes (k : Nat) : Prop := c3On s f.val = true ∧ (c3.tail - c3.head).toNat < ringSize s f.val 7 ∧ eventWriter s f.val = some k
    let code : Byte := 49
    let h : Holdoff := ⟨500, 2, some T.occ⟩
    let o : EvOcc := T.occ
    let k : Nat := 0
    (Works s) ∧ (s.start.phase ≠ .halted) ∧ ((getFn s f.val).holdoffs.find code.toNat = some h) ∧ (h.latest = some o) ∧ (writes k) ∧ (7 < (getFn s f.val).rings.length)) ∧
    (let s : State := T.fn (fun x => { x with msixEn := true, msixPend := List.replicate 16 true }) T.base
    let f : Fn := 7
    let vec : Fin 16 := 15
    (Works s) ∧ (hostReady s f.val = true) ∧ (vec.val < (getFn s f.val).msixMask.length) ∧ (f.val < s.fns.length)) ∧
    (let s : State := T.fn (fun x => { x with msixMask := List.replicate 16 false, msixPend := List.replicate 16 true }) T.base
    let f : Fn := 7
    (Works s) ∧ (hostReady s f.val = true) ∧ (f.val < s.fns.length)) := by decide +kernel

/-- The hypotheses of clauses 1 to 2 of `Obligations.JobsAndFaults` can be met. -/
theorem witness_JobsAndFaults_1 :
    (let s : State := T.run (T.job (.respond 0 3 T.entry false) 3 true) (T.ring (T.desc 0 [(0, 1)] []) T.base)
    let moves (k : Fin 8) (j : Job) : Prop := s.start.phase ≠ .halted ∧ s.stevs.getD k.val none = some j ∧ j.abort = false ∧ j.what.site < 4
    let k : Fin 8 := 2
    let j : Job := T.job (.respond 0 3 T.entry false) 3 true
    let x : DescS := T.desc 0 [(0, 1)] []
    let r : Nat := 0
    let e : Entry := T.entry
    let timed : Bool := false
    (Works s) ∧ (moves k j) ∧ (s.claim.st ≠ .diag) ∧ (j.what = .respond r x.index e timed) ∧ (j.write = true) ∧ (j.total ≤ j.moved + slingLen j) ∧ ((getRing s j.fn r).descs = [x])) ∧
    (let s : State := T.run (T.job (.gather 0 3) 3 false) (T.ring (T.desc 0 [(0, 1)] []) T.base)
    let moves (k : Fin 8) (j : Job) : Prop := s.start.phase ≠ .halted ∧ s.stevs.getD k.val none = some j ∧ j.abort = false ∧ j.what.site < 4
    let k : Fin 8 := 2
    let j : Job := T.job (.gather 0 3) 3 false
    let x : DescS := T.desc 0 [(0, 1)] []
    let r : Nat := 0
    (Works s) ∧ (moves k j) ∧ (s.hold.flushing = none) ∧ (cellFree s = true) ∧ (j.what = .gather r x.index) ∧ (j.write = false) ∧ (j.poisoned = false) ∧ (j.total ≤ j.moved + slingLen j) ∧ ((getRing s j.fn r).descs = [x])) := by decide +kernel

/-- The hypotheses of clauses 3 to 4 of `Obligations.JobsAndFaults` can be met. -/
theorem witness_JobsAndFaults_3 :
    (let s : State := T.run (T.job (.respond 0 3 T.entry false) 300 true) T.base
    let moves (k : Fin 8) (j : Job) : Prop := s.start.phase ≠ .halted ∧ s.stevs.getD k.val none = some j ∧ j.abort = false ∧ j.what.site < 4
    let k : Fin 8 := 2
    let j : Job := T.job (.respond 0 3 T.entry false) 300 true
    (Works s) ∧ (moves k j) ∧ (j.write = true) ∧ (j.moved + slingLen j < j.total) ∧ (gatherStall s j = none) ∧ (dmaOn s j.fn = true) ∧ (isVictim s k.val = false)) ∧
    (let s : State := fset (fb 0) Fl.RING_STEV_CFG_PREEMPT_EN 1 { T.base with stevs := List.replicate 8 (some (T.job (.respond 0 3 T.entry false) 300 true)), jobs := [{ T.job (.gather 0 4) 3 false with cls := 0 }] }
    let moves (k : Fin 8) (j : Job) : Prop := s.start.phase ≠ .halted ∧ s.stevs.getD k.val none = some j ∧ j.abort = false ∧ j.what.site < 4
    let k : Fin 8 := 0
    let j : Job := T.job (.respond 0 3 T.entry false) 300 true
    (Works s) ∧ (moves k j) ∧ (j.write = true) ∧ (j.moved + slingLen j < j.total) ∧ (gatherStall s j = none) ∧ (dmaOn s j.fn = true) ∧ (isVictim s k.val = true)) := by decide +kernel

/-- The hypotheses of clauses 5 to 6 of `Obligations.JobsAndFaults` can be met. -/
theorem witness_JobsAndFaults_5 :
    (let s : State := fset 0 Fl.HOLD_POOL_CFG_RESV 40960 (T.run (T.job (.gather 0 3) 3 false) T.base)
    let k : Fin 8 := 2
    let j : Job := T.job (.gather 0 3) 3 false
    let r : Nat := 0
    let i : Nat := 3
    (Works s) ∧ (s.start.phase ≠ .halted) ∧ (s.stevs.getD k.val none = some j) ∧ (j.what = .gather r i) ∧ (j.abort = false) ∧ (cellFree s = false) ∧ (s.hold.stalled.contains (33 + 4 * j.fn) = false)) ∧
    (let s : State := T.fn (fun x => { x with statusDue := true }) (T.run (writeJob 7 .status 0x2000 64) (T.on 4 T.base))
    let k : Fin 8 := 2
    let j : Job := writeJob 7 .status 0x2000 64
    (Works s) ∧ (s.start.phase ≠ .halted) ∧ (s.stevs.getD k.val none = some j) ∧ (j.what = .status)) := by decide +kernel

/-- The hypotheses of clause 7 of `Obligations.JobsAndFaults` can be met. -/
theorem witness_JobsAndFaults_7 :
    let s : State := T.run (T.job (.gather 0 3) 3 false) (T.fn (fun x => { x with ats := true }) T.base)
    let moves (k : Fin 8) (j : Job) : Prop := s.start.phase ≠ .halted ∧ s.stevs.getD k.val none = some j ∧ j.abort = false ∧ j.what.site < 4
    let parks (j : Job) (i : Nat) : Prop := j.fn < 8 ∧ j.fn < s.fns.length ∧ i < (getFn s j.fn).faults.length ∧ recordFor s j.fn j = some i ∧ flushesFetch s j = false
    let k : Fin 8 := 2
    let j : Job := T.job (.gather 0 3) 3 false
    let i : Nat := 0
    (Works s) ∧ (moves k j) ∧ (parks j i) ∧ ((getFn s j.fn).ats = true) ∧ ((priAuto s j.fn && !j.paged) = false) := by decide +kernel

/-- The hypotheses of clause 8 of `Obligations.JobsAndFaults` can be met. -/
theorem witness_JobsAndFaults_8 :
    let s : State := fset (fb 7) Fl.XLATE_CTRL_PRI_AUTO 1 (T.run { T.job (.gather 0 3) 3 false with paged := false } (T.fn (fun x => { x with ats := true, pri := true }) T.base))
    let moves (k : Fin 8) (j : Job) : Prop := s.start.phase ≠ .halted ∧ s.stevs.getD k.val none = some j ∧ j.abort = false ∧ j.what.site < 4
    let parks (j : Job) (i : Nat) : Prop := j.fn < 8 ∧ j.fn < s.fns.length ∧ i < (getFn s j.fn).faults.length ∧ recordFor s j.fn j = some i ∧ flushesFetch s j = false
    let k : Fin 8 := 2
    let j : Job := { T.job (.gather 0 3) 3 false with paged := false }
    let i : Nat := 0
    (Works s) ∧ (moves k j) ∧ (parks j i) ∧ ((getFn s j.fn).ats = true) ∧ ((priAuto s j.fn && !j.paged) = true) ∧ (pagesOut s j.fn < 64) := by decide +kernel

/-- The hypotheses of clauses 9 to 10 of `Obligations.JobsAndFaults` can be met. -/
theorem witness_JobsAndFaults_9 :
    (let s : State := T.run (T.job (.gather 0 3) 3 false) T.base
    let moves (k : Fin 8) (j : Job) : Prop := s.start.phase ≠ .halted ∧ s.stevs.getD k.val none = some j ∧ j.abort = false ∧ j.what.site < 4
    let parks (j : Job) (i : Nat) : Prop := j.fn < 8 ∧ j.fn < s.fns.length ∧ i < (getFn s j.fn).faults.length ∧ recordFor s j.fn j = some i ∧ flushesFetch s j = false
    let k : Fin 8 := 2
    let j : Job := T.job (.gather 0 3) 3 false
    let i : Nat := 0
    (Works s) ∧ (moves k j) ∧ (parks j i) ∧ (j.write = false)) ∧
    (let s : State := setFault 7 15 (some ⟨T.job (.gather 0 3) 3 false, true, 0, some 500⟩) T.base
    let paging (f : Fn) (i : Fin 16) (r : FaultRec) : Prop := s.start.phase ≠ .halted ∧ getFault s f.val i.val = some r ∧ r.auto = true ∧ r.pageUntil.isSome = true
    let f : Fn := 7
    let i : Fin 16 := 15
    let r : FaultRec := ⟨T.job (.gather 0 3) 3 false, true, 0, some 500⟩
    (Works s) ∧ (paging f i r) ∧ (r.job.open = false)) := by decide +kernel

/-- The hypotheses of clauses 11 to 14 of `Obligations.JobsAndFaults` can be met. -/
theorem witness_JobsAndFaults_11 :
    (let s : State := setFault 7 15 (some ⟨T.job (.gather 0 3) 3 false, true, 0, some 500⟩) T.base
    let paging (f : Fn) (i : Fin 16) (r : FaultRec) : Prop := s.start.phase ≠ .halted ∧ getFault s f.val i.val = some r ∧ r.auto = true ∧ r.pageUntil.isSome = true
    let f : Fn := 7
    let i : Fin 16 := 15
    let r : FaultRec := ⟨T.job (.gather 0 3) 3 false, true, 0, some 500⟩
    (Works s) ∧ (paging f i r) ∧ (flushesFetch s r.job = false)) ∧
    (let s : State := setFault 7 15 (some ⟨T.job (.gather 0 3) 3 false, true, 0, some 500⟩) T.base
    let paging (f : Fn) (i : Fin 16) (r : FaultRec) : Prop := s.start.phase ≠ .halted ∧ getFault s f.val i.val = some r ∧ r.auto = true ∧ r.pageUntil.isSome = true
    let f : Fn := 7
    let i : Fin 16 := 15
    let r : FaultRec := ⟨T.job (.gather 0 3) 3 false, true, 0, some 500⟩
    (Works s) ∧ (paging f i r) ∧ (flushesFetch s r.job = false)) ∧
    (let s : State := setFault 7 15 (some ⟨T.job (.gather 0 3) 3 false, false, 3, none⟩) T.base
    let f : Fn := 7
    let i : Fin 16 := 15
    let r : FaultRec := ⟨T.job (.gather 0 3) 3 false, false, 3, none⟩
    (Works s) ∧ (Accepts s f.val (actionOff i.val) 1 = true) ∧ (getFault s f.val i.val = some r) ∧ (r.auto = false) ∧ (r.job.open = false)) ∧
    (let s : State := T.base
    let f : Fn := 7
    let i : Fin 16 := 15
    (Works s) ∧ (Accepts s f.val (actionOff i.val) 1 = true) ∧ (getFault s f.val i.val = none)) := by decide +kernel

/-- The hypotheses of clauses 15 to 18 of `Obligations.JobsAndFaults` can be met. -/
theorem witness_JobsAndFaults_15 :
    (let s : State := setFault 7 15 (some ⟨T.job (.gather 0 3) 3 false, false, 3, none⟩) (T.ring (T.desc 0 [(0, 1)] []) T.base)
    let f : Fn := 7
    let i : Fin 16 := 15
    let r : FaultRec := ⟨T.job (.gather 0 3) 3 false, false, 3, none⟩
    let x : DescS := T.desc 0 [(0, 1)] []
    let q : Nat := 0
    (Works s) ∧ (Accepts s f.val (actionOff i.val) 2 = true) ∧ (getFault s f.val i.val = some r) ∧ (r.auto = false) ∧ (r.job.fn = f.val) ∧ (r.job.what = .gather q x.index) ∧ ((getRing s f.val q).descs = [x]) ∧ (x.ring = q) ∧ (s.claim.st ≠ .diag) ∧ (s.landed = [])) ∧
    (let s : State := T.base
    let f : Fn := 7
    let i : Fin 16 := 15
    (Works s) ∧ (Accepts s f.val (actionOff i.val) 2 = true) ∧ (getFault s f.val i.val = none) ∧ (s.landed = [])) ∧
    (let s : State := { T.base with ports := List.replicate 2 ⟨true, true, [⟨7, 3, 0⟩, ⟨6, 3, 0⟩], []⟩ }
    let f : Fn := 7
    (Works s) ∧ (Accepts s f.val Reg.XLATE_INV 1 = true)) ∧
    (let s : State := { T.fn (fun x => { x with ats := true }) T.base with ports := List.replicate 2 ⟨true, true, [⟨7, 0, 2⟩, ⟨7, 8, 0⟩], []⟩ }
    let f : Fn := 7
    (Works s) ∧ ((getFn s f.val).ats = true) ∧ ((getPort s (portOf f.val)).invals.length < 32) ∧ (portOf f.val < s.ports.length)) := by decide +kernel

/-- The hypotheses of clauses 1 to 5 of `Obligations.RingControl` can be met. -/
theorem witness_RingControl_1 :
    (let s : State := wr (ringKey 7 7 Reg.RING_CTRL) 0 (T.on 7 (T.fn (fun x => { x with quiesced := true }) T.base))
    let f : Fn := 7
    let r : Fin 8 := 7
    (Works s) ∧ (Accepts s f.val (ctrlOff r.val) 1 = true) ∧ (ringEn s f.val r.val = false) ∧ (blocksValid s f.val = true) ∧ (indexError s f.val r.val = none) ∧ (f.val < s.fns.length)) ∧
    (let s : State := T.base
    let f : Fn := 7
    let r : Fin 8 := 7
    (Works s) ∧ (Accepts s f.val (ctrlOff r.val) 1 = true) ∧ (ringEn s f.val r.val = false) ∧ (blocksValid s f.val = false)) ∧
    (let s : State := T.on 7 T.base
    let f : Fn := 7
    let r : Fin 8 := 7
    (Works s) ∧ (Accepts s f.val (ctrlOff r.val) 0 = true)) ∧
    (let s : State := T.ring ({ T.desc 2 [(0, 1)] [] with phase := .waiting }) T.base
    let f : Fn := 7
    let ctrl (r : Nat) (bit : Nat) : Word := setBitAt bit (rd s (fb f.val + ctrlOff r)) true
    let r : Fin 3 := 2
    let x : DescS := { T.desc 2 [(0, 1)] [] with phase := .waiting }
    (Works s) ∧ (Accepts s f.val (ctrlOff r.val) (ctrl r.val 1) = true) ∧ ((getRing s f.val r.val).descs = [x]) ∧ (x.phase = .waiting) ∧ (x.ring = r.val)) ∧
    (let s : State := T.fn (fun x => { x with posts := [⟨1, 4096, 0, false⟩] }) T.base
    let f : Fn := 7
    let ctrl (r : Nat) (bit : Nat) : Word := setBitAt bit (rd s (fb f.val + ctrlOff r)) true
    let p : RxPost := ⟨1, 4096, 0, false⟩
    (Works s) ∧ (Accepts s f.val (ctrlOff 3) (ctrl 3 1) = true) ∧ ((getFn s f.val).posts = [p])) := by decide +kernel

/-- The hypotheses of clauses 6 to 8 of `Obligations.RingControl` can be met. -/
theorem witness_RingControl_6 :
    (let s : State := { T.ring ({ T.desc 2 [(0, 1)] [] with phase := .gather }) T.base with jobs := [T.job (.gather 2 3) 3 false] }
    let f : Fn := 7
    let ctrl (r : Nat) (bit : Nat) : Word := setBitAt bit (rd s (fb f.val + ctrlOff r)) true
    let r : Fin 4 := 2
    let x : DescS := { T.desc 2 [(0, 1)] [] with phase := .gather }
    let j : Job := T.job (.gather 2 3) 3 false
    (Works s) ∧ (Accepts s f.val (ctrlOff r.val) (ctrl r.val 2) = true) ∧ (s.claim.st ≠ .diag) ∧ ((getRing s f.val r.val).descs = [x]) ∧ (x.phase = .gather) ∧ (x.ring = r.val) ∧ (s.jobs = [j]) ∧ (j.fn = f.val) ∧ (j.what = .gather r.val x.index)) ∧
    (let s : State := modRing 7 3 (fun r => { r with flushUntil := some 5, flushTo := some 0 }) T.base
    let f : Fn := 7
    let r : Fin 4 := 3
    let m : Nat := 5
    (Works s) ∧ (s.start.phase ≠ .halted) ∧ ((getRing s f.val r.val).flushUntil = some m)) ∧
    (let s : State := { modRing 7 7 (fun r => { r with head := 5, tail := 6 }) T.base with pend := [(ringKey 7 7 Reg.RING_SIZE, 16)] }
    let f : Fn := 7
    let r : Fin 8 := 7
    let v : Word := 16
    (Works s) ∧ (ringQuiet s f.val r.val = true) ∧ (s.pend = [(ringKey f.val r.val Reg.RING_SIZE, v)]) ∧ (v.toNat < 32) ∧ (v ≠ rd s (ringKey f.val r.val Reg.RING_SIZE)) ∧ (rd s (ringKey f.val r.val Reg.RING_SIZE) < 32) ∧ (f.val < s.fns.length) ∧ (r.val < (getFn s f.val).rings.length)) := by decide +kernel

/-- The hypotheses of clauses 9 to 11 of `Obligations.RingControl` can be met. -/
theorem witness_RingControl_9 :
    (let s : State := T.base
    let f : Fn := 0
    let g : Fn := 7
    let v : Word := 0x7FFFF
    (Works s) ∧ (Accepts s f.val (Reg.RING_GRANT + 4 * g.val) v = true) ∧ (g.val ≠ hmFn s) ∧ (bitAt 19 v = false) ∧ (bitAt 20 v = false)) ∧
    (let s : State := T.base
    let f : Fn := 0
    let g : Fn := 7
    let v : Word := 0x100000
    (Works s) ∧ (Accepts s f.val (Reg.RING_GRANT + 4 * g.val) v = true) ∧ ((bitAt 19 v = true ∨ bitAt 20 v = true))) ∧
    (let s : State := T.base
    let f : Fn := 0
    let g : Fn := 0
    let v : Word := 0x7FFFF
    (Works s) ∧ (Accepts s f.val (Reg.RING_GRANT + 4 * g.val) v = true) ∧ (g.val = hmFn s)) := by decide +kernel

/-- The hypotheses of clauses 1 to 5 of `Obligations.FunctionsAndPorts` can be met. -/
theorem witness_FunctionsAndPorts_1 :
    (let s : State := fset (fb 7) Fl.RING_FN_CTRL_LIVE_MS 10 T.base
    let f : Fn := 7
    (Works s) ∧ (fget s (fb f.val) Fl.RING_FN_CTRL_LIVE_MS ≠ 0) ∧ ((getFn s f.val).quiesced = false) ∧ (f.val < s.fns.length)) ∧
    (let s : State := T.base
    let p : Fin 2 := 1
    let q : PortS := ⟨true, true, [], []⟩
    (Works s) ∧ (s.ports[p.val]? = some q) ∧ (q.linkUp = true) ∧ (s.fns.length = 8)) ∧
    (let s : State := { T.base with ports := List.replicate 2 ⟨false, true, [], []⟩ }
    let p : Fin 2 := 1
    let q : PortS := ⟨false, true, [], []⟩
    (Works s) ∧ (s.ports[p.val]? = some q)) ∧
    (let s : State := T.base
    let f : Fn := 7
    (Works s) ∧ (hostReady s f.val = true) ∧ (f.val < s.fns.length)) ∧
    (let s : State := T.base
    let f : Fn := 7
    (Works s) ∧ (hostReady s f.val = true) ∧ (f.val < s.fns.length)) := by decide +kernel

/-- The hypotheses of clause 1 of `Obligations.CampaignControl` can be met. -/
theorem witness_CampaignControl_1 :
    let s : State := T.ring (T.ctrl 0 0) (T.camps (T.camp .running) T.base)
    let f : Fn := 7
    let x : DescS := T.ctrl 0 0
    let owned (c : Camp) (a : Nat) : Prop := x.byte 21 = a ∧ s.camp.camps = [c] ∧ c.id = x.byte 20 ∧ c.phase = .running ∧ (f.val = c.owner ∨ f.val = hmFn s)
    let c : Camp := T.camp .running
    (Runs s) ∧ ((getRing s f.val 2).descs = [x]) ∧ (x.phase = .ready) ∧ (x.op = opCampCtrl) ∧ (x.ring = 2) ∧ (s.claim.st ≠ .diag) ∧ (owned c 0) ∧ (x.bufLen = 0) := by decide +kernel

/-- The hypotheses of clause 2 of `Obligations.CampaignControl` can be met. -/
theorem witness_CampaignControl_2 :
    let s : State := T.ring (T.ctrl 0 64) (T.camps (T.camp .running) T.base)
    let f : Fn := 7
    let x : DescS := T.ctrl 0 64
    let owned (c : Camp) (a : Nat) : Prop := x.byte 21 = a ∧ s.camp.camps = [c] ∧ c.id = x.byte 20 ∧ c.phase = .running ∧ (f.val = c.owner ∨ f.val = hmFn s)
    let c : Camp := T.camp .running
    (Runs s) ∧ ((getRing s f.val 2).descs = [x]) ∧ (x.phase = .ready) ∧ (x.op = opCampCtrl) ∧ (x.ring = 2) ∧ (s.claim.st ≠ .diag) ∧ (owned c 0) ∧ (x.bufLen ≠ 0) := by decide +kernel

/-- The hypotheses of clause 3 of `Obligations.CampaignControl` can be met. -/
theorem witness_CampaignControl_3 :
    let s : State := T.ring (T.ctrl 1 0) (T.camps (T.camp .running) T.base)
    let f : Fn := 7
    let x : DescS := T.ctrl 1 0
    let owned (c : Camp) (a : Nat) : Prop := x.byte 21 = a ∧ s.camp.camps = [c] ∧ c.id = x.byte 20 ∧ c.phase = .running ∧ (f.val = c.owner ∨ f.val = hmFn s)
    let c : Camp := T.camp .running
    (Runs s) ∧ ((getRing s f.val 2).descs = [x]) ∧ (x.phase = .ready) ∧ (x.op = opCampCtrl) ∧ (x.ring = 2) ∧ (s.claim.st ≠ .diag) ∧ (owned c 1) ∧ (x.bufLen = 0) := by decide +kernel

/-- The hypotheses of clause 4 of `Obligations.CampaignControl` can be met. -/
theorem witness_CampaignControl_4 :
    let s : State := T.ring (T.ctrl 2 0) (T.camps { T.camp .running with paused := true } T.base)
    let f : Fn := 7
    let x : DescS := T.ctrl 2 0
    let owned (c : Camp) (a : Nat) : Prop := x.byte 21 = a ∧ s.camp.camps = [c] ∧ c.id = x.byte 20 ∧ c.phase = .running ∧ (f.val = c.owner ∨ f.val = hmFn s)
    let c : Camp := { T.camp .running with paused := true }
    (Runs s) ∧ ((getRing s f.val 2).descs = [x]) ∧ (x.phase = .ready) ∧ (x.op = opCampCtrl) ∧ (x.ring = 2) ∧ (s.claim.st ≠ .diag) ∧ (owned c 2) ∧ (x.bufLen = 0) := by decide +kernel

/-- The hypotheses of clause 5 of `Obligations.CampaignControl` can be met. -/
theorem witness_CampaignControl_5 :
    let s : State := T.ring (T.ctrl 3 0) (T.camps (T.camp .running) T.base)
    let f : Fn := 7
    let x : DescS := T.ctrl 3 0
    let owned (c : Camp) (a : Nat) : Prop := x.byte 21 = a ∧ s.camp.camps = [c] ∧ c.id = x.byte 20 ∧ c.phase = .running ∧ (f.val = c.owner ∨ f.val = hmFn s)
    let c : Camp := T.camp .running
    (Runs s) ∧ ((getRing s f.val 2).descs = [x]) ∧ (x.phase = .ready) ∧ (x.op = opCampCtrl) ∧ (x.ring = 2) ∧ (s.claim.st ≠ .diag) ∧ (owned c 3) ∧ (x.bufLen = 0) ∧ (c.records = []) := by decide +kernel

/-- The hypotheses of clause 6 of `Obligations.CampaignControl` can be met. -/
theorem witness_CampaignControl_6 :
    let s : State := T.ring (T.ctrl 4 0) (T.camps (T.camp .running) (T.node T.member))
    let f : Fn := 7
    let x : DescS := T.ctrl 4 0
    let owned (c : Camp) (a : Nat) : Prop := x.byte 21 = a ∧ s.camp.camps = [c] ∧ c.id = x.byte 20 ∧ c.phase = .running ∧ (f.val = c.owner ∨ f.val = hmFn s)
    let node : Nat := x.num 24 4 % 2 ^ 18
    let c : Camp := T.camp .running
    let d : DirEnt := T.member
    (Runs s) ∧ ((getRing s f.val 2).descs = [x]) ∧ (x.phase = .ready) ∧ (x.op = opCampCtrl) ∧ (x.ring = 2) ∧ (s.claim.st ≠ .diag) ∧ (owned c 4) ∧ (x.bufLen = 0) ∧ (dirGet s node = some d) ∧ (mayTake s c.owner c.id d = true) ∧ (c.id < 256) := by decide +kernel

/-- The hypotheses of clause 7 of `Obligations.CampaignControl` can be met. -/
theorem witness_CampaignControl_7 :
    let s : State := T.ring (T.ctrl 4 0) (T.camps (T.camp .running) T.base)
    let f : Fn := 7
    let x : DescS := T.ctrl 4 0
    let owned (c : Camp) (a : Nat) : Prop := x.byte 21 = a ∧ s.camp.camps = [c] ∧ c.id = x.byte 20 ∧ c.phase = .running ∧ (f.val = c.owner ∨ f.val = hmFn s)
    let node : Nat := x.num 24 4 % 2 ^ 18
    let c : Camp := T.camp .running
    (Runs s) ∧ ((getRing s f.val 2).descs = [x]) ∧ (x.phase = .ready) ∧ (x.op = opCampCtrl) ∧ (x.ring = 2) ∧ (s.claim.st ≠ .diag) ∧ (owned c 4) ∧ (dirGet s node = none) := by decide +kernel

/-- The hypotheses of clause 8 of `Obligations.CampaignControl` can be met. -/
theorem witness_CampaignControl_8 :
    let s : State := T.ring (T.ctrl 5 0) (T.camps (T.camp .running) (T.node T.member))
    let f : Fn := 7
    let x : DescS := T.ctrl 5 0
    let owned (c : Camp) (a : Nat) : Prop := x.byte 21 = a ∧ s.camp.camps = [c] ∧ c.id = x.byte 20 ∧ c.phase = .running ∧ (f.val = c.owner ∨ f.val = hmFn s)
    let node : Nat := x.num 24 4 % 2 ^ 18
    let c : Camp := T.camp .running
    let d : DirEnt := T.member
    (Runs s) ∧ ((getRing s f.val 2).descs = [x]) ∧ (x.phase = .ready) ∧ (x.op = opCampCtrl) ∧ (x.ring = 2) ∧ (s.claim.st ≠ .diag) ∧ (owned c 5) ∧ (x.bufLen = 0) ∧ (dirGet s node = some d) ∧ (mayTake s c.owner c.id d = true) := by decide +kernel

/-- The hypotheses of clause 9 of `Obligations.CampaignControl` can be met. -/
theorem witness_CampaignControl_9 :
    let s : State := T.ring (T.ctrl 6 0) (T.camps (T.camp .running) T.base)
    let f : Fn := 7
    let x : DescS := T.ctrl 6 0
    let owned (c : Camp) (a : Nat) : Prop := x.byte 21 = a ∧ s.camp.camps = [c] ∧ c.id = x.byte 20 ∧ c.phase = .running ∧ (f.val = c.owner ∨ f.val = hmFn s)
    let c : Camp := T.camp .running
    (Runs s) ∧ ((getRing s f.val 2).descs = [x]) ∧ (x.phase = .ready) ∧ (x.op = opCampCtrl) ∧ (x.ring = 2) ∧ (s.claim.st ≠ .diag) ∧ (owned c 6) ∧ (x.bufLen = 0) ∧ (c.records = []) := by decide +kernel

/-- The hypotheses of clauses 10 to 11 of `Obligations.CampaignControl` can be met. -/
theorem witness_CampaignControl_10 :
    (let s : State := T.ring (T.ctrl 1 0) (T.camps { T.camp .running with owner := 6 } T.base)
    let f : Fn := 7
    let x : DescS := T.ctrl 1 0
    let c : Camp := { T.camp .running with owner := 6 }
    (Runs s) ∧ ((getRing s f.val 2).descs = [x]) ∧ (x.phase = .ready) ∧ (x.op = opCampCtrl) ∧ (x.ring = 2) ∧ (s.claim.st ≠ .diag) ∧ (x.byte 21 = 1) ∧ (s.camp.camps = [c]) ∧ (c.id = x.byte 20) ∧ (c.phase = .running) ∧ (f.val ≠ c.owner) ∧ (f.val ≠ hmFn s)) ∧
    (let s : State := T.ring (T.ctrl 3 0) T.base
    let f : Fn := 7
    let x : DescS := T.ctrl 3 0
    (Runs s) ∧ ((getRing s f.val 2).descs = [x]) ∧ (x.phase = .ready) ∧ (x.op = opCampCtrl) ∧ (x.ring = 2) ∧ (s.claim.st ≠ .diag) ∧ (x.byte 21 = 3) ∧ (s.camp.camps = [])) := by decide +kernel

/-- The hypotheses of clause 1 of `Obligations.CampaignProgress` can be met. -/
theorem witness_CampaignProgress_1 :
    let s : State := T.ring T.start (T.open (T.keys (fun k => { k with drbgReady := true }) (wr Reg.MAC_SF_CFG 0xFF03F1 (T.node T.member))))
    let start (f : Fn) (x : DescS) : Prop := (getRing s f.val 2).descs = [x] ∧ x.phase = .ready ∧ x.op = opCampStart ∧ x.ring = 2 ∧ s.landed = [] ∧ (x.byte 21).testBit 0 = false
    let f : Fn := 7
    let x : DescS := T.start
    let h : Handle := 5
    let d : DirEnt := T.member
    (Runs s) ∧ (start f x) ∧ (gateOpen s = true) ∧ (drbgOn s = true) ∧ (startFieldsOk x = true) ∧ (s.camp.camps = []) ∧ (campCount s (x.num 24 2) ≠ 0) ∧ ((x.slotName 38).name = none) ∧ (x.num 22 2 ≠ 4095) ∧ (s.tables.dir = [(h, d)]) ∧ (d.groups.contains (x.num 22 2) = true) ∧ (d.tenant = f.val) ∧ (x.byte 20 < 256) := by decide +kernel

/-- The hypotheses of clauses 2 to 3 of `Obligations.CampaignProgress` can be met. -/
theorem witness_CampaignProgress_2 :
    (let s : State := T.ring (T.desc 2 [(0, BitVec.ofNat 8 opCampStart)] []) T.base
    let start (f : Fn) (x : DescS) : Prop := (getRing s f.val 2).descs = [x] ∧ x.phase = .ready ∧ x.op = opCampStart ∧ x.ring = 2 ∧ s.landed = [] ∧ (x.byte 21).testBit 0 = false
    let f : Fn := 7
    let x : DescS := T.desc 2 [(0, BitVec.ofNat 8 opCampStart)] []
    (Runs s) ∧ (start f x) ∧ ((gateOpen s = false ∨ startFieldsOk x = false)) ∧ (s.claim.st ≠ .diag)) ∧
    (let s : State := T.landed (T.job (.campRecord 3 5 false) 68 true) (T.camps (T.camp .starting) (T.node { T.member with campId := 3, campState := 1 }))
    let id : Nat := 3
    let c : Camp := T.camp .starting
    let j : Job := T.job (.campRecord 3 5 false) 68 true
    let q : Word := 5
    let back : Bool := false
    (Runs s) ∧ (s.camp.camps = [c]) ∧ (c.id = id) ∧ (c.phase = .starting) ∧ (s.landed = [j]) ∧ (j.what = .campRecord id q back) ∧ (j.abort = false) ∧ (j.poisoned = false) ∧ (0 < (q - c.seq).toInt) ∧ ((pendingTargets s id).isEmpty = false)) := by decide +kernel

/-- The hypotheses of clauses 4 to 5 of `Obligations.CampaignProgress` can be met. -/
theorem witness_CampaignProgress_4 :
    (let s : State := T.landed { T.job (.campRecord 3 5 false) 68 true with abort := true } (T.camps (T.camp .running) T.base)
    let id : Nat := 3
    let c : Camp := T.camp .running
    let j : Job := { T.job (.campRecord 3 5 false) 68 true with abort := true }
    let q : Word := 5
    let back : Bool := false
    (Runs s) ∧ (s.camp.camps = [c]) ∧ (c.id = id) ∧ (c.phase = .running) ∧ (s.landed = [j]) ∧ (j.what = .campRecord id q back) ∧ (j.abort = true)) ∧
    (let s : State := T.camps (T.camp .running) T.base
    let c : Camp := T.camp .running
    let b : Nat := 0
    (Runs s) ∧ (encoderFenced s = false) ∧ (s.camp.visit = none) ∧ (s.camp.camps = [c]) ∧ (c.ready = true) ∧ (c.nextBlock = some b) ∧ (s.camp.prepared = []) ∧ (s.camp.preparing = []) ∧ (cellsOpen s (cellsFor (blockK c.f c.t c.kmax b * c.t)) = true)) := by decide +kernel

/-- The hypotheses of clauses 6 to 7 of `Obligations.CampaignProgress` can be met. -/
theorem witness_CampaignProgress_6 :
    (let s : State := fset 0 Fl.CAMP_SCHED_VISIT_FRAMES 1 (modCampS (fun x => { x with prepared := [(3, 0, List.replicate 64 1)] }) (T.camps (T.camp .running) T.base))
    let c : Camp := T.camp .running
    let b : Nat := 0
    let src : List Byte := List.replicate 64 1
    (Runs s) ∧ (encoderFenced s = false) ∧ (s.camp.visit = none) ∧ (s.camp.camps = [c]) ∧ (c.ready = true) ∧ (c.nextBlock = some b) ∧ (s.camp.prepared = [(c.id, b, src)]) ∧ (fget s 0 Fl.CAMP_SCHED_VISIT_FRAMES = 1) ∧ (campCount s c.t ≠ 0) ∧ ((c.blk b).nextEsi + campCount s c.t ≤ (c.blk b).limit) ∧ ((c.blk b).limit ≤ 16777216) ∧ (((campBands s).any fun g => fget s 0 Fl.CAMP_CFG_QUEUED ≤ campQueued s g) = false)) ∧
    (let s : State := T.landed (T.job (.campGather 3 0) 64 false) (T.camps (T.camp .running) T.base)
    let id : Nat := 3
    let b : Nat := 0
    let c : Camp := T.camp .running
    let j : Job := T.job (.campGather 3 0) 64 false
    (Runs s) ∧ (s.camp.camps = [c]) ∧ (c.id = id) ∧ (c.phase = .running) ∧ (s.landed = [j]) ∧ (j.what = .campGather id b) ∧ (j.abort = false) ∧ (j.poisoned = false)) := by decide +kernel

/-- The hypotheses of clauses 8 to 10 of `Obligations.CampaignProgress` can be met. -/
theorem witness_CampaignProgress_8 :
    (let s : State := T.landed { T.job (.campGather 3 0) 64 false with poisoned := true } (T.camps (T.camp .running) T.base)
    let id : Nat := 3
    let b : Nat := 0
    let c : Camp := T.camp .running
    let j : Job := { T.job (.campGather 3 0) 64 false with poisoned := true }
    (Runs s) ∧ (s.camp.camps = [c]) ∧ (c.id = id) ∧ (c.phase = .running) ∧ (s.landed = [j]) ∧ (j.what = .campGather id b) ∧ (j.abort = false) ∧ (j.poisoned = true)) ∧
    (let s : State := T.camps (T.camp .running) T.base
    let id : Nat := 3
    let c : Camp := T.camp .running
    (Runs s) ∧ (s.camp.camps = [c]) ∧ (c.id = id) ∧ (c.phase = .running) ∧ (s.camp.visit = none)) ∧
    (let s : State := T.camps { T.camp .running with startAt := some ⟨0, Rsn.ofX 0⟩, started := false } T.base
    let id : Nat := 3
    let c : Camp := { T.camp .running with startAt := some ⟨0, Rsn.ofX 0⟩, started := false }
    let n : SlotName := ⟨0, Rsn.ofX 0⟩
    (Runs s) ∧ (s.camp.camps = [c]) ∧ (c.id = id) ∧ (c.startAt = some n) ∧ (slotReached s n = true)) := by decide +kernel

/-- The hypotheses of clauses 11 to 12 of `Obligations.CampaignProgress` can be met. -/
theorem witness_CampaignProgress_11 :
    (let s : State := T.camps { T.camp .running with endBy := some ⟨0, Rsn.ofX 0⟩ } T.base
    let id : Nat := 3
    let c : Camp := { T.camp .running with endBy := some ⟨0, Rsn.ofX 0⟩ }
    let n : SlotName := ⟨0, Rsn.ofX 0⟩
    (Runs s) ∧ (s.camp.camps = [c]) ∧ (c.id = id) ∧ (c.phase = .running) ∧ (c.endBy = some n) ∧ (slotReached s n = true)) ∧
    (let s : State := fset 0 Fl.CAMP_SCHED_CKPT_S 10 (T.camps (T.camp .running) T.base)
    let id : Nat := 3
    let c : Camp := T.camp .running
    (Runs s) ∧ (s.camp.camps = [c]) ∧ (c.id = id) ∧ (c.phase = .running) ∧ (c.records = []) ∧ (fget s 0 Fl.CAMP_SCHED_CKPT_S ≠ 0)) := by decide +kernel

/-- The hypotheses of clauses 1 to 4 of `Obligations.KeysAndRandomNumbers` can be met. -/
theorem witness_KeysAndRandomNumbers_1 :
    (let s : State := T.mould { T.cast with prior := none } (T.keys (fun k => { k with staging := List.replicate 4 (some (9, 7)) }) T.rooted)
    let f : Fn := 7
    let v : Word := 0x2F
    let i : Nat := 15
    let k : BitVec 128 := 0x9000000090000000900000009
    let m : Mould := { T.cast with prior := none }
    (Works s) ∧ (Accepts s f.val Reg.KEY_MOULD_CTRL (mouldWord 1 v) = true) ∧ (i = bitsOf 3 0 v) ∧ (s.keys.slots[i]? = some m) ∧ (stagedKey s f.val = some k) ∧ (bitsOf 5 4 v ≠ 0) ∧ (rootValid s = true) ∧ ((m.prior = none ∨ m.priorUse = bitsOf 5 4 v))) ∧
    (let s : State := T.rooted
    let f : Fn := 7
    let v : Word := 0x2F
    (Works s) ∧ (Accepts s f.val Reg.KEY_MOULD_CTRL (mouldWord 1 v) = true) ∧ ((stagedKey s f.val = none ∨ bitsOf 5 4 v = 0 ∨ rootValid s = false))) ∧
    (let s : State := T.mould T.cast T.rooted
    let f : Fn := 7
    let v : Word := 15
    let i : Nat := 15
    let m : Mould := T.cast
    (Works s) ∧ (Accepts s f.val Reg.KEY_MOULD_CTRL (mouldWord 2 v) = true) ∧ (i = bitsOf 3 0 v) ∧ (s.keys.slots[i]? = some m) ∧ (m.current ≠ none)) ∧
    (let s : State := T.rooted
    let f : Fn := 7
    let v : Word := 15
    (Works s) ∧ (Accepts s f.val Reg.KEY_MOULD_CTRL (mouldWord 2 v) = true) ∧ ((getMould s (bitsOf 3 0 v)).current = none)) := by decide +kernel

/-- The hypotheses of clauses 5 to 8 of `Obligations.KeysAndRandomNumbers` can be met. -/
theorem witness_KeysAndRandomNumbers_5 :
    (let s : State := T.mould T.cast T.rooted
    let f : Fn := 7
    let v : Word := 15
    let i : Nat := 15
    let m : Mould := T.cast
    (Works s) ∧ (Accepts s f.val Reg.KEY_MOULD_CTRL (mouldWord 3 v) = true) ∧ (i = bitsOf 3 0 v) ∧ (s.keys.slots[i]? = some m)) ∧
    (let s : State := T.mould T.cast T.rooted
    let f : Fn := 7
    let v : Word := 15
    let i : Nat := 15
    let m : Mould := T.cast
    (Works s) ∧ (Accepts s f.val Reg.KEY_MOULD_CTRL (mouldWord 4 v) = true) ∧ (i = bitsOf 3 0 v) ∧ (s.keys.slots[i]? = some m) ∧ (m.prior ≠ none)) ∧
    (let s : State := T.mould T.cast T.rooted
    let i : Fin 16 := 15
    let m : Mould := T.cast
    (Works s) ∧ (s.start.phase ≠ .halted) ∧ (s.keys.slots[i.val]? = some m) ∧ (m.prior ≠ none) ∧ (m.graceMono ≠ none)) ∧
    (let s : State := T.keys (fun k => { k with graces := [⟨9, 3, 500⟩] }) T.base
    let e : Eui := 9
    let g : GenGrace := ⟨9, 3, 500⟩
    (Works s) ∧ (s.start.phase ≠ .halted) ∧ (s.keys.graces = [g]) ∧ (g.eui = e)) := by decide +kernel

/-- The hypotheses of clauses 9 to 14 of `Obligations.KeysAndRandomNumbers` can be met. -/
theorem witness_KeysAndRandomNumbers_9 :
    (let s : State := wr (Reg.RING_GRANT + 28) 0x7FFFF (T.node (T.dir .routed))
    let f : Fn := 7
    let v : Word := 5
    let h : Handle := 5
    let d : DirEnt := T.dir .routed
    (Works s) ∧ (Accepts s f.val Reg.KEY_NODE_GEN (setBitAt 31 v true) = true) ∧ (h = bitsOf 17 0 v) ∧ (dirGet s h = some d) ∧ (s.keys.graces.length < 1024)) ∧
    (let s : State := T.granted
    let f : Fn := 7
    let v : Word := 6
    (Works s) ∧ (Accepts s f.val Reg.KEY_NODE_GEN (setBitAt 31 v true) = true) ∧ (dirGet s (bitsOf 17 0 v) = none)) ∧
    (let s : State := T.base
    (Works s) ∧ (s.keys.entropyFail = false)) ∧
    (let s : State := fset 0 Fl.KEY_STATUS_DRBG_BLOCKED 1 (T.keys (fun k => { k with entropyFail := true, drbgReady := true, drbgBlocked := true }) T.base)
    (Works s) ∧ (s.keys.entropyFail = true) ∧ (s.keys.drbgBlocked = true)) ∧
    (let s : State := T.keys (fun k => { k with entropyFail := true, drbgReady := true, reseedMono := 700 }) T.base
    (Works s) ∧ (s.keys.drbgReady = true) ∧ (s.keys.drbgBlocked = false) ∧ (s.keys.entropyFail = true)) ∧
    (let s : State := T.keys (fun k => { k with drbgReady := true, reseedMono := 700 }) T.base
    (Works s) ∧ (s.keys.drbgReady = true) ∧ (s.keys.drbgBlocked = false) ∧ (s.keys.entropyFail = false)) := by decide +kernel

/-- The hypotheses of clauses 1 to 4 of `Obligations.PlinthCommands` can be met. -/
theorem witness_PlinthCommands_1 :
    (let s : State := wr Reg.PLINTH_TAMPER_CFG 0x440 T.rooted
    let src : Fin 4 := 3
    let n : Nat := 4
    (Works s) ∧ (s.plinth.vbat = true) ∧ (n ≠ 0) ∧ (fget s 0 Fl.PLINTH_TAMPER_CFG_FILTER ≤ n) ∧ (tamperAction s src.val = 1)) ∧
    (let s : State := wr Reg.PLINTH_TAMPER_CFG 0x480 T.rooted
    let noneOnAir : Prop := ∀ n : Fin 6, (getBerth s n.val).onAir = none
    let src : Fin 4 := 3
    let n : Nat := 4
    (Works s) ∧ (s.plinth.vbat = true) ∧ (n ≠ 0) ∧ (fget s 0 Fl.PLINTH_TAMPER_CFG_FILTER ≤ n) ∧ (tamperAction s src.val = 2) ∧ (noneOnAir)) ∧
    (let s : State := wr Reg.PLINTH_TAMPER_CFG 0x480 T.rooted
    let n : Nat := 3
    (Works s) ∧ (n < fget s 0 Fl.PLINTH_TAMPER_CFG_FILTER)) ∧
    (let s : State := T.rooted
    let noneOnAir : Prop := ∀ n : Fin 6, (getBerth s n.val).onAir = none
    let f : Fn := 0
    let v : Word := 0x8000A5C7
    (Works s) ∧ (Accepts s f.val Reg.PLINTH_SCUTTLE v = true) ∧ (f.val = hmFn s) ∧ (bitAt 31 v = true) ∧ (bitsOf 15 0 v = 0xA5C7) ∧ (noneOnAir)) := by decide +kernel

/-- The hypotheses of clauses 5 to 10 of `Obligations.PlinthCommands` can be met. -/
theorem witness_PlinthCommands_5 :
    (let s : State := T.rooted
    let f : Fn := 7
    let v : Word := 0x8000A5C7
    (Works s) ∧ (Accepts s f.val Reg.PLINTH_SCUTTLE v = true) ∧ (bitAt 31 v = true) ∧ ((f.val ≠ hmFn s ∨ bitsOf 15 0 v ≠ 0xA5C7))) ∧
    (let s : State := T.plinth (fun p => { p with scuttleMono := some 900 }) T.base
    let m : Nat := 900
    (Works s) ∧ (s.plinth.scuttleMono = some m)) ∧
    (let s : State := T.base
    let f : Fn := 0
    let v : Word := 0x799
    (Works s) ∧ (Accepts s f.val Reg.PLINTH_TAMPER_CFG (v ||| 0x80000000) = true) ∧ (fget s 0 Fl.PLINTH_TAMPER_CFG_LOCK = 0)) ∧
    (let s : State := wr Reg.PLINTH_TAMPER_CFG 0x80000440 T.base
    let f : Fn := 0
    let v : Word := 0x799
    (Works s) ∧ (Accepts s f.val Reg.PLINTH_TAMPER_CFG (v ||| 0x80000000) = true) ∧ (fget s 0 Fl.PLINTH_TAMPER_CFG_LOCK = 1)) ∧
    (let s : State := T.plinth (fun p => { p with vbat := false }) T.base
    (Works s) ∧ (s.plinth.vbat = false)) ∧
    (let s : State := T.rooted
    (Works s)) := by decide +kernel

/-- The hypotheses of clauses 11 to 15 of `Obligations.PlinthCommands` can be met. -/
theorem witness_PlinthCommands_11 :
    (let s : State := T.keys (fun k => { k with drbgReady := true }) T.base
    let go (op : Nat) : Word := BitVec.ofNat 32 (2 ^ 31 + op)
    let f : Fn := 0
    (Works s) ∧ (Accepts s f.val Reg.PLINTH_PROV_CTRL (go 1) = true) ∧ (f.val = hmFn s) ∧ (drbgOn s = true) ∧ (s.plinth.root = none)) ∧
    (let s : State := T.rooted
    let go (op : Nat) : Word := BitVec.ofNat 32 (2 ^ 31 + op)
    let f : Fn := 0
    (Works s) ∧ (Accepts s f.val Reg.PLINTH_PROV_CTRL (go 1) = true) ∧ (f.val = hmFn s) ∧ (s.plinth.root ≠ none)) ∧
    (let s : State := T.keys (fun k => { k with drbgReady := true }) (T.plinth (fun p => { p with imgStaging := List.replicate 8 (some (1, 0)) }) T.rooted)
    let go (op : Nat) : Word := BitVec.ofNat 32 (2 ^ 31 + op)
    let f : Fn := 0
    let k : BitVec 256 := 0x100000001000000010000000100000001000000010000000100000001
    (Works s) ∧ (Accepts s f.val Reg.PLINTH_PROV_CTRL (go 2) = true) ∧ (f.val = hmFn s) ∧ (drbgOn s = true) ∧ (s.plinth.root ≠ none) ∧ (stagedImgKey s f.val = some k) ∧ (s.otp.imgKeys.length < 4)) ∧
    (let s : State := T.base
    let go (op : Nat) : Word := BitVec.ofNat 32 (2 ^ 31 + op)
    let f : Fn := 0
    (Works s) ∧ (Accepts s f.val Reg.PLINTH_PROV_CTRL (go 2) = true) ∧ (f.val = hmFn s) ∧ ((s.plinth.root = none ∨ stagedImgKey s f.val = none ∨ s.otp.imgKeys.length = 4))) ∧
    (let s : State := T.plinth (fun p => { p with provisioning := some 1 }) T.base
    (Works s) ∧ (s.plinth.provisioning = some 1)) := by decide +kernel

/-- The hypotheses of clauses 16 to 18 of `Obligations.PlinthCommands` can be met. -/
theorem witness_PlinthCommands_16 :
    (let s : State := T.plinth (fun p => { p with provisioning := some 2, imgStaging := List.replicate 8 (some (1, 0)) }) T.rooted
    let k : BitVec 256 := 0x100000001000000010000000100000001000000010000000100000001
    let r : BitVec 256 := 5
    (Works s) ∧ (s.plinth.provisioning = some 2) ∧ (stagedImgKey s (hmFn s) = some k) ∧ (s.plinth.root = some r)) ∧
    (let s : State := T.attest (T.desc 2 [(0, BitVec.ofNat 8 opAttest), (17, 3)] []) (T.keys (fun k => { k with drbgReady := true }) T.base)
    let f : Fn := 7
    let x : DescS := T.desc 2 [(0, BitVec.ofNat 8 opAttest), (17, 3)] []
    (Works s) ∧ (s.start.phase ≠ .halted) ∧ (nextAttest s = some (f.val, x)) ∧ (x.ring = 2) ∧ (608 ≤ x.bufLen) ∧ (unitOut s 28 = false) ∧ (unitOut s 29 = false) ∧ (drbgOn s = true)) ∧
    (let s : State := T.attest (T.desc 2 [(0, BitVec.ofNat 8 opAttest), (16, 5)] []) T.base
    let f : Fn := 7
    let x : DescS := T.desc 2 [(0, BitVec.ofNat 8 opAttest), (16, 5)] []
    (Works s) ∧ (s.start.phase ≠ .halted) ∧ (nextAttest s = some (f.val, x)) ∧ (x.ring = 2) ∧ ((getRing s f.val 2).descs = [x]) ∧ (s.claim.st ≠ .diag) ∧ (x.bufLen < 608)) := by decide +kernel

/-- The hypotheses of clauses 1 to 4 of `Obligations.FabricFaultsAndRate` can be met. -/
theorem witness_FabricFaultsAndRate_1 :
    (let s : State := T.fab (fun x => { x with refused := [(.core 15, 1)] }) T.base
    let run (l : Link) (again : Bool) : Nat := if again then refusals s l + 1 else 1
    let l : Link := .core 15
    let again : Bool := true
    (Works s) ∧ (run l again < 3)) ∧
    (let s : State := T.fab (fun x => { x with refused := [(.unit 30, 2)] }) T.base
    let run (l : Link) (again : Bool) : Nat := if again then refusals s l + 1 else 1
    let noneOnAir : Prop := ∀ n : Fin 6, (getBerth s n.val).onAir = none
    let u : Fin 31 := 30
    let again : Bool := true
    (Works s) ∧ (3 ≤ run (.unit u) again) ∧ (unitFenced s u.val = false) ∧ (breaksFloor s u.val = false) ∧ (noneOnAir)) ∧
    (let s : State := T.fab (fun x => { x with refused := [(.unit 6, 2)] }) (T.run (T.job (.respond 0 3 T.entry false) 300 true) T.base)
    let run (l : Link) (again : Bool) : Nat := if again then refusals s l + 1 else 1
    let u : Fin 31 := 6
    let again : Bool := true
    let j : Job := T.job (.respond 0 3 T.entry false) 300 true
    (Works s) ∧ (3 ≤ run (.unit u) again) ∧ (unitFenced s u.val = false) ∧ (breaksFloor s u.val = false) ∧ (4 ≤ u.val) ∧ (u.val < 12) ∧ (s.stevs.getD (u.val - 4) none = some j) ∧ (j.what.site < 4)) ∧
    (let s : State := T.fab (fun x => { x with refused := [(.unit 12, 2)] }) (wr Reg.FABRIC_FENCED 0xF0000 T.base)
    let run (l : Link) (again : Bool) : Nat := if again then refusals s l + 1 else 1
    let noneOnAir : Prop := ∀ n : Fin 6, (getBerth s n.val).onAir = none
    let u : Fin 31 := 12
    let again : Bool := true
    (Works s) ∧ (3 ≤ run (.unit u) again) ∧ (unitFenced s u.val = false) ∧ (breaksFloor s u.val = true) ∧ (noneOnAir) ∧ (s.claim.st ≠ .diag)) := by decide +kernel

/-- The hypotheses of clauses 5 to 8 of `Obligations.FabricFaultsAndRate` can be met. -/
theorem witness_FabricFaultsAndRate_5 :
    (let s : State := T.fab (fun x => { x with refused := [(.core 15, 2)] }) T.base
    let run (l : Link) (again : Bool) : Nat := if again then refusals s l + 1 else 1
    let noneOnAir : Prop := ∀ n : Fin 6, (getBerth s n.val).onAir = none
    let b : Fin 16 := 15
    let again : Bool := true
    (Works s) ∧ (3 ≤ run (.core b) again) ∧ (noneOnAir) ∧ (s.claim.st ≠ .diag)) ∧
    (let s : State := T.fab (fun x => { x with pilots := List.replicate 4 1 }) T.base
    let c : Fin 4 := 3
    let back : Nat := 0
    (Works s) ∧ (s.fabric.pilots[c.val]? = some 1) ∧ (back ≤ monoNs s) ∧ (unitFenced s c.val = false) ∧ (breaksFloor s c.val = false)) ∧
    (let s : State := T.fab (fun x => { x with pilots := List.replicate 4 1 }) T.base
    let noneOnAir : Prop := ∀ n : Fin 6, (getBerth s n.val).onAir = none
    let c : Fin 4 := 3
    (Works s) ∧ (s.fabric.pilots[c.val]? = some 1) ∧ (noneOnAir) ∧ (s.claim.st ≠ .diag)) ∧
    (let s : State := T.base
    let f : Fn := 0
    let v : Word := 0x8000001E
    (Works s) ∧ (Accepts s f.val Reg.FABRIC_UNFENCE v = true) ∧ (bitAt 31 v = true) ∧ (f.val = hmFn s) ∧ (4 ≤ bitsOf 4 0 v) ∧ (bitsOf 4 0 v ≠ 31) ∧ (s.fabric.unfencing = none)) := by decide +kernel

/-- The hypotheses of clauses 9 to 14 of `Obligations.FabricFaultsAndRate` can be met. -/
theorem witness_FabricFaultsAndRate_9 :
    (let s : State := T.base
    let f : Fn := 0
    let v : Word := 0x8000001F
    (Works s) ∧ (Accepts s f.val Reg.FABRIC_UNFENCE v = true) ∧ (bitAt 31 v = true) ∧ ((f.val ≠ hmFn s ∨ bitsOf 4 0 v < 4 ∨ bitsOf 4 0 v = 31 ∨ s.fabric.unfencing ≠ none))) ∧
    (let s : State := wr Reg.FABRIC_FENCED 0x40000010 (T.fab (fun x => { x with unfencing := some 30 }) T.base)
    let u : Nat := 30
    (Works s) ∧ (s.fabric.unfencing = some u)) ∧
    (let s : State := T.base
    (Works s)) ∧
    (let s : State := T.base
    let rate : BitVec 16 := 419
    (Works s) ∧ (rate.toNat < fget s 0 Fl.FABRIC_RATE_WARN_THRESHOLD) ∧ (s.fabric.lowLatched = false)) ∧
    (let s : State := fset 0 Fl.FABRIC_VPOLICY_ENABLE 1 (T.fab (fun x => { x with lowRun := 99 }) T.base)
    let rate : BitVec 16 := 399
    (Works s) ∧ (fbit s 0 Fl.FABRIC_VPOLICY_ENABLE = true) ∧ (rate.toNat < targetRate s) ∧ (s.fabric.lowRun = 99) ∧ (fget s 0 Fl.FABRIC_VREQ_VREQ_MV + 10 ≤ ceilMv s)) ∧
    (let s : State := T.base
    let f : Fn := 0
    let v : Word := 0x10001
    (Works s) ∧ (Accepts s f.val Reg.FABRIC_CTRL v = true) ∧ (bitAt 16 v = true) ∧ (bitAt 0 v = true)) := by decide +kernel

/-- The hypotheses of clauses 1 to 6 of `Obligations.QueuesAndRepair` can be met. -/
theorem witness_QueuesAndRepair_1 :
    (let s : State := T.slots T.rec
    let q : Nat := 0
    (Works s) ∧ (q < 6)) ∧
    (let s : State := T.upq (T.up .none) T.base
    (Works s)) ∧
    (let s : State := T.fn (fun x => { x with ups := [T.item] }) T.base
    let f : Fn := 7
    (Works s) ∧ ((getFn s f.val).ups ≠ [])) ∧
    (let s : State := T.slots T.rec
    let cmd (op : Nat) (v : Word) : Word := setBitAt 31 (putBits 9 8 v op) true
    let f : Fn := 0
    let v : Word := 0
    let q : Nat := 0
    (Works s) ∧ (Accepts s f.val Reg.HOLD_QCMD (cmd 1 v) = true) ∧ (q = bitsOf 6 0 v) ∧ (q < 6) ∧ (openItems s q = [])) ∧
    (let s : State := T.demod .search (some T.rec)
    let cmd (op : Nat) (v : Word) : Word := setBitAt 31 (putBits 9 8 v op) true
    let f : Fn := 0
    let v : Word := 0
    let q : Nat := 0
    (Works s) ∧ (Accepts s f.val Reg.HOLD_QCMD (cmd 1 v) = true) ∧ (q = bitsOf 6 0 v) ∧ (q < 6) ∧ (openItems s q ≠ [])) ∧
    (let s : State := T.slots { T.rec with berth := 5 }
    let cmd (op : Nat) (v : Word) : Word := setBitAt 31 (putBits 9 8 v op) true
    let f : Fn := 0
    let v : Word := 5
    let q : Nat := 5
    let r : RxRec := { T.rec with berth := 5 }
    (Works s) ∧ (Accepts s f.val Reg.HOLD_QCMD (cmd 2 v) = true) ∧ (q = bitsOf 6 0 v) ∧ (q < 6) ∧ (s.mac.records = [r]) ∧ (r.berth = q)) := by decide +kernel

/-- The hypotheses of clauses 7 to 12 of `Obligations.QueuesAndRepair` can be met. -/
theorem witness_QueuesAndRepair_7 :
    (let s : State := T.fn (fun x => { x with ups := [T.item] }) T.base
    let cmd (op : Nat) (v : Word) : Word := setBitAt 31 (putBits 9 8 v op) true
    let f : Fn := 0
    let g : Fn := 7
    let v : Word := 63
    let u : UpItem := T.item
    let rest : List UpItem := []
    (Works s) ∧ (Accepts s f.val Reg.HOLD_QCMD (cmd 2 v) = true) ∧ (bitsOf 6 0 v = 35 + 4 * g.val) ∧ ((getFn s g.val).ups = u :: rest)) ∧
    (let s : State := T.slots T.rec
    let cmd (op : Nat) (v : Word) : Word := setBitAt 31 (putBits 9 8 v op) true
    let f : Fn := 0
    let v : Word := 0
    let q : Nat := 0
    (Works s) ∧ (Accepts s f.val Reg.HOLD_QCMD (cmd 3 v) = true) ∧ (q = bitsOf 6 0 v) ∧ (q < 6)) ∧
    (let s : State := T.hold (fun x => { x with flushing := some (0, 900, [T.rec.seq.toNat]) }) (T.demod .search (some T.rec))
    let q : Nat := 0
    let m : Nat := 900
    let items : List Nat := [T.rec.seq.toNat]
    (Works s) ∧ (s.hold.flushing = some (q, m, items)) ∧ (q < 6) ∧ ((openItems s q).any items.contains = true)) ∧
    (let s : State := T.hold (fun x => { x with log := [⟨3, 4, 1, false⟩] }) T.base
    let f : Fn := 0
    let v : Word := 0
    (Works s) ∧ (Accepts s f.val Reg.HOLD_LOG_SEL (setBitAt 31 v true) = true)) ∧
    (let s : State := T.base
    let f : Fn := 0
    let v : Word := 0xF7FF
    (Works s) ∧ (Accepts s f.val Reg.HOLD_REPAIR_CTRL (setBitAt 31 v true) = true) ∧ (f.val = hmFn s) ∧ (repairable s (bitsOf 15 12 v) (bitsOf 10 0 v) = true)) ∧
    (let s : State := { T.base with otp := { T.base.otp with repairs := [⟨15, 2047, false, false⟩] } }
    let f : Fn := 0
    let v : Word := 0xF7FF
    (Works s) ∧ (Accepts s f.val Reg.HOLD_REPAIR_CTRL (setBitAt 31 v true) = true) ∧ (f.val = hmFn s) ∧ (repairable s (bitsOf 15 12 v) (bitsOf 10 0 v) = false)) := by decide +kernel

/-- The hypotheses of clauses 13 to 14 of `Obligations.QueuesAndRepair` can be met. -/
theorem witness_QueuesAndRepair_13 :
    (let s : State := T.granted
    let f : Fn := 7
    let v : Word := 0xF7FF
    (Works s) ∧ (Accepts s f.val Reg.HOLD_REPAIR_CTRL (setBitAt 31 v true) = true) ∧ (f.val ≠ hmFn s)) ∧
    (let s : State := T.hold (fun x => { x with repairing := some (15, 2047) }) T.base
    let b : Nat := 15
    let row : Nat := 2047
    (Works s) ∧ (s.hold.repairing = some (b, row))) := by decide +kernel

/-- The hypotheses of clauses 1 to 6 of `Obligations.ClaimAndTakeover` can be met. -/
theorem witness_ClaimAndTakeover_1 :
    (let s : State := T.unit .standby
    let o : BitVec 4 := 8
    (Works s) ∧ (s.claim.st = .standby) ∧ (o.getLsbD 3 = true)) ∧
    (let s : State := T.claim (fun c => { c with bus := 9 }) (T.unit .standby)
    let o : BitVec 4 := 7
    (Works s) ∧ (s.claim.st = .standby) ∧ (o.getLsbD 3 = false) ∧ (s.claim.bus.getLsbD 3 = true)) ∧
    (let s : State := T.claim (fun c => { c with gate := true, bus := 13 }) (T.unit .active)
    let noneOnAir : Prop := ∀ n : Fin 6, (getBerth s n.val).onAir = none
    let o : BitVec 4 := 14
    (Works s) ∧ ((s.claim.st = .rising ∨ s.claim.st = .active)) ∧ (8 + s.start.straps.claim.val < o.toNat) ∧ (noneOnAir)) ∧
    (let s : State := fset 0 Fl.CLAIM_CTRL_TAKEOVER 1 (T.claim (fun c => { c with quietFrom := some 500 }) (T.unit .standby))
    let m : Nat := 500
    (Works s) ∧ (s.claim.st = .standby) ∧ (s.claim.quiet = false) ∧ (s.claim.quietFrom = some m)) ∧
    (let s : State := fset 0 Fl.CLAIM_CTRL_TAKEOVER 1 (T.claim (fun c => { c with quiet := true, ckptLoaded := true }) { T.unit .standby with fw := { FwS.reset with mode := 0 }, time := { TimeS.reset with slots := .running } })
    (Works s) ∧ (mayRise s = true) ∧ (s.claim.others.toNat ≤ 8 + s.start.straps.claim.val)) ∧
    (let s : State := T.claim (fun c => { c with heldMono := some 700 }) (T.unit .rising)
    let o : BitVec 4 := 12
    let m : Nat := 10700
    (Works s) ∧ (probeDue s = some m) ∧ (o ≠ ownClaim s)) := by decide +kernel

/-- The hypotheses of clauses 7 to 10 of `Obligations.ClaimAndTakeover` can be met. -/
theorem witness_ClaimAndTakeover_7 :
    (let s : State := T.claim (fun c => { c with probeMono := some 700 }) (T.unit .active)
    let noneOnAir : Prop := ∀ n : Fin 6, (getBerth s n.val).onAir = none
    let m : Nat := 700
    (Works s) ∧ (probeDue s = some m) ∧ (noneOnAir)) ∧
    (let s : State := fset 0 Fl.CLAIM_CTRL_FRESH 1 (T.claim (fun c => { c with probed := true }) (T.unit .rising))
    (Works s) ∧ (s.claim.st = .rising) ∧ (s.claim.probed = true) ∧ (fget s 0 Fl.CLAIM_CTRL_FRESH = 1)) ∧
    (let s : State := T.tab (fun t => { t with dir := [(5, T.dir .routed)] }) (T.claim (fun c => { c with probed := true, lastHeader := some T.header }) (T.unit .rising))
    let h : CkptHeader := T.header
    let k : Handle := 5
    let d : DirEnt := T.dir .routed
    (Works s) ∧ (s.claim.st = .rising) ∧ (s.claim.probed = true) ∧ (fget s 0 Fl.CLAIM_CTRL_FRESH = 0) ∧ (s.claim.lastHeader = some h) ∧ (s.tables.dir = [(k, d)]) ∧ (runDescs s = []) ∧ (s.camp.camps = []) ∧ (s.mac.queue = [])) ∧
    (let s : State := T.unit .active
    let noneOnAir : Prop := ∀ n : Fin 6, (getBerth s n.val).onAir = none
    let ctrl (bit : Nat) : Word := setBitAt bit (rd s Reg.CLAIM_CTRL) true
    (Works s) ∧ (Accepts s (hmFn s) Reg.CLAIM_CTRL (ctrl 2) = true) ∧ (s.claim.st = .active) ∧ (bitAt 3 (rd s Reg.CLAIM_CTRL) = false) ∧ (noneOnAir)) := by decide +kernel

/-- The hypotheses of clauses 11 to 14 of `Obligations.ClaimAndTakeover` can be met. -/
theorem witness_ClaimAndTakeover_11 :
    (let s : State := T.unit .rising
    let noneOnAir : Prop := ∀ n : Fin 6, (getBerth s n.val).onAir = none
    let ctrl (bit : Nat) : Word := setBitAt bit (rd s Reg.CLAIM_CTRL) true
    (Works s) ∧ (Accepts s (hmFn s) Reg.CLAIM_CTRL (ctrl 3) = true) ∧ (s.claim.st ≠ .diag) ∧ (s.claim.st ≠ .none) ∧ (bitAt 2 (rd s Reg.CLAIM_CTRL) = false) ∧ (noneOnAir)) ∧
    (let s : State := T.unit .diag
    (Works s) ∧ (s.claim.st = .diag) ∧ (fget s 0 Fl.CLAIM_DIAG_RESULT = 0)) ∧
    (let s : State := T.unit .standby
    (Works s) ∧ (s.claim.failoverOut = false)) ∧
    (let s : State := T.unit .standby
    let ctrl (bit : Nat) : Word := setBitAt bit (rd s Reg.CLAIM_CTRL) true
    (Works s) ∧ (Accepts s (hmFn s) Reg.CLAIM_CTRL (ctrl 4) = true) ∧ (s.claim.st ≠ .diag) ∧ (s.claim.st ≠ .none) ∧ (bitAt 2 (rd s Reg.CLAIM_CTRL) = false) ∧ (bitAt 3 (rd s Reg.CLAIM_CTRL) = false)) := by decide +kernel

/-- The hypotheses of clauses 1 to 3 of `Obligations.Checkpoints` can be met. -/
theorem witness_Checkpoints_1 :
    (let s : State := T.ring (T.desc 2 [(0, BitVec.ofNat 8 opCkptArea), (18, 16), (19, 1), (20, 10)] []) T.base
    let ready (f : Fn) (x : DescS) (op : Nat) : Prop := (getRing s f.val 2).descs = [x] ∧ x.phase = .ready ∧ x.op = op ∧ x.ring = 2
    let f : Fn := 7
    let x : DescS := T.desc 2 [(0, BitVec.ofNat 8 opCkptArea), (18, 16), (19, 1), (20, 10)] []
    (Runs s) ∧ (ready f x opCkptArea) ∧ (s.claim.area = none)) ∧
    (let s : State := T.claim (fun c => { c with area := some T.area, nextFull := true, dirChanged := [5] }) (T.unit .active)
    let a : CkptArea := T.area
    (Runs s) ∧ (s.claim.area = some a) ∧ (s.claim.st = .active) ∧ (s.claim.writing = none) ∧ (s.landed = [])) ∧
    (let s : State := T.claim (fun c => { c with area := some T.area, writing := some ⟨T.header, [], []⟩, dueMono := 10 ^ 9 }) (T.landed (T.job .ckptBack 4 false) T.base)
    let j : Job := T.job .ckptBack 4 false
    let w : CkptWrite := ⟨T.header, [], []⟩
    let a : CkptArea := T.area
    (Runs s) ∧ (s.landed = [j]) ∧ (j.what = .ckptBack) ∧ (j.abort = false) ∧ (s.claim.writing = some w) ∧ (s.claim.area = some a) ∧ (a.fn < s.fns.length) ∧ (monoNs s < s.claim.dueMono)) := by decide +kernel

/-- The hypotheses of clauses 4 to 6 of `Obligations.Checkpoints` can be met. -/
theorem witness_Checkpoints_4 :
    (let s : State := T.ring (T.desc 2 [(0, BitVec.ofNat 8 opCkptLoad), (18, 16), (19, 1)] []) (T.unit .active)
    let ready (f : Fn) (x : DescS) (op : Nat) : Prop := (getRing s f.val 2).descs = [x] ∧ x.phase = .ready ∧ x.op = op ∧ x.ring = 2
    let f : Fn := 7
    let x : DescS := T.desc 2 [(0, BitVec.ofNat 8 opCkptLoad), (18, 16), (19, 1)] []
    (Runs s) ∧ (ready f x opCkptLoad) ∧ (s.claim.st ≠ .standby) ∧ (s.claim.st ≠ .diag)) ∧
    (let s : State := T.ring (T.desc 2 [(0, BitVec.ofNat 8 opCkptLoad), (18, 16), (19, 1)] []) (T.unit .standby)
    let ready (f : Fn) (x : DescS) (op : Nat) : Prop := (getRing s f.val 2).descs = [x] ∧ x.phase = .ready ∧ x.op = op ∧ x.ring = 2
    let f : Fn := 7
    let x : DescS := T.desc 2 [(0, BitVec.ofNat 8 opCkptLoad), (18, 16), (19, 1)] []
    (Runs s) ∧ (ready f x opCkptLoad) ∧ (ckptAreaLen ≤ x.bufLen) ∧ (s.claim.st = .standby)) ∧
    (let s : State := T.ring (T.desc 2 [(0, BitVec.ofNat 8 opCkptLoad), (18, 16), (19, 1)] []) (T.unit .standby)
    let ready (f : Fn) (x : DescS) (op : Nat) : Prop := (getRing s f.val 2).descs = [x] ∧ x.phase = .ready ∧ x.op = op ∧ x.ring = 2
    let f : Fn := 7
    let x : DescS := T.desc 2 [(0, BitVec.ofNat 8 opCkptLoad), (18, 16), (19, 1)] []
    let im : CkptImage := { T.image with header := { T.header with crcOk := false } }
    (Runs s) ∧ (ready f x opCkptLoad) ∧ (ckptAreaLen ≤ x.bufLen) ∧ (s.claim.st = .standby) ∧ ((im.header.formatOk = false ∨ im.header.writing = true ∨ im.header.crcOk = false))) := by decide +kernel

/-- The hypotheses of clauses 7 to 9 of `Obligations.Checkpoints` can be met. -/
theorem witness_Checkpoints_7 :
    (let s : State := T.ring (T.desc 2 [(0, BitVec.ofNat 8 opCkptLoad), (18, 16), (19, 1)] []) (T.unit .standby)
    let ready (f : Fn) (x : DescS) (op : Nat) : Prop := (getRing s f.val 2).descs = [x] ∧ x.phase = .ready ∧ x.op = op ∧ x.ring = 2
    let f : Fn := 7
    let x : DescS := T.desc 2 [(0, BitVec.ofNat 8 opCkptLoad), (18, 16), (19, 1)] []
    let im : CkptImage := T.image
    (Runs s) ∧ (ready f x opCkptLoad) ∧ (ckptAreaLen ≤ x.bufLen) ∧ (s.claim.st = .standby) ∧ (s.claim.loading = none) ∧ (headerFault s ((x.byte 20).testBit 0) im.header = none)) ∧
    (let s : State := T.ring (T.desc 2 [(0, BitVec.ofNat 8 opCkptLoad), (18, 16), (19, 1)] []) (T.unit .standby)
    let ready (f : Fn) (x : DescS) (op : Nat) : Prop := (getRing s f.val 2).descs = [x] ∧ x.phase = .ready ∧ x.op = op ∧ x.ring = 2
    let f : Fn := 7
    let x : DescS := T.desc 2 [(0, BitVec.ofNat 8 opCkptLoad), (18, 16), (19, 1)] []
    let i : Nat := 0
    (Runs s) ∧ (ready f x opCkptLoad) ∧ (ckptAreaLen ≤ x.bufLen) ∧ (s.claim.st = .standby) ∧ (f.val < s.fns.length) ∧ (recordFor s f.val (loadJob f.val x 64) = some i) ∧ (i < (getFn s f.val).faults.length)) ∧
    (let s : State := setFault 7 0 (some ⟨⟨7, .ckptLoad 2 3, 2, 4096, 64, 0, false, [], true, false, some 0, false, 0⟩, false, 3, none⟩) (T.claim (fun c => { c with loading := some ⟨7, 2, 3, 9, T.image⟩ }) (T.unit .standby))
    let l : CkptLoad := ⟨7, 2, 3, 9, T.image⟩
    (Runs s) ∧ (s.claim.loading = some l) ∧ ((parkedJobs s l.fn).any l.reads = true)) := by decide +kernel

/-- The hypotheses of clauses 10 to 12 of `Obligations.Checkpoints` can be met. -/
theorem witness_Checkpoints_10 :
    (let s : State := T.run (⟨7, .ckptLoad 2 3, 2, 4096, 64, 0, false, [], true, false, some 0, false, 0⟩) (T.claim (fun c => { c with loading := some ⟨7, 2, 3, 9, T.image⟩ }) (T.unit .standby))
    let l : CkptLoad := ⟨7, 2, 3, 9, T.image⟩
    (Runs s) ∧ (s.claim.loading = some l) ∧ ((parkedJobs s l.fn).any l.reads = false) ∧ (atWork s l.fn (fun j => l.reads j && j.poisoned) = true)) ∧
    (let s : State := T.claim (fun c => { c with loading := some ⟨7, 2, 3, 9, T.image⟩ }) (T.unit .standby)
    let clear (l : CkptLoad) : Prop := (parkedJobs s l.fn).any l.reads = false ∧ atWork s l.fn (fun j => l.reads j && j.poisoned) = false
    let l : CkptLoad := ⟨7, 2, 3, 9, T.image⟩
    (Runs s) ∧ (s.claim.loading = some l) ∧ (clear l)) ∧
    (let s : State := T.claim (fun c => { c with loading := some ⟨7, 2, 3, 9, T.image⟩ }) (T.node (T.dir .routed))
    let clear (l : CkptLoad) : Prop := (parkedJobs s l.fn).any l.reads = false ∧ atWork s l.fn (fun j => l.reads j && j.poisoned) = false
    let l : CkptLoad := ⟨7, 2, 3, 9, T.image⟩
    (Runs s) ∧ (s.claim.loading = some l) ∧ (clear l) ∧ (l.image.header.full = true) ∧ (l.image.dir = []) ∧ (l.image.nbrs = [])) := by decide +kernel

/-- The hypotheses of clauses 1 to 2 of `Obligations.FirmwareStaging` can be met. -/
theorem witness_FirmwareStaging_1 :
    (let s : State := T.ring (T.stage opFwOpen 1 4 []) T.base
    let ready (f : Fn) (x : DescS) (op : Nat) : Prop := (getRing s f.val 2).descs = [x] ∧ x.phase = .ready ∧ x.op = op ∧ x.ring = 2 ∧ s.claim.st ≠ .diag
    let f : Fn := 7
    let x : DescS := T.stage opFwOpen 1 4 []
    (Runs s) ∧ (ready f x opFwOpen) ∧ (s.fw.lease = none) ∧ (s.fw.mode ≠ 1) ∧ (1025 ≤ x.num 20 4) ∧ (x.num 20 4 ≤ 8388608)) ∧
    (let s : State := T.fw (fun w => { w with lease := some { T.lease with holder := 6 } }) (T.ring (T.stage opFwOpen 1 4 []) T.base)
    let ready (f : Fn) (x : DescS) (op : Nat) : Prop := (getRing s f.val 2).descs = [x] ∧ x.phase = .ready ∧ x.op = op ∧ x.ring = 2 ∧ s.claim.st ≠ .diag
    let f : Fn := 7
    let x : DescS := T.stage opFwOpen 1 4 []
    let l : Lease := { T.lease with holder := 6 }
    (Runs s) ∧ (ready f x opFwOpen) ∧ (s.fw.lease = some l) ∧ (l.holder ≠ f.val)) := by decide +kernel

/-- The hypotheses of clauses 3 to 4 of `Obligations.FirmwareStaging` can be met. -/
theorem witness_FirmwareStaging_3 :
    (let s : State := T.fw (fun w => { w with lease := some T.lease }) (T.ring (T.stage opFwChunk 2 0 [8, 9, 10]) T.base)
    let ready (f : Fn) (x : DescS) (op : Nat) : Prop := (getRing s f.val 2).descs = [x] ∧ x.phase = .ready ∧ x.op = op ∧ x.ring = 2 ∧ s.claim.st ≠ .diag
    let f : Fn := 7
    let x : DescS := T.stage opFwChunk 2 0 [8, 9, 10]
    let l : Lease := T.lease
    (Runs s) ∧ (ready f x opFwChunk) ∧ (s.fw.lease = some l) ∧ (l.holder = f.val) ∧ (x.poisoned = false) ∧ (x.num 20 4 = l.staged) ∧ (l.staged + x.payload.length ≤ l.len)) ∧
    (let s : State := T.fw (fun w => { w with lease := some T.lease }) (T.ring (T.stage opFwChunk 1 0 [8, 9]) T.base)
    let ready (f : Fn) (x : DescS) (op : Nat) : Prop := (getRing s f.val 2).descs = [x] ∧ x.phase = .ready ∧ x.op = op ∧ x.ring = 2 ∧ s.claim.st ≠ .diag
    let f : Fn := 7
    let x : DescS := T.stage opFwChunk 1 0 [8, 9]
    let l : Lease := T.lease
    (Runs s) ∧ (ready f x opFwChunk) ∧ (s.fw.lease = some l) ∧ (l.holder = f.val) ∧ (x.poisoned = false) ∧ (x.num 20 4 ≠ l.staged) ∧ (l.staged < x.num 20 4 + x.payload.length)) := by decide +kernel

/-- The hypotheses of clauses 5 to 6 of `Obligations.FirmwareStaging` can be met. -/
theorem witness_FirmwareStaging_5 :
    (let s : State := T.fw (fun w => { w with lease := some { T.lease with staged := 5 } }) (T.ring (T.stage opFwClose 0 0 []) T.base)
    let ready (f : Fn) (x : DescS) (op : Nat) : Prop := (getRing s f.val 2).descs = [x] ∧ x.phase = .ready ∧ x.op = op ∧ x.ring = 2 ∧ s.claim.st ≠ .diag
    let f : Fn := 7
    let x : DescS := T.stage opFwClose 0 0 []
    let l : Lease := { T.lease with staged := 5 }
    (Runs s) ∧ (ready f x opFwClose) ∧ (x.byte 20 = 0) ∧ (s.fw.lease = some l) ∧ (l.holder = f.val) ∧ (l.staged = l.len)) ∧
    (let s : State := T.fw (fun w => { w with lease := some T.lease }) (T.ring (T.stage opFwClose 0 0 []) T.base)
    let ready (f : Fn) (x : DescS) (op : Nat) : Prop := (getRing s f.val 2).descs = [x] ∧ x.phase = .ready ∧ x.op = op ∧ x.ring = 2 ∧ s.claim.st ≠ .diag
    let f : Fn := 7
    let x : DescS := T.stage opFwClose 0 0 []
    let l : Lease := T.lease
    (Runs s) ∧ (ready f x opFwClose) ∧ (x.byte 20 = 0) ∧ (s.fw.lease = some l) ∧ (l.holder = f.val) ∧ (l.staged ≠ l.len)) := by decide +kernel

/-- The hypotheses of clauses 7 to 10 of `Obligations.FirmwareStaging` can be met. -/
theorem witness_FirmwareStaging_7 :
    (let s : State := T.fw (fun w => { w with lease := some T.lease }) (T.ring (T.stage opFwClose 1 0 []) T.base)
    let ready (f : Fn) (x : DescS) (op : Nat) : Prop := (getRing s f.val 2).descs = [x] ∧ x.phase = .ready ∧ x.op = op ∧ x.ring = 2 ∧ s.claim.st ≠ .diag
    let f : Fn := 7
    let x : DescS := T.stage opFwClose 1 0 []
    let l : Lease := T.lease
    (Runs s) ∧ (ready f x opFwClose) ∧ (x.byte 20 = 1) ∧ (s.fw.lease = some l) ∧ (l.holder = f.val)) ∧
    (let s : State := T.fw (fun w => { w with lease := some T.lease }) T.base
    let l : Lease := T.lease
    (Runs s) ∧ (s.fw.lease = some l) ∧ (stagingNow s l.holder = false)) ∧
    (let s : State := T.fw (fun w => { w with lease := some T.lease }) T.base
    let f : Fn := 0
    let l : Lease := T.lease
    (Runs s) ∧ (Accepts s f.val Reg.FW_CTRL 4 = true) ∧ (f.val = hmFn s) ∧ (s.fw.lease = some l)) ∧
    (let s : State := T.granted
    let f : Fn := 7
    (Runs s) ∧ (Accepts s f.val Reg.FW_CTRL 4 = true) ∧ (f.val ≠ hmFn s)) := by decide +kernel

/-- The hypotheses of clauses 1 to 6 of `Obligations.TrialSignersAndSettings` can be met. -/
theorem witness_TrialSignersAndSettings_1 :
    (let s : State := T.base
    let f : Fn := 0
    (Works s) ∧ (Accepts s f.val Reg.FW_CTRL 1 = true) ∧ (f.val = hmFn s)) ∧
    (let s : State := T.trial
    let f : Fn := 0
    (Works s) ∧ (Accepts s f.val Reg.FW_CTRL 2 = true) ∧ (s.fw.mode = 1) ∧ (s.fw.resetMono = none)) ∧
    (let s : State := T.trial
    (Works s) ∧ (s.start.phase ≠ .halted) ∧ (mayConfirm s = true)) ∧
    (let s : State := T.base
    (Works s) ∧ (s.start.phase ≠ .halted) ∧ (mayConfirm s = false)) ∧
    (let s : State := T.trial
    let m : Nat := 900
    (Works s) ∧ (s.fw.trialMono = some m)) ∧
    (let s : State := T.fw (fun w => { w with resetMono := some (900, 4) }) T.base
    let m : Nat := 900
    let cause : Nat := 4
    (Works s) ∧ (s.fw.resetMono = some (m, cause))) := by decide +kernel

/-- The hypotheses of clauses 7 to 10 of `Obligations.TrialSignersAndSettings` can be met. -/
theorem witness_TrialSignersAndSettings_7 :
    (let s : State := T.fw (fun w => { w with signStaging := List.replicate 8 (some (1, 0)) }) T.base
    let go (op : Nat) (v : Word) : Word := setBitAt 31 (putBits 9 8 v op) true
    let f : Fn := 0
    let v : Word := 3
    let h : BitVec 256 := 0x100000001000000010000000100000001000000010000000100000001
    let x : Signer := ⟨false, 0, false, false⟩
    (Works s) ∧ (Accepts s f.val Reg.FW_SIGNER_CTRL (go 1 v) = true) ∧ (f.val = hmFn s) ∧ (stagedHash s f.val = some h) ∧ (s.otp.signers[bitsOf 1 0 v]? = some x) ∧ (x.fused = false)) ∧
    (let s : State := T.base
    let go (op : Nat) (v : Word) : Word := setBitAt 31 (putBits 9 8 v op) true
    let f : Fn := 0
    let v : Word := 3
    (Works s) ∧ (Accepts s f.val Reg.FW_SIGNER_CTRL (go 1 v) = true) ∧ ((f.val ≠ hmFn s ∨ stagedHash s f.val = none ∨ (getSigner s (bitsOf 1 0 v)).fused = true))) ∧
    (let s : State := T.signers [⟨true, 1, false, false⟩, ⟨true, 2, false, false⟩, ⟨false, 0, false, false⟩, ⟨false, 0, false, false⟩] T.base
    let go (op : Nat) (v : Word) : Word := setBitAt 31 (putBits 9 8 v op) true
    let f : Fn := 0
    let v : Word := 1
    let x : Signer := ⟨true, 2, false, false⟩
    (Works s) ∧ (Accepts s f.val Reg.FW_SIGNER_CTRL (go 2 v) = true) ∧ (f.val = hmFn s) ∧ (s.otp.signers[bitsOf 1 0 v]? = some x) ∧ (((s.otp.signers.set (bitsOf 1 0 v) { x with revoked := true }).any Signer.accepts) = true)) ∧
    (let s : State := T.signers [⟨true, 1, false, false⟩, ⟨true, 2, true, false⟩, ⟨false, 0, false, false⟩, ⟨false, 0, false, false⟩] T.base
    let go (op : Nat) (v : Word) : Word := setBitAt 31 (putBits 9 8 v op) true
    let f : Fn := 0
    let v : Word := 0
    (Works s) ∧ (Accepts s f.val Reg.FW_SIGNER_CTRL (go 2 v) = true) ∧ (f.val = hmFn s) ∧ ((∀ i : Fin 4, (i.val = bitsOf 1 0 v ∨ (getSigner s i.val).accepts = false))) ∧ (s.otp.signers.length = 4)) := by decide +kernel

/-- The hypotheses of clauses 11 to 13 of `Obligations.TrialSignersAndSettings` can be met. -/
theorem witness_TrialSignersAndSettings_11 :
    (let s : State := wr Reg.FW_SET_SEL 1 T.base
    let f : Fn := 0
    let v : Word := 1
    let x : Store := ⟨1, 0, [], []⟩
    (Works s) ∧ (Accepts s f.val Reg.FW_SET_VAL v = true) ∧ (itemOk (fget s 0 Fl.FW_SET_SEL_ITEM) v = true) ∧ (s.flash.stores[s.fw.store]? = some x) ∧ (x.journal.length < journalRoom)) ∧
    (let s : State := T.base
    let f : Fn := 0
    let v : Word := 59
    (Works s) ∧ (Accepts s f.val Reg.FW_SET_VAL v = true) ∧ (itemOk (fget s 0 Fl.FW_SET_SEL_ITEM) v = false)) ∧
    (let s : State := T.trial
    let f : Fn := 0
    (Works s) ∧ (Accepts s f.val Reg.FW_CNT_SAT 4 = true)) := by decide +kernel

/-- The hypotheses of clauses 4 to 9 of `Obligations.Resets` can be met. -/
theorem witness_Resets_4 :
    (let s : State := T.start' (fun x => { x with brownOut := true, held := true }) T.rooted
    (s.start.brownOut = true)) ∧
    (let s : State := T.rooted
    let f : Fn := 0
    let v : Word := 0x80005EA1
    (Works s) ∧ (Accepts s f.val Reg.TEST_RESET v = true) ∧ (testResetOk s f.val v = true)) ∧
    (let s : State := T.rooted
    let f : Fn := 0
    let v : Word := 0x80005EA0
    (Works s) ∧ (Accepts s f.val Reg.TEST_RESET v = true) ∧ (testResetOk s f.val v = false)) ∧
    (let s : State := T.rooted
    let i : TapInstr := .extest
    (s.start.held = false) ∧ (i.holds = true)) ∧
    (let s : State := T.start' (fun x => { x with tap := .highz, held := true }) T.rooted
    let i : TapInstr := .samplePreload
    (s.start.porLow = false) ∧ (s.start.brownOut = false) ∧ (i.holds = false)) ∧
    (let s : State := T.start' (fun x => { x with tap := .highz, held := true }) T.rooted
    (s.start.porLow = false) ∧ (s.start.brownOut = false)) := by decide +kernel

/-- The hypotheses of clauses 10 to 12 of `Obligations.Resets` can be met. -/
theorem witness_Resets_10 :
    (let s : State := T.on 7 (T.fn (fun x => { x with out := [(6, T.entry)], tokenSeq := 4 }) { T.base with jobs := [T.job (.gather 0 3) 3 false] })
    let f : Fn := 7
    (Works s) ∧ (s.start.functionsReady = true) ∧ ((getPort s (portOf f.val)).linkUp = true) ∧ (f.val < s.fns.length)) ∧
    (let s : State := T.base
    let p : Fin 2 := 1
    let q : PortS := ⟨true, true, [], []⟩
    (Works s) ∧ (s.ports[p.val]? = some q) ∧ (q.perstHigh = true)) ∧
    (let s : State := { T.base with ports := [⟨true, true, [], []⟩, ⟨false, false, [⟨7, 3, 0⟩], []⟩] }
    let p : Fin 2 := 1
    let q : PortS := ⟨false, false, [⟨7, 3, 0⟩], []⟩
    (Works s) ∧ (s.ports[p.val]? = some q) ∧ (q.perstHigh = false)) := by decide +kernel

/-- The hypotheses of clauses 1 to 5 of `Obligations.StartUpPhases` can be met. -/
theorem witness_StartUpPhases_1 :
    (let s : State := State.reset
    (Works s) ∧ (s.start.phase = .fuses ∨ s.start.phase = .fill)) ∧
    (let s : State := T.start' (fun x => { x with phase := .selftest }) T.base
    (Works s) ∧ (s.start.phase = .selftest)) ∧
    (let s : State := T.start' (fun x => { x with phase := .selftest }) T.base
    let b : BitVec 16 := 0xFFFF
    let p : BitVec 4 := 7
    (Works s) ∧ (s.start.phase = .selftest) ∧ ((b ≠ 0xFFFF ∨ p ≠ 0xF))) ∧
    (let s : State := T.start' (fun x => { x with functionsReady := false }) T.base
    (Works s) ∧ (pastSelftest s = true) ∧ (s.start.functionsReady = false)) ∧
    (let s : State := T.start' (fun x => { x with straps := ⟨0, 0, 1, 0⟩ }) (T.maq BootRec.blank)
    let boots : Prop := s.start.phase = .maquette ∧ s.fw.booted = false ∧ s.keys.drbgReady = true ∧ s.keys.drbgBlocked = false
    (Works s) ∧ (boots) ∧ (s.start.straps.boot = 1)) := by decide +kernel

/-- The hypotheses of clause 6 of `Obligations.StartUpPhases` can be met. -/
theorem witness_StartUpPhases_6 :
    let s : State := T.maq BootRec.blank
    let boots : Prop := s.start.phase = .maquette ∧ s.fw.booted = false ∧ s.keys.drbgReady = true ∧ s.keys.drbgBlocked = false
    let noTrial : Prop := s.flash.boot.findSlot .trial = none ∧ s.flash.boot.store0 ≠ .trial ∧ s.flash.boot.store1 ≠ .trial
    let noneGood : Prop := s.flash.boot.findSlot .confirmed = none ∧ s.flash.boot.findSlot .previous = none
    (Works s) ∧ (boots) ∧ (s.start.straps.boot ≠ 1) ∧ (noTrial) ∧ (noneGood) ∧ (s.flash.boot.findSlot .staged = none) := by decide +kernel

/-- The hypotheses of clauses 7 to 9 of `Obligations.StartUpPhases` can be met. -/
theorem witness_StartUpPhases_7 :
    (let s : State := T.maq { BootRec.blank with slotB := .staged }
    let boots : Prop := s.start.phase = .maquette ∧ s.fw.booted = false ∧ s.keys.drbgReady = true ∧ s.keys.drbgBlocked = false
    let noTrial : Prop := s.flash.boot.findSlot .trial = none ∧ s.flash.boot.store0 ≠ .trial ∧ s.flash.boot.store1 ≠ .trial
    let noneGood : Prop := s.flash.boot.findSlot .confirmed = none ∧ s.flash.boot.findSlot .previous = none
    let b : Bool := true
    (Works s) ∧ (boots) ∧ (s.start.straps.boot ≠ 1) ∧ (s.start.straps.boot ≠ 2) ∧ (noTrial) ∧ (noneGood) ∧ (s.flash.boot.findSlot .staged = some b) ∧ (headerOk s (s.flash.image b) = false)) ∧
    (let s : State := T.start' (fun x => { x with phase := .init }) T.base
    (Works s) ∧ (s.start.phase = .init) ∧ (s.keys.drbgBlocked = false) ∧ (calibrating s = false)) ∧
    (let s : State := T.fw (fun w => { w with booted := true }) (T.maq BootRec.blank)
    (Works s) ∧ (s.start.phase = .maquette) ∧ (s.fw.booted = true) ∧ (s.keys.drbgBlocked = false)) := by decide +kernel

/-- The hypotheses of clauses 1 to 5 of `Obligations.InServiceTest` can be met. -/
theorem witness_InServiceTest_1 :
    (let s : State := T.base
    let dock (enter : Bool) (v : Word) : Word := setBitAt 31 (setBitAt 8 (setBitAt 9 v (!enter)) enter) true
    let f : Fn := 0
    let v : Word := 5
    (Works s) ∧ (Accepts s f.val Reg.TEST_DOCK (dock true v) = true) ∧ (dockOk s (bitsOf 2 0 v) = true)) ∧
    (let s : State := T.base
    let dock (enter : Bool) (v : Word) : Word := setBitAt 31 (setBitAt 8 (setBitAt 9 v (!enter)) enter) true
    let f : Fn := 0
    let v : Word := 6
    (Works s) ∧ (Accepts s f.val Reg.TEST_DOCK (dock true v) = true) ∧ (dockOk s (bitsOf 2 0 v) = false)) ∧
    (let s : State := T.start' (fun x => { x with docked := some 5 }) T.base
    let dock (enter : Bool) (v : Word) : Word := setBitAt 31 (setBitAt 8 (setBitAt 9 v (!enter)) enter) true
    let f : Fn := 0
    let v : Word := 5
    (Works s) ∧ (Accepts s f.val Reg.TEST_DOCK (dock false v) = true) ∧ (s.start.docked = some (bitsOf 2 0 v))) ∧
    (let s : State := T.base
    let dock (enter : Bool) (v : Word) : Word := setBitAt 31 (setBitAt 8 (setBitAt 9 v (!enter)) enter) true
    let f : Fn := 0
    let v : Word := 5
    (Works s) ∧ (Accepts s f.val Reg.TEST_DOCK (dock false v) = true) ∧ (s.start.docked ≠ some (bitsOf 2 0 v))) ∧
    (let s : State := T.start' (fun x => { x with docked := some 5, dockTesting := true }) T.base
    let n : Nat := 5
    (Works s) ∧ (s.start.docked = some n) ∧ (n < 6) ∧ (s.start.dockTesting = true)) := by decide +kernel

/-- The hypotheses of clauses 6 to 8 of `Obligations.InServiceTest` can be met. -/
theorem witness_InServiceTest_6 :
    (let s : State := T.start' (fun x => { x with katNext := 30 }) (fset 0 Fl.TEST_KAT_CFG_EN 1 T.base)
    (Works s) ∧ (s.start.phase ≠ .halted) ∧ (fbit s 0 Fl.TEST_KAT_CFG_EN = true) ∧ (s.start.katUnit = none) ∧ (12 ≤ s.start.katNext) ∧ (s.start.katNext ≤ 30) ∧ (unitFenced s s.start.katNext = false)) ∧
    (let s : State := T.start' (fun x => { x with katUnit := some 30 }) (modCampS (fun c => { c with preparing := [(3, 0)] }) T.base)
    let u : Nat := 30
    (Works s) ∧ (s.start.phase ≠ .halted) ∧ (s.start.katUnit = some u) ∧ (engineIdle s u = false)) ∧
    (let s : State := T.start' (fun x => { x with katUnit := some 30 }) T.base
    let u : Nat := 30
    (Works s) ∧ (s.start.phase ≠ .halted) ∧ (s.start.katUnit = some u) ∧ (engineIdle s u = true)) := by decide +kernel

/-- The hypotheses of clauses 9 to 12 of `Obligations.InServiceTest` can be met. -/
theorem witness_InServiceTest_9 :
    (let s : State := T.start' (fun x => { x with katUnit := some 30 }) T.base
    let noneOnAir : Prop := ∀ n : Fin 6, (getBerth s n.val).onAir = none
    let u : Nat := 30
    (Works s) ∧ (s.start.phase ≠ .halted) ∧ (s.start.katUnit = some u) ∧ (u < 31) ∧ (engineIdle s u = true) ∧ (unitFenced s u = false) ∧ (breaksFloor s u = false) ∧ (noneOnAir)) ∧
    (let s : State := T.base
    let noneOnAir : Prop := ∀ n : Fin 6, (getBerth s n.val).onAir = none
    let f : Fn := 0
    let v : Word := 0x8000001E
    (Works s) ∧ (Accepts s f.val Reg.TEST_FENCE v = true) ∧ (bitAt 31 v = true) ∧ (testFenceOk s f.val v = true) ∧ (noneOnAir)) ∧
    (let s : State := T.base
    let f : Fn := 0
    let v : Word := 0x8000001F
    (Works s) ∧ (Accepts s f.val Reg.TEST_FENCE v = true) ∧ (testFenceOk s f.val v = false)) ∧
    (let s : State := T.start' (fun x => { x with ports := x.ports.set 3 ⟨[⟨9, true⟩], 0, false, []⟩ }) T.granted
    let f : Fn := 7
    let p : Fin 4 := 3
    let x : PortTap := ⟨[⟨9, true⟩], 0, false, []⟩
    let w : TapWord := ⟨9, true⟩
    let rest : List TapWord := []
    (Works s) ∧ (Readable s f.val (Reg.BRINGUP_PORT_DATA + 0x10 * p.val) = true) ∧ (s.start.ports[p.val]? = some x) ∧ (x.fifo = w :: rest)) := by decide +kernel

/-- The hypotheses of clauses 13 to 18 of `Obligations.InServiceTest` can be met. -/
theorem witness_InServiceTest_13 :
    (let s : State := T.start' (fun x => { x with phase := .init }) T.granted
    let f : Fn := 7
    let p : Fin 4 := 3
    let x : PortTap := ⟨[], 0, false, []⟩
    (Works s) ∧ (Readable s f.val (Reg.BRINGUP_PORT_DATA + 0x10 * p.val) = true) ∧ (s.start.ports[p.val]? = some x) ∧ (x.fifo = []) ∧ (stalling s = true) ∧ ((∀ q : Fin 4, fbit s (0x10 * q.val) Fl.BRINGUP_PORT_CFG_TAP_EN = false))) ∧
    (let s : State := T.start' (fun x => { x with ports := x.ports.set 3 ⟨[], 8, false, [(7, 900)]⟩ }) T.base
    let p : Fin 4 := 3
    let x : PortTap := ⟨[], 8, false, [(7, 900)]⟩
    let f : Nat := 7
    let m : Nat := 900
    let rest : List (Nat × Nat) := []
    (Works s) ∧ (s.start.ports[p.val]? = some x) ∧ (x.fifo = []) ∧ (x.stalled = (f, m) :: rest)) ∧
    (let s : State := T.base
    (Works s) ∧ (mgmtOn s = true)) ∧
    (let s : State := T.base
    (Works s) ∧ (mgmtOn s = true)) ∧
    (let s : State := T.base
    (Works s) ∧ (mgmtOn s = true)) ∧
    (let s : State := T.base
    (Works s)) := by decide +kernel

/-- The hypotheses of clauses 1 to 5 of `Obligations.RegisterAccesses` can be met. -/
theorem witness_RegisterAccesses_1 :
    (let s : State := T.base
    let f : Fn := 7
    let off : Nat := 0x8402
    let shape : Shape := .word
    let c : BusCause := .size
    (Works s) ∧ (hostReady s f.val = true) ∧ (reach s f.val off shape = .err c)) ∧
    (let s : State := T.granted
    let f : Fn := 7
    let off : Nat := Reg.CLAIM_CFG
    let v : Word := 0
    let b : Block := .claim
    let r : RegRow := ⟨Reg.CLAIM_CFG, 4, 1, .posted, 0x7F013FFF, 0x0, 0x0, 0x1000032, [⟨0, 13, .range 10 10000⟩, ⟨24, 30, .range 1 100⟩]⟩
    let i : Nat := 0
    (Works s) ∧ (hostReady s f.val = true) ∧ (reach s f.val off .word = .reg b r i) ∧ (blockLive s b = true) ∧ (isStatus b r = false) ∧ (blockBusy s b = false) ∧ (checksOk r v = false)) ∧
    (let s : State := { T.granted with posted := [⟨.claim, 7, Reg.CLAIM_CFG, 0⟩] }
    let f : Fn := 7
    let off : Nat := Reg.CLAIM_CFG
    let b : Block := .claim
    let r : RegRow := ⟨Reg.CLAIM_CFG, 4, 1, .posted, 0x7F013FFF, 0x0, 0x0, 0x1000032, [⟨0, 13, .range 10 10000⟩, ⟨24, 30, .range 1 100⟩]⟩
    let i : Nat := 0
    (Works s) ∧ (hostReady s f.val = true) ∧ (reach s f.val off .word = .reg b r i) ∧ (blockLive s b = true) ∧ (isStatus b r = false) ∧ (blockBusy s b = true)) ∧
    (let s : State := T.granted
    let f : Fn := 7
    let v : Word := 0x100000A
    (Works s) ∧ (Accepts s f.val Reg.CLAIM_CFG v = true)) ∧
    (let s : State := { T.granted with posted := [⟨.claim, 7, Reg.CLAIM_CFG, 10⟩] }
    let f : Fn := 7
    let v : Word := 10
    (Works s) ∧ (s.posted = [⟨.claim, f, Reg.CLAIM_CFG, v⟩])) := by decide +kernel

/-- The hypotheses of clauses 6 to 10 of `Obligations.RegisterAccesses` can be met. -/
theorem witness_RegisterAccesses_6 :
    (let s : State := T.base
    let f : Fn := 0
    let off : Nat := Reg.CAMP_CFG
    let v : Word := 0x1010000
    let r : RegRow := ⟨Reg.CAMP_CFG, 4, 1, .plain, 0xF3FF73F, 0x0, 0x0, 0x43F300F, [⟨8, 10, .oneOf [0, 5, 6]⟩, ⟨16, 21, .range 1 63⟩, ⟨24, 27, .range 1 15⟩]⟩
    let i : Nat := 0
    (Works s) ∧ (Accepts s f.val off v = true) ∧ (reach s f.val off .word = .reg .camp r i) ∧ (off ≠ Reg.CAMP_CNT_SAT)) ∧
    (let s : State := wr Reg.KEY_CNT_SAT 0x3FF T.base
    let f : Fn := 0
    let v : Word := 0x200
    let i : Fin 10 := 9
    (Works s) ∧ (Accepts s f.val Reg.KEY_CNT_SAT v = true) ∧ (bitAt i.val v = true)) ∧
    (let s : State := T.base
    let f : Fn := 0
    let v : Word := 0x800000FF
    (Works s) ∧ (Accepts s f.val Reg.GEVT_INJECT v = true) ∧ (bitAt 31 v = true)) ∧
    (let s : State := T.base
    let f : Fn := 7
    let off : Nat := 0x8401
    let shape : Shape := .word
    let c : BusCause := .size
    (Works s) ∧ (hostReady s f.val = true) ∧ (reach s f.val off shape = .err c)) ∧
    (let s : State := T.base
    let f : Fn := 0
    let off : Nat := Reg.CAMP_CFG
    let r : RegRow := ⟨Reg.CAMP_CFG, 4, 1, .plain, 0xF3FF73F, 0x0, 0x0, 0x43F300F, [⟨8, 10, .oneOf [0, 5, 6]⟩, ⟨16, 21, .range 1 63⟩, ⟨24, 27, .range 1 15⟩]⟩
    let i : Nat := 0
    let b : Block := .camp
    (Works s) ∧ (hostReady s f.val = true) ∧ (reach s f.val off .word = .reg b r i) ∧ (b ≠ .time) ∧ (b ≠ .mac) ∧ (b ≠ .bringup) ∧ (b ≠ .tbl)) := by decide +kernel

/-- The hypotheses of clause 1 of `Obligations.AtRestKept` can be met. -/
theorem witness_AtRestKept_1 :
    let s : State := settle T.base
    let t : State := settle (tapAll (settle T.base) (idleTick (settle T.base)))
    (AtRest s) ∧ (step s = .next t) := by
  exact ⟨by decide +kernel, step_idle (by rw [settle_pending]; rfl) (by rw [settle_start]; rfl)⟩

/-- The hypotheses of clauses 1 to 2 of `Obligations.HeldDeviceWaits` can be met. -/
theorem witness_HeldDeviceWaits_1 :
    (let s : State := T.start' (fun x => { x with held := true, porLow := true }) T.base
    (s.start.held = true) ∧ (s.pending = [])) ∧
    (let c : Instr := .fillDone
    let s : State := T.start' (fun x => { x with held := true, porLow := true }) T.base
    (s.start.held = true) ∧ ((match c with
      | .powerOnReset _ _ | .porNAssert | .brownOut | .brownOutEnd _ _ | .tapReset | .tapInstruction _ | .vbatApplied | .vbatLoss
      | .tamperTrip _ _ | .bollardBusChange _ | .portResetAssert _ | .portResetRelease _ => true
      | _ => false) = false)) := by decide +kernel

/-- The hypotheses of clauses 1 to 2 of `Obligations.FailoverOnlyInforms` can be met. -/
theorem witness_FailoverOnlyInforms_1 :
    (let s : State := T.base
    (Works s) ∧ (s.claim.failoverOut = false)) ∧
    (let s : State := { T.base with claim := { ClaimS.reset with failoverOut := true } }
    (Works s) ∧ (s.claim.failoverOut = true)) := by decide +kernel

/-- The hypotheses of clauses 4 to 10 of `Obligations.ResetOutLevel` can be met. -/
theorem witness_ResetOutLevel_4 :
    (let s : State := T.start' (fun x => { x with brownOut := true, held := true }) T.rooted
    (s.start.brownOut = true)) ∧
    (let s : State := T.rooted
    let f : Fn := 0
    let v : Word := 0x80005EA1
    (Works s) ∧ (Accepts s f.val Reg.TEST_RESET v = true) ∧ (testResetOk s f.val v = true)) ∧
    (let s : State := T.rooted
    let i : TapInstr := .extest
    (s.start.held = false) ∧ (i.holds = true)) ∧
    (let s : State := T.fw (fun w => { w with resetMono := some (900, 4) }) T.base
    let p : Nat × Nat := (900, 4)
    (Works s) ∧ (s.fw.resetMono = some p)) ∧
    (let s : State := T.plinth (fun p => { p with scuttleMono := some 900 }) T.base
    let m : Nat := 900
    (Works s) ∧ (s.plinth.scuttleMono = some m)) ∧
    (let s : State := T.start' (fun x => { x with phase := .selftest }) T.base
    (Works s) ∧ (s.start.phase = .selftest)) := by decide +kernel

/-- The hypotheses of clauses 11 to 15 of `Obligations.ResetOutLevel` can be met. -/
theorem witness_ResetOutLevel_11 :
    (let s : State := T.start' (fun x => { x with phase := .selftest }) T.base
    let b : BitVec 16 := 0xFFFF
    let p : BitVec 4 := 7
    (Works s) ∧ (s.start.phase = .selftest) ∧ ((b ≠ 0xFFFF ∨ p ≠ 0xF))) ∧
    (let s : State := settle T.base
    (Works s) ∧ (heldNow s.start = false) ∧ (AtRest s)) ∧
    (let s : State := settle T.base
    (Works s) ∧ (heldNow s.start = false) ∧ (AtRest s)) ∧
    (let s : State := settle { T.base with ports := [⟨true, true, [], []⟩, ⟨false, false, [], []⟩] }
    (Works s) ∧ (heldNow s.start = false) ∧ (AtRest s)) ∧
    (let s : State := settle T.base
    (Works s) ∧ (heldNow s.start = false) ∧ (AtRest s)) := by decide +kernel

/-- The hypotheses of clause 9 of `Obligations.ResetOutLevel` can be met. -/
theorem witness_ResetOutLevel_9 :
    let s : State := settle (T.start' (fun x => { x with held := true, porLow := true, phase := .fuses }) T.base)
    let c : Instr := .fillDone
    let t : State := settle (T.start' (fun x => { x with held := true, porLow := true, phase := .fuses }) T.base)
    (AtRest s) ∧ (exec c s = .next t) ∧ (t.start.phase = .fuses ∨ t.start.phase = .fill ∨ t.start.phase = .selftest ∨ t.start.phase = .halted) := by
  exact ⟨by decide +kernel, T.held_stays _ (by decide +kernel), by decide +kernel⟩

/-- The hypotheses of clauses 3 to 8 of `Obligations.RsnConversion` can be met. -/
theorem witness_RsnConversion_3 :
    (let x : Nat := 4145475839
    (x < 4145475840)) ∧
    (let x : Nat := 4145475839
    (x < 4145475840)) ∧
    (let x : Nat := 4145475839
    (x < 4145475840)) ∧
    (let x : Nat := 4145475839
    (x < 4145475840)) ∧
    (let x : Nat := 4145475839
    (x < 4145475840)) ∧
    (let s : State := wr Reg.TIME_CONV_IN_LO (⟨64, 145, 144, 16⟩ : Rsn).word (wr Reg.TIME_CONV_IN_HI 65535 T.base)
    let v : Word := 0x80000000
    let r : Rsn := ⟨64, 145, 144, 16⟩
    (Works s) ∧ (bitAt 31 v = true) ∧ (bitAt 0 v = false) ∧ (Rsn.ofWord (rd s Reg.TIME_CONV_IN_LO) = some r)) := by decide +kernel

/-- The hypotheses of clauses 9 to 11 of `Obligations.RsnConversion` can be met. -/
theorem witness_RsnConversion_9 :
    (let s : State := wr Reg.TIME_CONV_IN_LO 0xFFFFFFFF (wr Reg.TIME_CONV_IN_HI 255 T.base)
    let v : Word := 0x80000001
    (Works s) ∧ (bitAt 31 v = true) ∧ (bitAt 0 v = true)) ∧
    (let s : State := wr Reg.TIME_CONV_IN_LO 0xFFFFFFFF T.base
    let v : Word := 0x80000000
    (Works s) ∧ (bitAt 31 v = true) ∧ (bitAt 0 v = false) ∧ (Rsn.ofWord (rd s Reg.TIME_CONV_IN_LO) = none)) ∧
    (let s : State := T.base
    let v : Word := 1
    (Works s) ∧ (bitAt 31 v = false)) := by decide +kernel

/-- The hypotheses of clauses 7 to 12 of `Obligations.SlotOrder` can be met. -/
theorem witness_SlotOrder_7 :
    (let a : SlotName := ⟨65534, Rsn.last⟩
    (a.epoch ≠ 65535)) ∧
    (let a : SlotName := ⟨265, Rsn.last⟩
    let k : Nat := 1
    (a.count + k < 65536 * 4145475840)) ∧
    (let a : SlotName := ⟨265, Rsn.last⟩
    let k : Nat := 1
    (a.count + k < 65536 * 4145475840)) ∧
    (let a : SlotName := ⟨265, Rsn.last⟩
    let k : Nat := 1
    (a.count + k < 65536 * 4145475840)) ∧
    (let a : SlotName := ⟨265, Rsn.last⟩
    let k : Nat := 1
    (a.count + k < 65536 * 4145475840)) ∧
    (let a : SlotName := ⟨265, Rsn.last⟩
    let k : Nat := 1
    (a.count + k < 65536 * 4145475840)) := by decide +kernel

/-- The hypotheses of clause 13 of `Obligations.SlotOrder` can be met. -/
theorem witness_SlotOrder_13 :
    let a : SlotName := ⟨265, Rsn.last⟩
    let k : Nat := 1
    (a.count + k < 65536 * 4145475840) := by decide +kernel

/-- The hypotheses of clauses 2 to 8 of `Obligations.StoredForms` can be met. -/
theorem witness_StoredForms_2 :
    (let w : Word := 0xFFFEFCFA
    let r : Rsn := ⟨255, 254, 252, 250⟩
    (Rsn.ofWord w = some r)) ∧
    (let w : Word := 0x00FF0000
    (Rsn.ofWord w = none)) := by decide +kernel

/-- The hypotheses of clauses 1 to 6 of `Obligations.EventsRaised` can be met. -/
theorem witness_EventsRaised_1 :
    (let o : EvOcc := ⟨255, false, 0, 0, 0, 0, false⟩
    let s : State := T.base
    (o.code < 256) ∧ (s.fns.length = 8)) ∧
    (let o : EvOcc := ⟨255, false, 0, 0, 0, 0, false⟩
    let s : State := T.base
    let c : Fin 256 := 254
    (o.code < 256) ∧ (s.fns.length = 8) ∧ (c.val ≠ o.code)) ∧
    (let o : EvOcc := ⟨255, false, 0, 0, 0, 0, false⟩
    let s : State := T.base
    (o.code < 256) ∧ (s.fns.length = 8)) ∧
    (let o : EvOcc := ⟨255, false, 0, 0, 0, 0, false⟩
    let s : State := T.base
    let k : Nat := 0x8820
    (o.code < 256) ∧ (s.fns.length = 8) ∧ (eventKey k = false)) ∧
    (let o : EvOcc := ⟨255, false, 0, 0, 0, 0, false⟩
    let s : State := T.base
    (o.code < 256) ∧ (s.fns.length = 8)) ∧
    (let o : EvOcc := ⟨255, false, 0, 0, 0, 0, false⟩
    let s : State := T.base
    (o.code < 256) ∧ (s.fns.length = 8)) := by decide +kernel

/-- The hypotheses of clause 7 of `Obligations.EventsRaised` can be met. -/
theorem witness_EventsRaised_7 :
    let o : EvOcc := ⟨255, false, 0, 0, 0, 0, false⟩
    let s : State := T.base
    (o.code < 256) ∧ (s.fns.length = 8) := by decide +kernel

/-- The hypotheses of clauses 1 to 4 of `Obligations.CountersStop` can be met. -/
theorem witness_CountersStop_1 :
    (let base : Nat := 0
    let c : Cnt := Ct.MAC_RX_ACCEPT
    (c.off ≠ c.sat) ∧ (c.bit < 32) ∧ (eventKey (base + c.off) = false) ∧ (eventKey (base + c.sat) = false)) ∧
    (let base : Nat := 0
    let n : Nat := 0xFFFFFFFE
    let c : Cnt := Ct.MAC_RX_ACCEPT
    let s : State := T.base
    let k : Nat := 0
    (c.off ≠ c.sat) ∧ (c.bit < 32) ∧ (eventKey (base + c.off) = false) ∧ (eventKey (base + c.sat) = false) ∧ ((rd s (base + c.off)).toNat + n < 0xFFFFFFFF) ∧ (k ≠ base + c.off)) ∧
    (let base : Nat := 0
    let n : Nat := 0xFFFFFFFE
    let c : Cnt := Ct.MAC_RX_ACCEPT
    let s : State := T.base
    (c.off ≠ c.sat) ∧ (c.bit < 32) ∧ (eventKey (base + c.off) = false) ∧ (eventKey (base + c.sat) = false) ∧ ((rd s (base + c.off)).toNat + n < 0xFFFFFFFF)) ∧
    (let base : Nat := 0
    let n : Nat := 0xFFFFFFFF
    let c : Cnt := Ct.MAC_RX_ACCEPT
    let s : State := T.base
    (c.off ≠ c.sat) ∧ (c.bit < 32) ∧ (eventKey (base + c.off) = false) ∧ (eventKey (base + c.sat) = false) ∧ (0xFFFFFFFF ≤ (rd s (base + c.off)).toNat + n)) := by decide +kernel

/-- The hypotheses of clauses 5 to 7 of `Obligations.CountersStop` can be met. -/
theorem witness_CountersStop_5 :
    (let base : Nat := 0
    let n : Nat := 0xFFFFFFFF
    let c : Cnt := Ct.MAC_RX_ACCEPT
    let s : State := T.base
    (c.off ≠ c.sat) ∧ (c.bit < 32) ∧ (eventKey (base + c.off) = false) ∧ (eventKey (base + c.sat) = false) ∧ (0xFFFFFFFF ≤ (rd s (base + c.off)).toNat + n) ∧ (bitAt c.bit (rd s (base + c.sat)) = false)) ∧
    (let base : Nat := 0
    let n : Nat := 0xFFFFFFFF
    let c : Cnt := Ct.MAC_RX_ACCEPT
    let s : State := T.base
    let k : Nat := 0
    (c.off ≠ c.sat) ∧ (c.bit < 32) ∧ (eventKey (base + c.off) = false) ∧ (eventKey (base + c.sat) = false) ∧ (0xFFFFFFFF ≤ (rd s (base + c.off)).toNat + n) ∧ (bitAt c.bit (rd s (base + c.sat)) = false) ∧ (eventKey k = false) ∧ (k ≠ base + c.off) ∧ (k ≠ base + c.sat)) ∧
    (let base : Nat := 0
    let n : Nat := 1
    let c : Cnt := Ct.MAC_RX_ACCEPT
    let s : State := wr Reg.MAC_CNT_SAT 0xFFFFFFFF (wr Reg.MAC_RX_ACCEPT_CNT 0xFFFFFFFF T.base)
    (c.off ≠ c.sat) ∧ (c.bit < 32) ∧ (eventKey (base + c.off) = false) ∧ (eventKey (base + c.sat) = false) ∧ (0xFFFFFFFF ≤ (rd s (base + c.off)).toNat + n) ∧ (bitAt c.bit (rd s (base + c.sat)) = true)) := by decide +kernel

/-- The hypotheses of clause 8 of `Obligations.CountersStop` can be met. -/
theorem witness_CountersStop_8 :
    let base : Nat := 0
    let n : Nat := 1
    let c : Cnt := Ct.MAC_RX_ACCEPT
    let s : State := wr Reg.MAC_CNT_SAT 0xFFFFFFFF (wr Reg.MAC_RX_ACCEPT_CNT 0xFFFFFFFF T.base)
    let k : Nat := 0
    (c.off ≠ c.sat) ∧ (c.bit < 32) ∧ (eventKey (base + c.off) = false) ∧ (eventKey (base + c.sat) = false) ∧ (0xFFFFFFFF ≤ (rd s (base + c.off)).toNat + n) ∧ (bitAt c.bit (rd s (base + c.sat)) = true) ∧ (k ≠ base + c.off) := by decide +kernel

/-- The hypotheses of clause 1 of `Obligations.LastingStateKept` can be met. -/
theorem witness_LastingStateKept_1 :
    let c : Instr := .fillDone
    let s : State := settle (T.start' (fun x => { x with held := true, porLow := true }) T.base)
    let t : State := settle (T.start' (fun x => { x with held := true, porLow := true }) T.base)
    (exec c s = .next t) ∧ ((match c with
      | .registerWrite _ _ _ _ | .postedWriteAck _ | .cntSatClear _ _ _ | .profileFuseDone _ | .scuttleReset | .provisioned _
      | .fieldRepairDone _ | .takeoverDone | .fwStageOpen _ _ | .fwStageChunk _ _ | .fwStageCloseCommit _ | .fwStageCloseAbandon _
      | .fwBreak _ | .fwVouch _ | .fwReject _ | .trialConfirmCheck | .trialReset | .fwSignerFuse _ _ _ | .fwSignerRevoke _ _
      | .fwSetWrite _ _ | .fallbackClear _ | .powerOnReset _ _ | .brownOut | .brownOutEnd _ _ | .porNAssert | .testReset _ _
      | .tapInstruction _ | .selftestDone _ _ | .fwBooted => true
      | _ => false) = false) := by
  exact ⟨T.held_stays _ (by decide +kernel), rfl⟩

/-- The hypotheses of clause 2 of `Obligations.LastingStateKept` can be met. -/
theorem witness_LastingStateKept_2 :
    let c : Instr := .fillDone
    let s : State := settle (T.start' (fun x => { x with held := true, porLow := true }) T.base)
    let t : State := settle (T.start' (fun x => { x with held := true, porLow := true }) T.base)
    (exec c s = .next t) ∧ ((match c with
      | .registerWrite _ _ _ _ | .postedWriteAck _ | .cntSatClear _ _ _ | .profileFuseDone _ | .scuttleReset | .provisioned _
      | .fieldRepairDone _ | .takeoverDone | .fwStageOpen _ _ | .fwStageChunk _ _ | .fwStageCloseCommit _ | .fwStageCloseAbandon _
      | .fwBreak _ | .fwVouch _ | .fwReject _ | .trialConfirmCheck | .trialReset | .fwSignerFuse _ _ _ | .fwSignerRevoke _ _
      | .fwSetWrite _ _ | .fallbackClear _ | .powerOnReset _ _ | .brownOut | .brownOutEnd _ _ | .porNAssert | .testReset _ _
      | .tapInstruction _ | .selftestDone _ _ | .fwBooted => true
      | _ => false) = false) := by
  exact ⟨T.held_stays _ (by decide +kernel), rfl⟩

/-- The hypotheses of clauses 1 to 5 of `Obligations.SlotframePositions` can be met. -/
theorem witness_SlotframePositions_1 :
    (let s : State := wr Reg.MAC_HOP_CFG 7 (wr Reg.MAC_SF_CFG 16711680 T.base)
    let h : Nat := 0
    let q : Nat := 0
    (0 < sfLen s h) ∧ (4145475840 % sfLen s h = 0) ∧ (0 < hopLen s q)) ∧
    (let s : State := wr Reg.MAC_HOP_CFG 7 (wr Reg.MAC_SF_CFG 16711680 T.base)
    let h : Nat := 0
    let q : Nat := 0
    (0 < sfLen s h) ∧ (4145475840 % sfLen s h = 0) ∧ (0 < hopLen s q)) ∧
    (let s : State := wr Reg.MAC_HOP_CFG 7 (wr Reg.MAC_SF_CFG 16711680 T.base)
    let n : SlotName := ⟨264, Rsn.last⟩
    let h : Nat := 0
    let q : Nat := 0
    (0 < sfLen s h) ∧ (4145475840 % sfLen s h = 0) ∧ (0 < hopLen s q) ∧ (n.epoch.toNat < 265)) ∧
    (let s : State := wr Reg.MAC_HOP_CFG 7 (wr Reg.MAC_SF_CFG 16777216 T.base)
    let n : SlotName := ⟨264, Rsn.last⟩
    let h : Nat := 0
    let q : Nat := 0
    let len := sfLen s h
    (0 < sfLen s h) ∧ (4145475840 % sfLen s h = 0) ∧ (0 < hopLen s q) ∧ (n.epoch.toNat < 265) ∧ (len = 256)) ∧
    (let s : State := wr Reg.MAC_HOP_CFG 7 (wr Reg.MAC_SF_CFG 16711680 T.base)
    let n : SlotName := ⟨264, Rsn.last⟩
    let h : Nat := 0
    let q : Nat := 0
    let len := sfLen s h
    (0 < sfLen s h) ∧ (4145475840 % sfLen s h = 0) ∧ (0 < hopLen s q) ∧ (n.epoch.toNat < 265) ∧ (len = 255)) := by decide +kernel

/-- The hypotheses of clauses 6 to 8 of `Obligations.SlotframePositions` can be met. -/
theorem witness_SlotframePositions_6 :
    (let s : State := wr Reg.MAC_HOP_CFG 7 (wr Reg.MAC_SF_CFG 16580608 T.base)
    let n : SlotName := ⟨264, Rsn.last⟩
    let h : Nat := 0
    let q : Nat := 0
    let len := sfLen s h
    (0 < sfLen s h) ∧ (4145475840 % sfLen s h = 0) ∧ (0 < hopLen s q) ∧ (n.epoch.toNat < 265) ∧ (len = 253)) ∧
    (let s : State := wr Reg.MAC_HOP_CFG 7 (wr Reg.MAC_SF_CFG 16449536 T.base)
    let n : SlotName := ⟨264, Rsn.last⟩
    let h : Nat := 0
    let q : Nat := 0
    let len := sfLen s h
    (0 < sfLen s h) ∧ (4145475840 % sfLen s h = 0) ∧ (0 < hopLen s q) ∧ (n.epoch.toNat < 265) ∧ (len = 251)) ∧
    (let s : State := wr Reg.MAC_HOP_CFG 7 (wr Reg.MAC_SF_CFG 16711680 T.base)
    let h : Nat := 0
    let q : Nat := 0
    (0 < sfLen s h) ∧ (4145475840 % sfLen s h = 0) ∧ (0 < hopLen s q)) := by decide +kernel
end

section
/-!
PROOF. Stored forms: octets of numbers (R4), RSNs in register words (R7, R69) and slot names in descriptor octets (R69, R239).
-/

namespace Sys2Proof.Machine

/-! Octets of a number, least significant first -/

@[simp] theorem length_leBytes (n v : Nat) : (leBytes n v).length = n := by
  induction n generalizing v with
  | zero => rfl
  | succ n ih => rw [leBytes, List.length_cons, ih]

@[simp] theorem ofLeBytes_leBytes (n v : Nat) : ofLeBytes (leBytes n v) = v % 256 ^ n := by
  induction n generalizing v with
  | zero => rw [leBytes, ofLeBytes, Nat.pow_zero, Nat.mod_one]
  | succ n ih => rw [leBytes, ofLeBytes, ih, BitVec.toNat_ofNat, Nat.mod_mod, Nat.pow_succ', Nat.mod_mul]

theorem leBytes_ofLeBytes (bs : List Byte) : leBytes bs.length (ofLeBytes bs) = bs := by
  induction bs with
  | nil => rfl
  | cons b bs ih =>
    have hlow : (b.toNat + 256 * ofLeBytes bs) % 256 = b.toNat := by omega
    have hhigh : (b.toNat + 256 * ofLeBytes bs) / 256 = ofLeBytes bs := by omega
    simp only [List.length_cons, leBytes, ofLeBytes, hlow, hhigh, ih, BitVec.ofNat_toNat, BitVec.setWidth_eq]

/-- A word survives being stored in octets that have room for it. -/
theorem ofNat_ofLeBytes_leBytes {m n : Nat} (hroom : 2 ^ m ≤ 256 ^ n) (x : BitVec m) :
    BitVec.ofNat m (ofLeBytes (leBytes n x.toNat)) = x := by
  rw [ofLeBytes_leBytes, Nat.mod_eq_of_lt (Nat.lt_of_lt_of_le x.isLt hroom), BitVec.ofNat_toNat, BitVec.setWidth_eq]

/-! The register word of an RSN -/

theorem bitsOf_eq_div_mod (hi lo : Nat) (w : Word) : bitsOf hi lo w = w.toNat / 2 ^ lo % 2 ^ (hi + 1 - lo) := by
  rw [bitsOf, Nat.shiftRight_eq_div_pow]

/-- A word is its four octets. -/
theorem toNat_eq_octets (w : Word) :
    w.toNat = bitsOf 31 24 w * 2 ^ 24 + bitsOf 23 16 w * 2 ^ 16 + bitsOf 15 8 w * 2 ^ 8 + bitsOf 7 0 w := by
  simp only [bitsOf_eq_div_mod]
  omega

theorem rsnOk_iff (w : Word) : rsnOk w = true ↔ bitsOf 23 16 w < 255 ∧ bitsOf 15 8 w < 253 ∧ bitsOf 7 0 w < 251 := by
  simp only [rsnOk, Bool.and_eq_true, decide_eq_true_eq, and_assoc]

namespace Rsn

theorem toNat_word (r : Rsn) :
    r.word.toNat = r.r256.val * 2 ^ 24 + r.r255.val * 2 ^ 16 + r.r253.val * 2 ^ 8 + r.r251.val := by
  rw [word, BitVec.toNat_ofNat]
  omega

@[simp] theorem bitsOf_word_r256 (r : Rsn) : bitsOf 31 24 r.word = r.r256.val := by
  rw [bitsOf_eq_div_mod, toNat_word]
  omega

@[simp] theorem bitsOf_word_r255 (r : Rsn) : bitsOf 23 16 r.word = r.r255.val := by
  rw [bitsOf_eq_div_mod, toNat_word]
  omega

@[simp] theorem bitsOf_word_r253 (r : Rsn) : bitsOf 15 8 r.word = r.r253.val := by
  rw [bitsOf_eq_div_mod, toNat_word]
  omega

@[simp] theorem bitsOf_word_r251 (r : Rsn) : bitsOf 7 0 r.word = r.r251.val := by
  rw [bitsOf_eq_div_mod, toNat_word]
  omega

theorem rsnOk_word (r : Rsn) : rsnOk r.word = true := by
  rw [rsnOk_iff, bitsOf_word_r255, bitsOf_word_r253, bitsOf_word_r251]
  exact ⟨r.r255.isLt, r.r253.isLt, r.r251.isLt⟩

@[simp] theorem ofWord_word (r : Rsn) : ofWord r.word = some r := by
  rw [ofWord, if_pos (rsnOk_word r)]
  simp only [bitsOf_word_r256, bitsOf_word_r255, bitsOf_word_r253, bitsOf_word_r251, Fin.ofNat_val_eq_self]

theorem word_injective : Function.Injective word := fun a b h =>
  Option.some.inj (by rw [← ofWord_word a, h, ofWord_word])

/-- Only the low three residues have a range to miss: r256 takes every octet (R69). -/
theorem ofWord_eq_none_iff (w : Word) : ofWord w = none ↔ bitsOf 23 16 w = 255 ∨ 252 < bitsOf 15 8 w ∨ 250 < bitsOf 7 0 w := by
  have hr255 : bitsOf 23 16 w < 2 ^ 8 := bitsOf_lt 23 16 w
  have hnone : ofWord w = none ↔ ¬ rsnOk w = true := by
    simp only [ofWord, ite_eq_right_iff, reduceCtorEq, imp_false]
  rw [hnone, rsnOk_iff]
  omega

theorem word_of_ofWord_eq_some {w : Word} {r : Rsn} (h : ofWord w = some r) : r.word = w := by
  unfold ofWord at h
  split at h
  case isFalse => cases h
  case isTrue hok =>
    obtain ⟨h255, h253, h251⟩ := (rsnOk_iff w).mp hok
    have h256 : bitsOf 31 24 w < 256 := bitsOf_lt 31 24 w
    obtain rfl := Option.some.inj h
    apply BitVec.eq_of_toNat_eq
    rw [toNat_word, toNat_eq_octets w]
    simp only [Fin.val_ofNat, Nat.mod_eq_of_lt h256, Nat.mod_eq_of_lt h255, Nat.mod_eq_of_lt h253, Nat.mod_eq_of_lt h251]

theorem word_eq_zero_iff (r : Rsn) : r.word = 0 ↔ r = ⟨0, 0, 0, 0⟩ :=
  word_injective.eq_iff (b := ⟨0, 0, 0, 0⟩)

end Rsn

/-! The six octets of a slot name -/

section
variable (w : Word) (e : BitVec 16)

theorem storedRsn_eq : BitVec.ofNat 32 (ofLeBytes ((leBytes 4 w.toNat ++ leBytes 2 e.toNat).take 4)) = w := by
  rw [List.take_left' (length_leBytes 4 _), ofNat_ofLeBytes_leBytes (by decide)]

theorem storedEpoch_eq :
    BitVec.ofNat 16 (ofLeBytes (((leBytes 4 w.toNat ++ leBytes 2 e.toNat).drop 4).take 2)) = e := by
  rw [List.drop_left' (length_leBytes 4 _), List.take_of_length_le (Nat.le_of_eq (length_leBytes 2 _)),
    ofNat_ofLeBytes_leBytes (by decide)]

theorem slotFieldOf_of_ofWord_eq_none (h : Rsn.ofWord w = none) :
    slotFieldOf (leBytes 4 w.toNat ++ leBytes 2 e.toNat) = .invalid := by
  simp only [slotFieldOf, storedRsn_eq, h]

theorem slotFieldOf_of_ofWord_eq_some {r : Rsn} (h : Rsn.ofWord w = some r) :
    slotFieldOf (leBytes 4 w.toNat ++ leBytes 2 e.toNat) = if w = 0 ∧ e = 0 then .none else .slot ⟨e, r⟩ := by
  simp only [slotFieldOf, storedRsn_eq, storedEpoch_eq, h]

end

/-- The name that spells none (R239) is the one whose word and epoch are 0. -/
theorem SlotName.eq_zero_iff (n : SlotName) : n = ⟨0, ⟨0, 0, 0, 0⟩⟩ ↔ n.rsn.word = 0 ∧ n.epoch = 0 := by
  obtain ⟨e, r⟩ := n
  rw [Rsn.word_eq_zero_iff, SlotName.mk.injEq, and_comm]

theorem slotFieldOf_stored (n : SlotName) :
    slotFieldOf (leBytes 4 n.rsn.word.toNat ++ leBytes 2 n.epoch.toNat) =
      if n = ⟨0, ⟨0, 0, 0, 0⟩⟩ then .none else .slot n := by
  rw [slotFieldOf_of_ofWord_eq_some _ _ (Rsn.ofWord_word n.rsn)]
  by_cases h : n = ⟨0, ⟨0, 0, 0, 0⟩⟩
  · rw [if_pos ((SlotName.eq_zero_iff n).mp h), if_pos h]
  · rw [if_neg (mt (SlotName.eq_zero_iff n).mpr h), if_neg h]

/-- Settles O56: octets invert octet by octet, an RSN's word inverts residue by residue, and a slot name is such a word and an epoch. -/
theorem storedForms : Obligations.StoredForms :=
  ⟨Rsn.ofWord_word, fun _ _ => Rsn.word_of_ofWord_eq_some, Rsn.ofWord_eq_none_iff,
    fun n v => ⟨ofLeBytes_leBytes n v, length_leBytes n v⟩, leBytes_ofLeBytes, slotFieldOf_stored,
    slotFieldOf_of_ofWord_eq_none⟩

end Sys2Proof.Machine
end

section
/-!
PROOF. Frames that a demodulator follows (R26, R105, R107, R110, R113): how a record closes, what it counts, and the state that the
demodulator takes.
-/

namespace Sys2Proof.Machine

/-! Counters across a step -/

/-- R42, in the terms of statements: what one bump does to its counter. -/
theorem counted_bump {b : Nat} {c : Cnt} (hk : ownKey (b + c.off) = true) (hd : c.off ≠ c.sat) (s : State) :
    Counted s (bump b c s) b c 1 := by
  unfold ownKey at hk
  simp only [Bool.and_eq_true, Bool.not_eq_true'] at hk
  exact rd_bumpBy_self hk.1 hd 1 s

/-- A count from `s` to `t` holds between states that read their counter alike. -/
theorem Counted.congr {s t s' t' : State} {b n : Nat} {c : Cnt} (h : Counted s t b c n)
    (hs : rd s' (b + c.off) = rd s (b + c.off)) (ht : rd t' (b + c.off) = rd t (b + c.off)) : Counted s' t' b c n := by
  unfold Counted at *
  rw [ht, hs, h]

theorem Counted.after {s t u : State} {b n : Nat} {c : Cnt} (h : Counted s t b c n) (hk : ownKey (b + c.off) = true) :
    Counted s (settle (tapAll u t)) b c n := h.congr rfl (rd_after hk)

/-! Berths and demodulators after a change -/

theorem getBerth_modBerth_self {n : Nat} {s : State} (hn : n < s.berths.length) (g : BerthS → BerthS) :
    getBerth (modBerth n g s) n = g (getBerth s n) := by
  simp [getBerth, modBerth, List.getD_eq_getElem?_getD, hn]

theorem getBerth_of_berths {s t : State} (h : t.berths = s.berths) (n : Nat) : getBerth t n = getBerth s n := by
  rw [getBerth, getBerth, h]

theorem getDemod_of_demods {s t : State} {n : Nat} (h : (getBerth t n).demods = (getBerth s n).demods) (j : Nat) :
    getDemod t n j = getDemod s n j := by
  rw [getDemod, getDemod, h]

theorem getDemod_of_berths {s t : State} (h : t.berths = s.berths) (n j : Nat) : getDemod t n j = getDemod s n j :=
  getDemod_of_demods (congrArg BerthS.demods (getBerth_of_berths h n)) j

theorem getDemod_after (u t : State) (n j : Nat) : getDemod (settle (tapAll u t)) n j = getDemod t n j :=
  getDemod_of_berths ((settle_berths _).trans (tapAll_berths u t)) n j

theorem mac_after (u t : State) : (settle (tapAll u t)).mac = t.mac := (settle_mac _).trans (tapAll_mac u t)

theorem getDemod_modDemod_self {n j : Nat} {s : State} (hn : n < s.berths.length) (hj : j < (getBerth s n).demods.length)
    (g : Demod → Demod) : getDemod (modDemod n j g s) n j = g (getDemod s n j) := by
  rw [getDemod, modDemod, getBerth_modBerth_self hn]
  simp [getDemod, List.getD_eq_getElem?_getD, hj]

@[simp] theorem modDemod_mac (n j : Nat) (g : Demod → Demod) (s : State) : (modDemod n j g s).mac = s.mac := rfl
theorem rd_modDemod (n j : Nat) (g : Demod → Demod) (s : State) (k : Nat) : rd (modDemod n j g s) k = rd s k := rfl

/-! Records that close -/

theorem countRecord_bare (r : RxRec) (s : State) : bareEvent (countRecord r s) = bareEvent s := by
  unfold countRecord
  split
  · split
    · exact bump_bare ..
    · rfl
  · dsimp only
    split
    · exact bump_bare ..
    · split
      · rw [bump_bare, bump_bare]
      · exact bump_bare ..

/-- Where no flush runs, a record that closes crosses the quay (R116, R357). -/
theorem closeRecord_eq {s : State} (h : s.hold.flushing = none) (r : RxRec) :
    closeRecord r s = modMac (fun m => { m with records := m.records ++ [r] }) (countRecord r s) := by
  simp [closeRecord, flushTakes, h]

/-- Demodulator `j` of berth `n` follows the frame of record `r`, and no flush runs. -/
structure Follows (s : State) (n j : Nat) (r : RxRec) : Prop where
  noFlush : s.hold.flushing = none
  berth_lt : n < s.berths.length
  demod_lt : j < (getBerth s n).demods.length
  record_eq : (getDemod s n j).record = some r
  berth_eq : r.berth = n

namespace Follows
variable {s : State} {n j : Nat} {r : RxRec}

theorem getDemod_modDemod (h : Follows s n j r) (g : Demod → Demod) : getDemod (modDemod n j g s) n j = g (getDemod s n j) :=
  getDemod_modDemod_self h.berth_lt h.demod_lt g

/-- A change of the demodulator that keeps some record of its berth keeps it following. -/
theorem after_modDemod (h : Follows s n j r) {g : Demod → Demod} {r' : RxRec} (hr : (g (getDemod s n j)).record = some r')
    (hb : r'.berth = n) : Follows (modDemod n j g s) n j r' where
  noFlush := h.noFlush
  berth_lt := by simpa [modDemod, modBerth] using h.berth_lt
  demod_lt := by
    rw [modDemod, getBerth_modBerth_self h.berth_lt]
    simpa using h.demod_lt
  record_eq := by rw [h.getDemod_modDemod, hr]
  berth_eq := hb

end Follows

/-- Two changes of a demodulator are one. -/
theorem modDemod_modDemod (n j : Nat) (f g : Demod → Demod) (s : State) :
    modDemod n j f (modDemod n j g s) = modDemod n j (f ∘ g) s := by
  simp only [modDemod, modBerth, List.modify_modify_eq]
  congr 2
  funext b
  simp [List.modify_modify_eq]

/-- A demodulator whose frame is over: it searches, with no record. -/
abbrev Demod.over (d : Demod) : Demod := { d with st := .search, record := none }

/-- The record with which a frame is given up. -/
abbrev RxRec.aborted (r : RxRec) (a : AbortReason) : RxRec := { r with abort := some a, fcsOk := false }

section
variable {s : State} {n j : Nat} {r : RxRec}

theorem closeRecord_mac (hf : s.hold.flushing = none) (r : RxRec) :
    (closeRecord r s).mac.records = s.mac.records ++ [r] := by
  rw [closeRecord_eq hf, modMac_mac, bareEvent_mac (countRecord_bare r s)]

theorem rd_closeRecord (hf : s.hold.flushing = none) (r : RxRec) (k : Nat) : rd (closeRecord r s) k = rd (countRecord r s) k := by
  rw [closeRecord_eq hf]
  rfl

theorem closeRecord_berths (hf : s.hold.flushing = none) (r : RxRec) : (closeRecord r s).berths = s.berths := by
  rw [closeRecord_eq hf, modMac_berths, bareEvent_berths (countRecord_bare r s)]

/-- R107: a frame is given up: its record closes with the reason, and its demodulator searches again. -/
theorem Follows.giveUp_eq (h : Follows s n j r) (a : AbortReason) :
    setDemod n j .search (abortRecord n j a s) = modDemod n j Demod.over (closeRecord (r.aborted a) s) := by
  simp only [abortRecord, h.record_eq, setDemod, modDemod_modDemod]
  rfl

theorem Follows.giveUp_demod (h : Follows s n j r) (a : AbortReason) :
    getDemod (setDemod n j .search (abortRecord n j a s)) n j = (getDemod s n j).over := by
  have hb := closeRecord_berths h.noFlush (r.aborted a)
  rw [h.giveUp_eq, getDemod_modDemod_self (by rw [hb]; exact h.berth_lt) (by rw [getBerth_of_berths hb]; exact h.demod_lt),
    getDemod_of_berths hb]

theorem Follows.giveUp_records (h : Follows s n j r) (a : AbortReason) :
    (setDemod n j .search (abortRecord n j a s)).mac.records = s.mac.records ++ [r.aborted a] := by
  rw [h.giveUp_eq, modDemod_mac, closeRecord_mac h.noFlush]

theorem Follows.rd_giveUp (h : Follows s n j r) (a : AbortReason) (k : Nat) :
    rd (setDemod n j .search (abortRecord n j a s)) k = rd (countRecord (r.aborted a) s) k := by
  rw [h.giveUp_eq, rd_modDemod, rd_closeRecord h.noFlush]

/-- An abort reason with a counter is counted once (R107). -/
theorem Follows.counted_giveUp (h : Follows s n j r) {a : AbortReason} {c : Cnt} (ha : a.counter = some c)
    (hk : ownKey (berthBase n + c.off) = true) (hd : c.off ≠ c.sat) :
    Counted s (setDemod n j .search (abortRecord n j a s)) (berthBase n) c 1 := by
  refine (counted_bump hk hd s).congr rfl ((h.rd_giveUp a _).trans ?_)
  simp only [countRecord, ha, h.berth_eq]

/-! PHR, sustain check and quay buffer -/

/-- A record with what its frame's PHR says. -/
abbrev RxRec.withPhr (r : RxRec) (p : Phr) : RxRec :=
  { r with
    psduLen := p.len
    fcs4 := p.fcs4 && r.mode ≠ 4
    whitened := p.whitened && r.mode ≠ 4
    endAt := r.sfdTime + nsStep (bodyNs r.mode r.coded p.len) }

/-- R105: the state in which the PHR's check finds the demodulator. -/
abbrev takePhr (n j : Nat) (r : RxRec) (p : Phr) (s : State) : State :=
  modDemod n j (fun x => { x with record := some (r.withPhr p) }) s

theorem Follows.after_phr (h : Follows s n j r) (p : Phr) : Follows (takePhr n j r p s) n j (r.withPhr p) :=
  h.after_modDemod rfl h.berth_eq

theorem Follows.phrDecoded_valid (h : Follows s n j r) {p : Phr} (hst : (getDemod s n j).st = .phr) (hp : phrOk s r p = true) :
    doPhrDecoded n j p s = setDemod n j .payload (takePhr n j r p s) := by
  simp only [doPhrDecoded, hst, h.record_eq, hp, if_true]

theorem Follows.phrDecoded_invalid (h : Follows s n j r) {p : Phr} (hst : (getDemod s n j).st = .phr) (hp : phrOk s r p = false) :
    let u := setDemod n j .search (abortRecord n j .phrInvalid (takePhr n j r p s))
    doPhrDecoded n j p s = u ∨ doPhrDecoded n j p s = bump (berthBase n) Ct.BERTH_RX_MODE_SWITCH u := by
  simp only [doPhrDecoded, hst, h.record_eq, hp]
  split
  next hv => cases hv
  next =>
    split
    · exact .inr rfl
    · exact .inl rfl

theorem doSustainFail_payload (hst : (getDemod s n j).st = .payload) :
    doSustainFail n j s = setDemod n j .search (abortRecord n j .sustain s) := by
  simp only [doSustainFail, hst]

theorem doQuayOverflow_payload (hst : (getDemod s n j).st = .payload) :
    doQuayOverflow n j s =
      raise 182 0 (bump 0 Ct.FABRIC_QUAY_DROP (setDemod n j .search (abortRecord n j .quayFull s))) := by
  simp only [doQuayOverflow, hst]

/-! The last symbol -/

/-- A change of a berth that keeps its demodulators keeps each of them. -/
theorem getDemod_modBerth {g : BerthS → BerthS} (hg : ∀ b, (g b).demods = b.demods) (m n j : Nat) (s : State) :
    getDemod (modBerth m g s) n j = getDemod s n j := by
  refine getDemod_of_demods ?_ j
  by_cases hn : n < s.berths.length
  · by_cases hm : m = n <;> simp [getBerth, modBerth, List.getD_eq_getElem?_getD, hn, hm, hg]
  · simp [getBerth, modBerth, List.getD_eq_getElem?_getD, hn]

theorem getDemod_ackRetune (m n j : Nat) (r : RxRec) (s : State) : getDemod (ackRetune m r s) n j = getDemod s n j := by
  have hsyn : ∀ khz t, getDemod (retune m khz t) n j = getDemod t n j := fun khz t =>
    getDemod_modBerth (fun b => by split <;> rfl) m n j t
  exact (getDemod_modBerth (fun _ => by rfl) m n j _).trans (hsyn (txKhz s m r.mode r.channel) s)

/-- The record of an uncoded frame with what its PSDU spells (R107, R113). -/
abbrev RxRec.spelt (r : RxRec) (body : RxBody) : RxRec := { r with fcsOk := body.fcsOk, frame := body.frame }

/-- What the end of a frame has left when its record is handed on (R107). -/
structure FrameOver (s u : State) (n j : Nat) : Prop where
  demod_eq : getDemod u n j = (getDemod s n j).over
  mac_eq : u.mac = s.mac
  hold_eq : u.hold = s.hold
  dec_eq : u.dec = s.dec
  rd_eq : ∀ k, ownKey k = true → rd u k = rd s k

theorem FrameOver.retuned {u : State} (h : FrameOver s u n j) (m : Nat) (r : RxRec) : FrameOver s (ackRetune m r u) n j where
  demod_eq := (getDemod_ackRetune m n j r u).trans h.demod_eq
  mac_eq := h.mac_eq
  hold_eq := h.hold_eq
  dec_eq := h.dec_eq
  rd_eq := h.rd_eq

/-- The frame lasts to its end instant, and its demodulator searches again. -/
theorem Follows.frameOver (h : Follows s n j r) (e : Instant) : FrameOver s (modDemod n j Demod.over (elapseToNs e s)) n j where
  demod_eq := by
    have hb := elapseToNs_berths e s
    rw [getDemod_modDemod_self (by rw [hb]; exact h.berth_lt) (by rw [getBerth_of_berths hb]; exact h.demod_lt),
      getDemod_of_berths hb]
  mac_eq := elapseToNs_mac e s
  hold_eq := elapseToNs_hold e s
  dec_eq := elapseToNs_dec e s
  rd_eq k hk := by
    unfold ownKey at hk
    simp only [Bool.and_eq_true, Bool.not_eq_true'] at hk
    exact rd_elapseToNs hk.1 e s

/-- R107, R113: after the last symbol a coded frame waits for the decoder pool, an uncoded one closes its record. -/
theorem Follows.lastSymbol_eq (h : Follows s n j r) (hst : (getDemod s n j).st = .payload) (body : RxBody) :
    ∃ u due, FrameOver s u n j ∧ doLastSymbolReceived n j body s =
      if r.coded then { u with dec := { u.dec with queue := u.dec.queue ++ [⟨r, due⟩] } } else closeBody r body u := by
  simp only [doLastSymbolReceived, hst, h.record_eq]
  refine ⟨_, _, ?_, rfl⟩
  split
  · exact (h.frameOver _).retuned n r
  · exact h.frameOver _

end

/-- The counters of a berth are no registers of events or of the read ports. -/
theorem ownKey_berth (n : Berth) {off : Nat} (h : off < 0x400) : ownKey (berthBase n.val + off) = true := by
  have hn := n.isLt
  unfold ownKey eventKey portKey berthBase
  simp only [Bool.and_eq_true, Bool.not_eq_true', Bool.or_eq_false_iff, Bool.and_eq_false_iff, decide_eq_false_iff_not]
  omega

/-- A count stands beside a later one of the same block. -/
theorem Counted.bump_ne {s t : State} {b n : Nat} {c d : Cnt} (h : Counted s t b c n) (hk : ownKey (b + c.off) = true)
    (h1 : c.off ≠ d.off) (h2 : c.off ≠ d.sat) : Counted s (bump b d t) b c n := by
  unfold ownKey at hk
  simp only [Bool.and_eq_true, Bool.not_eq_true'] at hk
  exact h.congr rfl (rd_bump_ne (by omega) (by omega) hk.1 t)

/-- A record that closes with no abort reason is counted as good or as an FCS error (R102, R119). -/
theorem counted_whole {r : RxRec} (n : Berth) (hb : r.berth = n.val) (ha : r.abort = none) (s : State) :
    Counted s (countRecord r s) (berthBase n.val) (if r.fcsOk then Ct.BERTH_RX_OK else Ct.BERTH_RX_FCS_ERR) 1 := by
  have hok := counted_bump (ownKey_berth n (by decide : Ct.BERTH_RX_OK.off < 0x400)) (by decide) s
  have hkey := ownKey_berth n (by decide : Ct.BERTH_RX_FCS_ERR.off < 0x400)
  have herr := counted_bump hkey (by decide) s
  simp only [countRecord, ha, hb]
  split
  · exact hok
  · split
    · exact herr.bump_ne hkey (by decide) (by decide)
    · exact herr

/-- Settles O11: the PHR, the sustain check, the quay buffer and the last symbol, each from what the end of a frame leaves. -/
theorem frameEnds : Obligations.FrameEnds := by
  intro s n j r hw hf hn hj hr hb
  have h : Follows s n.val j r := ⟨hf, hn, hj, hr, hb⟩
  refine ⟨fun p hst hp => ⟨_, act_works hw _, ?valid⟩, fun p hst hp => ⟨_, act_works hw _, ?invalid⟩,
    fun hst => ⟨_, act_works hw _, ?sustain⟩, fun hst => ⟨_, act_works hw _, ?quay⟩,
    fun body hst hc hbp => ⟨_, act_works hw _, ?uncoded⟩, fun body hst hc => ⟨_, act_works hw _, ?coded⟩⟩
  case valid =>
    rw [getDemod_after, mac_after, h.phrDecoded_valid hst hp, setDemod, (h.after_phr p).getDemod_modDemod, h.getDemod_modDemod]
    exact ⟨rfl, rfl, rfl⟩
  case invalid =>
    have hkey := ownKey_berth n (by decide : Ct.BERTH_RX_PHR_ERR.off < 0x400)
    have h1 := h.after_phr p
    have hcnt := h1.counted_giveUp (a := .phrInvalid) rfl hkey (by decide)
    have hrec := congrArg List.length (h1.giveUp_records .phrInvalid)
    rw [List.length_append] at hrec
    rw [getDemod_after, mac_after]
    rcases h.phrDecoded_invalid hst hp with e | e
    · rw [e, h1.giveUp_demod]
      exact ⟨rfl, rfl, hcnt.after hkey, hrec⟩
    · rw [e, getDemod_of_berths (bump_berths ..), bump_mac, h1.giveUp_demod]
      exact ⟨rfl, rfl, (hcnt.bump_ne hkey (by decide) (by decide)).after hkey, hrec⟩
  case sustain =>
    have hkey := ownKey_berth n (by decide : Ct.BERTH_RX_SUSTAIN.off < 0x400)
    rw [getDemod_after, mac_after, doSustainFail_payload hst, h.giveUp_demod, h.giveUp_records]
    exact ⟨rfl, rfl, (h.counted_giveUp rfl hkey (by decide)).after hkey, rfl⟩
  case quay =>
    have hcnt := counted_bump (b := 0) (c := Ct.FABRIC_QUAY_DROP) (by decide) (by decide)
      (setDemod n.val j .search (abortRecord n.val j .quayFull s))
    rw [getDemod_after, mac_after, doQuayOverflow_payload hst, getDemod_of_berths (raise_berths ..),
      getDemod_of_berths (bump_berths ..), raise_mac, bump_mac, h.giveUp_demod, h.giveUp_records]
    refine ⟨rfl, ?_, raised_after (by decide) (raised_raise_self (by decide) 0 _), rfl⟩
    exact (hcnt.congr (h.rd_giveUp .quayFull _).symm (rd_raise (by decide) (by decide) 0 _)).after (by decide)
  case uncoded =>
    obtain ⟨u, due, hu, e⟩ := h.lastSymbol_eq hst body
    have hfu : u.hold.flushing = none := hu.hold_eq ▸ hf
    rw [hc, if_neg Bool.false_ne_true, closeBody, hbp, if_neg Bool.false_ne_true] at e
    rw [getDemod_after, mac_after, e, getDemod_of_berths (closeRecord_berths hfu _), closeRecord_mac hfu, hu.demod_eq, hu.mac_eq]
    refine ⟨rfl, rfl, rfl, fun ha => ?_⟩
    have hcnt : ∀ {c : Cnt}, c.off < 0x400 → Counted u (countRecord (r.spelt body) u) (berthBase n.val) c 1 →
        Counted s (settle (tapAll s (closeRecord (r.spelt body) u))) (berthBase n.val) c 1 := fun hc h1 =>
      (h1.congr (hu.rd_eq _ (ownKey_berth n hc)).symm (rd_closeRecord hfu _ _)).after (ownKey_berth n hc)
    have hwhole := counted_whole (r := r.spelt body) n hb ha u
    constructor
    · intro hok
      rw [if_pos hok] at hwhole
      exact hcnt (by decide) hwhole
    · intro hok
      rw [if_neg (by simp [hok])] at hwhole
      exact hcnt (by decide) hwhole
  case coded =>
    obtain ⟨u, due, hu, e⟩ := h.lastSymbol_eq hst body
    rw [getDemod_after, mac_after, e, hc, if_pos rfl, settle_dec, tapAll_dec]
    refine ⟨congrArg Demod.st hu.demod_eq, ?_, hu.mac_eq⟩
    rw [hu.dec_eq]
    simp

end Sys2Proof.Machine
end

section
/-!
PROOF. What operations touch of the blocks HOLD, FABRIC and CLAIM, said once for each: the moves of the claim and self-diagnosis
where no frame is on air (R367, R376), and fences (R28, R29).
-/

namespace Sys2Proof.Machine

/-! What an operation touches of the HOLD, FABRIC and CLAIM blocks -/

/-- Registers of the blocks HOLD, FABRIC and CLAIM: no event, read port or function's counter is among them. -/
def unitKey (k : Nat) : Bool := 0x7800 ≤ k && k < 0x8800

theorem unitKey_iff {k : Nat} : unitKey k = true ↔ 0x7800 ≤ k ∧ k < 0x8800 := by
  simp only [unitKey, Bool.and_eq_true, decide_eq_true_eq]

theorem eventKey_of_unitKey {k : Nat} (h : unitKey k = true) : eventKey k = false := by
  rw [unitKey_iff] at h
  unfold eventKey
  simp only [Bool.or_eq_false_iff, Bool.and_eq_false_iff, decide_eq_false_iff_not]
  omega

theorem ownKey_of_unitKey {k : Nat} (h : unitKey k = true) : ownKey k = true := by
  have hp : portKey k = false := by
    rw [unitKey_iff] at h
    unfold portKey
    simp only [Bool.and_eq_false_iff, decide_eq_false_iff_not]
    omega
  unfold ownKey
  rw [eventKey_of_unitKey h, hp]
  rfl

/-- From `s` to `t` only the registers `ks` of these blocks may have changed, and every raised event stays raised. -/
structure Touches (ks : List Nat) (s t : State) : Prop where
  rd_eq : ∀ k, unitKey k = true → k ∉ ks → rd t k = rd s k
  raised : ∀ c < 256, Raised s c → Raised t c

theorem raised_bumpBy {b c n : Nat} {d : Cnt} (h1 : eventKey (b + d.off) = false) (h2 : eventKey (b + d.sat) = false) (hc : c < 256)
    {s : State} (h : Raised s c) : Raised (bumpBy b d n s) c := by
  unfold bumpBy
  dsimp only
  split
  · exact raised_wr (eventKey_raw hc h1) _ h
  · have h' := raised_wr (eventKey_raw hc h1) 0xFFFFFFFF h
    split
    · exact h'
    · exact raised_raiseAux (by decide) hc _ _ (raised_wr (eventKey_raw hc h2) _ h')

namespace Touches
variable {ks : List Nat} {s t u : State}

theorem of_regs (h : t.regs = s.regs) (hs : t.start = s.start) : Touches ks s t where
  rd_eq k _ _ := rd_of_regs h (congrArg StartS.straps hs) k
  raised _ _ := raised_of_rd (rd_of_regs h (congrArg StartS.straps hs) _)

theorem refl : Touches ks s s := of_regs rfl rfl

theorem of_modClaim (g : ClaimS → ClaimS) : Touches ks s (modClaim g s) := of_regs rfl rfl

theorem of_modHold (g : HoldS → HoldS) : Touches ks s (modHold g s) := of_regs rfl rfl

theorem of_setAlert (i : Nat) : Touches ks s (setAlert i s) := of_regs rfl rfl

theorem of_modFabric (g : FabricS → FabricS) : Touches ks s (modFabric g s) := of_regs rfl rfl

theorem trans (h : Touches ks s t) (h' : Touches ks t u) : Touches ks s u where
  rd_eq k hk hn := (h'.rd_eq k hk hn).trans (h.rd_eq k hk hn)
  raised c hc hr := h'.raised c hc (h.raised c hc hr)

theorem mono {ks' : List Nat} (h : Touches ks s t) (hs : ks ⊆ ks') : Touches ks' s t :=
  ⟨fun k hk hn => h.rd_eq k hk fun hm => hn (hs hm), h.raised⟩

theorem of_wr {k : Nat} (hk : unitKey k = true) (hm : k ∈ ks) (v : Word) : Touches ks s (wr k v s) where
  rd_eq j _ hn := rd_wr_ne (fun e : j = k => hn (e ▸ hm)) v s
  raised _ hc hr := raised_wr (eventKey_raw hc (eventKey_of_unitKey hk)) v hr

theorem of_fset {f : Fld} (hk : unitKey f.off = true) (hm : f.off ∈ ks) (v : Nat) : Touches ks s (fset 0 f v s) := by
  unfold fset
  rw [Nat.zero_add]
  exact of_wr hk hm _

theorem of_raiseFull {c : Nat} (hc : c < 256) (r n x : Nat) : Touches ks s (raiseFull c r n x s) where
  rd_eq _ hk _ := rd_raiseFull hc (eventKey_of_unitKey hk) r n x s
  raised _ hd hr := raised_raiseOcc hc hd hr

theorem of_raise {c : Nat} (hc : c < 256) (r : Nat) : Touches ks s (raise c r s) := of_raiseFull hc r noNode 0

theorem of_raiseAux {c : Nat} (hc : c < 256) (r x : Nat) : Touches ks s (raiseAux c r x s) := of_raiseFull hc r noNode x

/-- Counting touches the counter and its CNT_SAT register. -/
theorem of_bump {b : Nat} {c : Cnt} (h1 : eventKey (b + c.off) = false) (h2 : eventKey (b + c.sat) = false)
    (hm : ∀ k ∈ [b + c.off, b + c.sat], unitKey k = true → k ∈ ks) : Touches ks s (bump b c s) where
  rd_eq k hk hn := by
    have hne : k ∉ [b + c.off, b + c.sat] := fun e => hn (hm k e hk)
    simp only [List.mem_cons, List.not_mem_nil, or_false, not_or] at hne
    exact rd_bump_ne hne.1 hne.2 (eventKey_of_unitKey hk) s
  raised _ hc hr := raised_bumpBy h1 h2 hc hr

/-- What ends every step touches nothing of these blocks. -/
theorem after (v : State) : Touches ks s (settle (tapAll v s)) where
  rd_eq _ hk _ := rd_after (ownKey_of_unitKey hk)
  raised _ hc hr := raised_after hc hr

theorem fget_eq {f : Fld} (h : Touches ks s t) (hk : unitKey f.off = true) (hn : f.off ∉ ks) : fget t 0 f = fget s 0 f := by
  unfold fget
  rw [Nat.zero_add, h.rd_eq _ hk hn]

end Touches

/-! The claim state moves -/

theorem stopCkpt_regs (s : State) : (stopCkpt s).regs = s.regs := by
  unfold stopCkpt
  split <;> rfl

theorem stopCkpt_start (s : State) : (stopCkpt s).start = s.start := by
  unfold stopCkpt
  split <;> rfl

theorem stopCkpt_berths (s : State) : (stopCkpt s).berths = s.berths := by
  unfold stopCkpt
  split <;> rfl

section
variable {ks : List Nat} {s : State}

theorem setClaim_touches (st : ClaimState) : Touches ks s (setClaim st s) := by
  unfold setClaim
  split
  · exact .refl
  · exact (Touches.of_modClaim _).trans (.of_raiseAux (by decide) _ _)

theorem setClaim_berths (st : ClaimState) : (setClaim st s).berths = s.berths := by
  unfold setClaim
  split
  · rfl
  · exact raiseAux_berths ..

theorem setClaim_st (st : ClaimState) : (setClaim st s).claim.st = st := by
  unfold setClaim
  split
  next h => exact h
  next => rw [raiseAux_claim, modClaim_claim]

/-- The bus settles: the claim's state stays, and event 198 may be raised (R367). -/
theorem rebus_cases (s : State) : ∃ c : ClaimS, c.st = s.claim.st ∧
    (rebus s = modClaim (fun _ => c) s ∨ ∃ aux, rebus s = raiseAux 198 0 aux (modClaim (fun _ => c) s)) := by
  unfold rebus
  dsimp only
  split
  · refine ⟨_, ?_, .inl (Eq.refl { s with claim := _ })⟩
    rfl
  · split
    · refine ⟨_, ?_, .inr ⟨_, congrArg (raiseAux 198 0 _) (Eq.refl { s with claim := _ })⟩⟩
      rfl
    · refine ⟨_, ?_, .inl (Eq.refl { s with claim := _ })⟩
      rfl

theorem rebus_touches : Touches ks s (rebus s) := by
  obtain ⟨c, _, e | ⟨x, e⟩⟩ := rebus_cases s
  · exact e ▸ .of_modClaim _
  · exact e ▸ (Touches.of_modClaim _).trans (.of_raiseAux (by decide) _ _)

theorem rebus_berths : (rebus s).berths = s.berths := by
  obtain ⟨c, _, e | ⟨x, e⟩⟩ := rebus_cases s
  · rw [e, modClaim_berths]
  · rw [e, raiseAux_berths, modClaim_berths]

theorem rebus_st : (rebus s).claim.st = s.claim.st := by
  obtain ⟨c, hc, e | ⟨x, e⟩⟩ := rebus_cases s
  · rw [e, modClaim_claim, hc]
  · rw [e, raiseAux_claim, modClaim_claim, hc]

theorem moveClaim_touches (st : ClaimState) : Touches ks s (moveClaim st s) := by
  unfold moveClaim
  dsimp only
  refine .trans ?_ ((setClaim_touches st).trans ((Touches.of_modClaim _).trans rebus_touches))
  split
  · exact .of_regs (stopCkpt_regs s) (stopCkpt_start s)
  · exact .refl

theorem moveClaim_berths (st : ClaimState) : (moveClaim st s).berths = s.berths := by
  unfold moveClaim
  rw [rebus_berths, modClaim_berths, setClaim_berths]
  split
  · exact stopCkpt_berths s
  · rfl

theorem moveClaim_st (st : ClaimState) : (moveClaim st s).claim.st = st := by
  unfold moveClaim
  rw [rebus_st]
  exact setClaim_st st

/-! Self-diagnosis, where no frame is on air -/

/-- No berth has a frame on air. -/
def NoneOnAir (s : State) : Prop := ∀ n < 6, (getBerth s n).onAir = none

theorem NoneOnAir.of_berths {t : State} (h : NoneOnAir s) (e : t.berths = s.berths) : NoneOnAir t :=
  fun n hn => (congrArg BerthS.onAir (getBerth_of_berths e n)).trans (h n hn)

/-- What every turn leaves as it is, the repetition leaves. -/
theorem forBelow_fixed {n : Nat} {g : Nat → State → State} (h : ∀ i < n, g i s = s) : forBelow n g s = s := by
  unfold forBelow
  refine List.foldlRecOn (motive := fun t => t = s) (List.range n) _ rfl fun t ht i hi => ?_
  rw [ht, h i (List.mem_range.mp hi)]

theorem abortAir_idle {n : Nat} (o : TxOutcome) (h : (getBerth s n).onAir = none) : abortAir n o s = s := by
  simp only [abortAir, h]

theorem closeGate_idle (h : NoneOnAir s) : closeGate s = modClaim (fun c => { c with gate := false }) s :=
  forBelow_fixed fun i hi => abortAir_idle _ (h i hi)

theorem fenceAir_idle (k : Nat) (h : NoneOnAir s) : fenceAir k s = s :=
  forBelow_fixed fun i hi => by simp only [airing, h i hi, Option.filter_none, Option.any_none, Bool.false_eq_true, if_false]

/-- The state `t` is one of self-diagnosis that has just begun for a cause (R376). -/
structure InDiag (t : State) (cause : Nat) : Prop where
  st_eq : t.claim.st = .diag
  cause_eq : fget t 0 Fl.CLAIM_DIAG_CAUSE = cause
  gate_eq : t.claim.gate = false
  pilots_eq : t.fabric.pilots = List.replicate 4 3
  raised : Raised t 196

/-- What CLAIM_DIAG shows of a diagnosis that begins (R376, R383). -/
def showDiag (cause detail : Nat) (s : State) : State :=
  fset 0 Fl.CLAIM_DIAG_DETAIL detail (fset 0 Fl.CLAIM_DIAG_RESULT 0 (fset 0 Fl.CLAIM_DIAG_CAUSE cause s))

theorem fget_showDiag {cause : Nat} (hc : cause < 16) (detail : Nat) (s : State) :
    fget (showDiag cause detail s) 0 Fl.CLAIM_DIAG_CAUSE = cause := by
  unfold showDiag
  rw [fget_fset_beside (by decide) (by decide) (by decide), fget_fset_beside (by decide) (by decide) (by decide),
    fget_fset_self (by decide) (by decide)]
  exact Nat.mod_eq_of_lt hc

theorem showDiag_touches (cause detail : Nat) (hm : Reg.CLAIM_DIAG ∈ ks) : Touches ks s (showDiag cause detail s) :=
  have hk : unitKey Reg.CLAIM_DIAG = true := by decide
  (Touches.of_fset hk hm cause).trans ((Touches.of_fset hk hm 0).trans (Touches.of_fset hk hm detail))

/-- The unit gives up its claim: the gate closes and FAILOVER_N is driven (R376, R377). -/
def giveUpClaim (s : State) : State :=
  modClaim (fun c => { c with failoverOut := true }) (modClaim (fun c => { c with gate := false }) (moveClaim .diag s))

/-- A diagnosis that begins stops the pilot cores and is told (R376). -/
def tellDiag (cause : Nat) (s : State) : State :=
  raise 196 cause (setAlert 1 (modFabric (fun f => { f with pilots := List.replicate 4 3 }) s))

theorem giveUpClaim_touches (s : State) : Touches ks s (giveUpClaim s) :=
  (moveClaim_touches .diag).trans ((Touches.of_modClaim _).trans (.of_modClaim _))

theorem tellDiag_touches (cause : Nat) (s : State) : Touches ks s (tellDiag cause s) :=
  have hraise : ∀ u, Touches ks u (raise 196 cause u) := fun _ => .of_raise (by decide) cause
  (Touches.of_modFabric _).trans ((Touches.of_setAlert 1).trans (hraise _))

theorem tellDiag_claim (cause : Nat) (s : State) : (tellDiag cause s).claim = s.claim := raise_claim ..

theorem showDiag_claim (cause detail : Nat) (s : State) : (showDiag cause detail s).claim = s.claim := rfl

theorem tellDiag_pilots (cause : Nat) (s : State) : (tellDiag cause s).fabric.pilots = List.replicate 4 3 :=
  congrArg FabricS.pilots (raise_fabric ..)

theorem enterDiag_idle (hst : s.claim.st ≠ .diag) (hair : NoneOnAir s) (cause detail : Nat) :
    enterDiag cause detail s = tellDiag cause (showDiag cause detail (giveUpClaim s)) := by
  unfold enterDiag
  rw [if_neg hst, closeGate_idle (hair.of_berths (moveClaim_berths _))]
  rfl

/-- R376: a unit with no frame on air enters self-diagnosis. -/
theorem enterDiag_inDiag (hst : s.claim.st ≠ .diag) (hair : NoneOnAir s) {cause : Nat} (hc : cause < 16) (detail : Nat) :
    InDiag (enterDiag cause detail s) cause := by
  rw [enterDiag_idle hst hair]
  constructor
  case raised => exact raised_raise_self (by decide) _ _
  case st_eq => exact (congrArg ClaimS.st (tellDiag_claim cause _)).trans (moveClaim_st .diag)
  case gate_eq => rw [tellDiag_claim, showDiag_claim, giveUpClaim, modClaim_claim, modClaim_claim]
  case pilots_eq => exact tellDiag_pilots cause _
  case cause_eq => rw [(tellDiag_touches (ks := []) cause _).fget_eq (by decide) (by decide), fget_showDiag hc]

theorem enterDiag_touches (hst : s.claim.st ≠ .diag) (hair : NoneOnAir s) (cause detail : Nat) (hm : Reg.CLAIM_DIAG ∈ ks) :
    Touches ks s (enterDiag cause detail s) := by
  rw [enterDiag_idle hst hair]
  exact ((giveUpClaim_touches s).trans (showDiag_touches cause detail hm)).trans (tellDiag_touches cause _)

end

/-! Links -/

theorem refusals_setRefusals_self (l : Link) (n : Nat) (s : State) : refusals (setRefusals l n s) l = n := by
  unfold refusals setRefusals
  split
  next h =>
    have hnone : (s.fabric.refused.filter fun p => p.1 ≠ l).find? (fun p => p.1 = l) = none := by
      simp [List.find?_eq_none]
    rw [modFabric_fabric, List.nil_append, hnone]
    exact h.symm
  next => simp

theorem refusals_of_refused {s t : State} (h : t.fabric.refused = s.fabric.refused) (l : Link) : refusals t l = refusals s l := by
  rw [refusals, refusals, h]

theorem refusals_of_fabric {s t : State} (h : t.fabric = s.fabric) (l : Link) : refusals t l = refusals s l :=
  refusals_of_refused (congrArg FabricS.refused h) l

theorem unitFenced_of_rd {s t : State} (h : rd t Reg.FABRIC_FENCED = rd s Reg.FABRIC_FENCED) (u : Nat) :
    unitFenced t u = unitFenced s u := by
  rw [unitFenced, unitFenced, h]

theorem breaksFloor_of_rd {s t : State} (h : rd t Reg.FABRIC_FENCED = rd s Reg.FABRIC_FENCED) (u : Nat) :
    breaksFloor t u = breaksFloor s u := by
  unfold breaksFloor leftOf
  rw [funext (unitFenced_of_rd h)]

/-! What a fenced unit worked on -/

theorem sendWrite_eq (f a : Nat) (os : List Byte) (p : Bool) (s : State) : ∃ o, sendWrite f a os p s = { s with outs := o } := by
  unfold sendWrite
  refine List.foldlRecOn (motive := fun t : State => ∃ o, t = { s with outs := o }) _ _ ⟨s.outs, rfl⟩ fun t ht x _ => ?_
  obtain ⟨o, rfl⟩ := ht
  exact ⟨_, rfl⟩

/-- What answering Invalidate Requests keeps, the end of a sling keeps. -/
theorem slingOver_induction {P : State → Prop} (hport : ∀ p g t, P t → P (modPort p g t))
    (hans : ∀ r t, P t → P (answerInval r t))
    (f : Nat) {s : State} (h : P s) : P (slingOver f s) := by
  unfold slingOver
  split
  · exact h
  · exact List.foldlRecOn (motive := P) _ _ (hport _ _ _ h) fun t ht r _ => hans r t ht

theorem answerInval_touches {ks : List Nat} (r : InvalReq) (s : State) : Touches ks s (answerInval r s) := by
  have hevent : ∀ off < 0x1820, eventKey (fb r.fn + off) = false := fun off ho => by
    unfold eventKey fb
    simp only [Bool.or_eq_false_iff, Bool.and_eq_false_iff, decide_eq_false_iff_not]
    omega
  have hunit : ∀ off < 0x1820, unitKey (fb r.fn + off) ≠ true := fun off ho => by
    rw [Ne, unitKey_iff, fb]
    omega
  refine .trans (.of_bump (hevent _ (by decide)) (hevent _ (by decide)) ?_) (.of_regs rfl rfl)
  intro k hk hu
  simp only [List.mem_cons, List.not_mem_nil, or_false] at hk
  rcases hk with rfl | rfl
  · exact absurd hu (hunit _ (by decide))
  · exact absurd hu (hunit _ (by decide))

theorem slingOver_touches {ks : List Nat} (f : Nat) (s : State) : Touches ks s (slingOver f s) :=
  slingOver_induction (fun _ _ _ h => h.trans (.of_regs rfl rfl)) (fun r t h => h.trans (answerInval_touches r t)) f .refl

theorem slingOver_fabric (f : Nat) (s : State) : (slingOver f s).fabric = s.fabric :=
  slingOver_induction (P := fun t => t.fabric = s.fabric) (fun _ _ _ h => h) (fun _ _ h => (bump_fabric ..).trans h) f rfl

theorem slingOver_jobs (f : Nat) (s : State) : (slingOver f s).jobs = s.jobs :=
  slingOver_induction (P := fun t => t.jobs = s.jobs) (fun _ _ _ h => h) (fun _ _ h => (bump_jobs ..).trans h) f rfl

/-- The job of a fenced stevedore as it is ready again: inside its sling, with what came of a read (R28, R277). -/
def cutJob (s : State) (j : Job) : Job :=
  { j with moved := j.moved + cutAt s j, octets := j.gains (cutOctets s (cutAt s j)) }

/-- R28: the stevedore is free, its job is ready again, and its sling is over. -/
theorem returnJob_cases (k : Nat) (s : State) : (s.stevs.getD k none = none ∧ returnJob k s = s) ∨
    ∃ j o, s.stevs.getD k none = some j ∧ returnJob k s = slingOver j.fn { s with
      jobs := s.jobs ++ [cutJob s j]
      stevs := s.stevs.set k none
      draws := s.draws + 1 + cutAt s j
      outs := o } := by
  unfold returnJob
  split
  next j hj =>
    refine .inr ?_
    dsimp only
    split
    · obtain ⟨o, e⟩ := sendWrite_eq j.fn (jobAt s j) ((jobData s j).take (cutAt s j)) j.poisoned s
      exact ⟨j, o, hj, by rw [e]; rfl⟩
    · exact ⟨j, s.outs, hj, rfl⟩
  next hj => exact .inl ⟨hj, rfl⟩

theorem returnJob_touches {ks : List Nat} (k : Nat) (s : State) : Touches ks s (returnJob k s) := by
  obtain ⟨_, e⟩ | ⟨j, o, _, e⟩ := returnJob_cases k s
  · rw [e]
    exact .refl
  · rw [e]
    refine .trans ?_ (slingOver_touches j.fn _)
    exact .of_regs rfl rfl

theorem returnJob_fabric (k : Nat) (s : State) : (returnJob k s).fabric = s.fabric := by
  obtain ⟨_, e⟩ | ⟨j, o, _, e⟩ := returnJob_cases k s
  · rw [e]
  · rw [e, slingOver_fabric]

theorem returnJob_jobs {k : Nat} {s : State} {j : Job} (h : s.stevs.getD k none = some j) :
    (returnJob k s).jobs = s.jobs ++ [cutJob s j] := by
  obtain ⟨hn, _⟩ | ⟨i, o, hi, e⟩ := returnJob_cases k s
  · rw [h] at hn
    cases hn
  · rw [h] at hi
    cases hi
    rw [e, slingOver_jobs]

theorem returnAes_idle {s : State} (k : Nat) (h : NoneOnAir s) : ∃ bs, returnAes k s = { s with berths := bs } := by
  unfold returnAes
  rw [fenceAir_idle k h]
  exact ⟨_, rfl⟩

theorem requeueDecoder_eq (e : Nat) (s : State) : ∃ d, requeueDecoder e s = { s with dec := d } := by
  unfold requeueDecoder
  split
  · exact ⟨_, rfl⟩
  · exact ⟨s.dec, rfl⟩

/-! Fences -/

/-- Unit `u` is marked as fenced (R28). -/
def markFenced (u : Nat) (s : State) : State :=
  raise 177 u (wr Reg.FABRIC_FENCED (setBitAt u (rd s Reg.FABRIC_FENCED) true) s)

theorem rd_markFenced (u : Nat) (s : State) :
    rd (markFenced u s) Reg.FABRIC_FENCED = setBitAt u (rd s Reg.FABRIC_FENCED) true := by
  unfold markFenced
  rw [rd_raise (by decide) (by decide), rd_wr_self]

theorem markFenced_touches {ks : List Nat} (hm : Reg.FABRIC_FENCED ∈ ks) (u : Nat) (s : State) : Touches ks s (markFenced u s) :=
  (Touches.of_wr (by decide) hm _).trans (.of_raise (by decide) u)

theorem markFenced_fabric (u : Nat) (s : State) : (markFenced u s).fabric = s.fabric := raise_fabric ..

theorem markFenced_berths (u : Nat) (s : State) : (markFenced u s).berths = s.berths := raise_berths ..

/-- A fenced unit's work goes elsewhere, which touches nothing of the fabric beside the pilot cores' states (R28, R29). -/
theorem fence_work {s : State} (u : Nat) (hair : 12 ≤ u → NoneOnAir s) :
    Touches [] (markFenced u s) (fence u s) ∧ (fence u s).fabric.refused = s.fabric.refused := by
  have hrefused := congrArg FabricS.refused (markFenced_fabric u s)
  unfold fence
  dsimp only
  rw [show raise 177 u _ = markFenced u s from rfl]
  split
  · exact ⟨(Touches.of_modFabric _).trans (.of_raise (by decide) 0), by rw [raise_fabric]; exact hrefused⟩
  · split
    · exact ⟨returnJob_touches _ _, by rw [returnJob_fabric]; exact hrefused⟩
    · split
      next h4 h12 h20 =>
        obtain ⟨bs, e⟩ := returnAes_idle (u - 12) ((hair (by omega)).of_berths (markFenced_berths u s))
        exact ⟨e ▸ .of_regs rfl rfl, e ▸ hrefused⟩
      next =>
        split
        · obtain ⟨d, e⟩ := requeueDecoder_eq (u - 20) (markFenced u s)
          exact ⟨e ▸ .of_regs rfl rfl, e ▸ hrefused⟩
        · exact ⟨.refl, hrefused⟩

theorem fence_touches {s : State} (u : Nat) (hair : 12 ≤ u → NoneOnAir s) : Touches [Reg.FABRIC_FENCED] s (fence u s) :=
  (markFenced_touches (by decide) u s).trans ((fence_work u hair).1.mono (List.nil_subset _))

theorem rd_fence {s : State} (u : Nat) (hair : 12 ≤ u → NoneOnAir s) :
    rd (fence u s) Reg.FABRIC_FENCED = setBitAt u (rd s Reg.FABRIC_FENCED) true := by
  rw [(fence_work u hair).1.rd_eq _ (by decide) (by decide), rd_markFenced]

theorem raised_fence {s : State} (u : Nat) (hair : 12 ≤ u → NoneOnAir s) : Raised (fence u s) 177 :=
  (fence_work u hair).1.raised 177 (by decide) (raised_raise_self (by decide) u _)

end Sys2Proof.Machine
end

section
/-!
PROOF. The fabric (R18, R20, R21, R27 to R32, R349): link faults, the job of a fenced stevedore, the pilot cores, the unfence test,
and the rate of tokens with the voltage request.
-/

namespace Sys2Proof.Machine

/-! Jobs that wait -/

theorem waits_iff {s : State} {p : Job → Bool} : Waits s p ↔ ∃ q, p q = true ∧ (q ∈ s.jobs ∨ some q ∈ s.stevs) := by
  unfold Waits
  simp only [Bool.or_eq_true, List.any_eq_true, Option.any_eq_true]
  constructor
  · rintro (⟨q, hq, hp⟩ | ⟨o, ho, q, rfl, hp⟩)
    · exact ⟨q, hp, .inl hq⟩
    · exact ⟨q, hp, .inr ho⟩
  · rintro ⟨q, hp, hq | hq⟩
    · exact .inl ⟨q, hq, hp⟩
    · exact .inr ⟨_, hq, q, rfl, hp⟩

theorem getElem?_stevs_of_freeStev {s : State} {k : Nat} (h : freeStev s = some k) : s.stevs[k]? = some none := by
  have h1 := List.find?_some h
  simp only [Bool.and_eq_true, decide_eq_true_eq] at h1
  exact h1.1

/-- An assignment moves a job from the ready list to a stevedore that was free (R278). -/
theorem waits_assignOne {s : State} {p : Job → Bool} (h : Waits s p) : Waits (assignOne s) p := by
  unfold assignOne
  split
  next k i hk hi =>
    split
    next j hj =>
      have hfree := getElem?_stevs_of_freeStev hk
      rw [waits_iff] at h ⊢
      obtain ⟨q, hp, hq | hq⟩ := h
      · by_cases hqj : q = j
        · refine ⟨q, hp, .inr ?_⟩
          rw [hqj]
          exact List.mem_set (List.getElem?_eq_some_iff.mp hfree).1 _
        · obtain ⟨m, hm⟩ := List.mem_iff_getElem?.mp hq
          refine ⟨q, hp, .inl (List.mem_eraseIdx_iff_getElem?.mpr ⟨m, ?_, hm⟩)⟩
          rintro rfl
          rw [hj] at hm
          exact hqj (Option.some.inj hm).symm
      · obtain ⟨m, hm⟩ := List.mem_iff_getElem?.mp hq
        refine ⟨q, hp, .inr (List.mem_iff_getElem?.mpr ⟨m, ?_⟩)⟩
        have hne : k ≠ m := by
          rintro rfl
          rw [hfree] at hm
          cases hm
        rw [List.getElem?_set_ne hne]
        exact hm
    next => exact h
  next => exact h

/-- Only a class-0 write that has not taken up what it writes leaves the ready list of itself. -/
theorem waits_readyWrites {s : State} {p : Job → Bool} (hopen : ∀ q, p q = true → q.open = false) (f : Nat) (h : Waits s p) :
    Waits (readyWrites f s) p := by
  rw [waits_iff] at h ⊢
  obtain ⟨q, hp, hq⟩ := h
  refine ⟨q, hp, ?_⟩
  unfold readyWrites
  dsimp only
  rcases hq with hq | hq
  · refine .inl (List.mem_append_left _ (List.mem_filter.mpr ⟨hq, ?_⟩))
    simp [hopen q hp]
  · refine .inr (List.mem_map.mpr ⟨some q, hq, ?_⟩)
    simp [Option.filter, hopen q hp]

/-- What follows from the free count of the pool moves no job. -/
theorem settlePool_work (s : State) : (settlePool s).jobs = s.jobs ∧ (settlePool s).stevs = s.stevs := by
  have hwater : (noteLowWater s).jobs = s.jobs ∧ (noteLowWater s).stevs = s.stevs := by
    unfold noteLowWater
    split <;> exact ⟨rfl, rfl⟩
  unfold settlePool watchPool
  dsimp only
  split
  · split
    · exact hwater
    · rw [raise_jobs, raise_stevs]
      exact hwater
  · split
    · exact hwater
    · exact hwater

theorem waits_of_work {s t : State} {p : Job → Bool} (hw : t.jobs = s.jobs ∧ t.stevs = s.stevs) (h : Waits s p) :
    Waits t p := by
  unfold Waits at *
  rw [hw.1, hw.2]
  exact h

theorem settlePins_work (s : State) : (settlePins s).jobs = s.jobs ∧ (settlePins s).stevs = s.stevs := ⟨rfl, rfl⟩

/-- A job other than such a write is still there after a step that left it ready. -/
theorem waits_after {u t : State} {p : Job → Bool} (hopen : ∀ q, p q = true → q.open = false) (h : Waits t p) :
    Waits (settle (tapAll u t)) p := by
  have hpool := waits_of_work (settlePool_work (tapAll u t)) (waits_of_work ⟨tapAll_jobs u t, tapAll_stevs u t⟩ h)
  unfold settle assignJobs forBelow
  refine waits_of_work (settlePins_work _) ?_
  refine List.foldlRecOn (motive := fun s => Waits s p) _ _ ?_ fun _ hs _ _ => waits_assignOne hs
  exact List.foldlRecOn (motive := fun s => Waits s p) _ _ hpool fun _ hs f _ => waits_readyWrites hopen f hs

theorem open_eq_false_of_site {j : Job} (h : j.what.site < 4) : j.open = false := by
  unfold Job.open
  split
  next e => simp [e, JobWhat.site] at h
  next e => simp [e, JobWhat.site] at h
  next e => simp [e, JobWhat.site] at h
  next => rfl

theorem cutAt_lt (s : State) (j : Job) : cutAt s j < max 1 (slingLen j) := by
  unfold cutAt
  split
  · omega
  · omega
  · omega
  · exact Nat.mod_lt _ (by omega)

/-! Links that fail -/

section
variable {s : State}

/-- The refusals of a token so far, with this one (R27). -/
def refusalRun (s : State) (l : Link) (again : Bool) : Nat := if again then refusals s l + 1 else 1

theorem doParityFailure_replay {l : Link} {again : Bool} (h : refusalRun s l again < 3) :
    doParityFailure l again s = replay (setRefusals l (refusalRun s l again) s) := if_pos h

theorem doParityFailure_fault {l : Link} {again : Bool} (h : 3 ≤ refusalRun s l again) :
    doParityFailure l again s = linkFault l (setRefusals l 0 s) := if_neg (Nat.not_lt.mpr h)

/-- R27: a replay is counted, and remembered with its instant for a second. -/
def noteReplay (s : State) : State :=
  bump 0 Ct.FABRIC_REPLAY (modFabric (fun f =>
    { f with replays := monoNs s :: s.fabric.replays.filter fun t => monoNs s < t + 1000000000 }) s)

theorem replay_cases (s : State) : replay s = noteReplay s ∨ replay s = raise 179 0 (noteReplay s) := by
  unfold replay
  dsimp only
  split
  · exact .inr rfl
  · exact .inl rfl

theorem replay_fabric (s : State) : (replay s).fabric =
    { s.fabric with replays := monoNs s :: s.fabric.replays.filter fun t => monoNs s < t + 1000000000 } := by
  have h : (noteReplay s).fabric = _ := bump_fabric ..
  rcases replay_cases s with e | e
  · rw [e, h, modFabric_fabric]
  · rw [e, raise_fabric, h, modFabric_fabric]

theorem refusals_replay (l : Link) (s : State) : refusals (replay s) l = refusals s l := by
  unfold refusals
  rw [replay_fabric]

theorem replay_touches (s : State) : Touches [Ct.FABRIC_REPLAY.off, Ct.FABRIC_REPLAY.sat] s (replay s) := by
  have h : Touches [Ct.FABRIC_REPLAY.off, Ct.FABRIC_REPLAY.sat] s (noteReplay s) :=
    (Touches.of_modFabric _).trans (.of_bump (by decide) (by decide) (by decide))
  rcases replay_cases s with e | e
  · rw [e]
    exact h
  · rw [e]
    exact h.trans (Touches.of_raise (c := 179) (by decide) 0)

theorem counted_replay (s : State) : Counted s (replay s) 0 Ct.FABRIC_REPLAY 1 := by
  have h : Counted s (noteReplay s) 0 Ct.FABRIC_REPLAY 1 :=
    (counted_bump (c := Ct.FABRIC_REPLAY) (by decide) (by decide) (modFabric _ s)).congr rfl rfl
  rcases replay_cases s with e | e
  · rw [e]
    exact h
  · rw [e]
    exact h.congr rfl (rd_raise (by decide) (by decide) 0 _)

/-- R27, R32: a link fault of a unit is shown. -/
def showLinkFault (u : Nat) (s : State) : State :=
  raise 176 0 (wr Reg.FABRIC_LINK_FAULT (setBitAt u (rd s Reg.FABRIC_LINK_FAULT) true) s)

theorem showLinkFault_touches (u : Nat) (s : State) : Touches [Reg.FABRIC_LINK_FAULT] s (showLinkFault u s) :=
  (Touches.of_wr (by decide) (by decide) _).trans (.of_raise (by decide) 0)

theorem rd_showLinkFault (u : Nat) (s : State) :
    rd (showLinkFault u s) Reg.FABRIC_LINK_FAULT = setBitAt u (rd s Reg.FABRIC_LINK_FAULT) true := by
  unfold showLinkFault
  rw [rd_raise (by decide) (by decide), rd_wr_self]

theorem showLinkFault_berths (u : Nat) (s : State) : (showLinkFault u s).berths = s.berths := raise_berths ..
theorem showLinkFault_claim (u : Nat) (s : State) : (showLinkFault u s).claim = s.claim := raise_claim ..
theorem showLinkFault_fabric (u : Nat) (s : State) : (showLinkFault u s).fabric = s.fabric := raise_fabric ..
theorem showLinkFault_stevs (u : Nat) (s : State) : (showLinkFault u s).stevs = s.stevs := raise_stevs ..

theorem raised_showLinkFault (u : Nat) (s : State) : Raised (showLinkFault u s) 176 := by
  unfold showLinkFault
  exact raised_raise_self (by decide) 0 _

/-- R30, R32: a link fault of a unit that has no fence is shown. -/
def showCoreFault (b : Nat) (s : State) : State :=
  raise 186 0 (wr Reg.FABRIC_CORE_FAULT (setBitAt b (rd s Reg.FABRIC_CORE_FAULT) true) s)

theorem rd_showCoreFault (b : Nat) (s : State) :
    rd (showCoreFault b s) Reg.FABRIC_CORE_FAULT = setBitAt b (rd s Reg.FABRIC_CORE_FAULT) true := by
  unfold showCoreFault
  rw [rd_raise (by decide) (by decide), rd_wr_self]

theorem raised_showCoreFault (b : Nat) (s : State) : Raised (showCoreFault b s) 186 := by
  unfold showCoreFault
  exact raised_raise_self (by decide) 0 _

theorem fenceOrDiag_fence {u : Nat} (hf : unitFenced s u = false) (hb : breaksFloor s u = false) : fenceOrDiag u s = fence u s := by
  unfold fenceOrDiag
  rw [if_neg (by rw [hf]; exact Bool.false_ne_true), if_neg (by rw [hb]; exact Bool.false_ne_true)]

theorem fenceOrDiag_diag {u : Nat} (hf : unitFenced s u = false) (hb : breaksFloor s u = true) :
    fenceOrDiag u s = enterDiag 3 u (raise 187 0 s) := by
  unfold fenceOrDiag
  rw [if_neg (by rw [hf]; exact Bool.false_ne_true), if_pos hb]

/-- A state in which the third refusal of a token is about to be a link fault (R27): the run is forgotten. -/
abbrev forgetRun (l : Link) (s : State) : State := setRefusals l 0 s

theorem rd_fault_fenced (u : Fin 31) (s : State) :
    rd (showLinkFault u (forgetRun (.unit u) s)) Reg.FABRIC_FENCED = rd s Reg.FABRIC_FENCED :=
  (showLinkFault_touches u _).rd_eq _ (by decide) (by decide)

theorem linkFault_unit (u : Fin 31) (s : State) : linkFault (.unit u) s = fenceOrDiag u.val (showLinkFault u.val s) := rfl

/-- R27, R28: the third refusal of a token fences a unit that no floor protects. -/
theorem doParityFailure_fence {u : Fin 31} {again : Bool} (h : 3 ≤ refusalRun s (.unit u) again) (hf : unitFenced s u.val = false)
    (hb : breaksFloor s u.val = false) :
    doParityFailure (.unit u) again s = fence u.val (showLinkFault u.val (forgetRun (.unit u) s)) := by
  have hrd := rd_fault_fenced u s
  rw [doParityFailure_fault h, linkFault_unit]
  exact fenceOrDiag_fence ((unitFenced_of_rd hrd _).trans hf) ((breaksFloor_of_rd hrd _).trans hb)

/-- R27, R30: where a floor would break, self-diagnosis follows. -/
theorem doParityFailure_floor {u : Fin 31} {again : Bool} (h : 3 ≤ refusalRun s (.unit u) again) (hf : unitFenced s u.val = false)
    (hb : breaksFloor s u.val = true) :
    doParityFailure (.unit u) again s = enterDiag 3 u.val (raise 187 0 (showLinkFault u.val (forgetRun (.unit u) s))) := by
  have hrd := rd_fault_fenced u s
  rw [doParityFailure_fault h, linkFault_unit]
  exact fenceOrDiag_diag ((unitFenced_of_rd hrd _).trans hf) ((breaksFloor_of_rd hrd _).trans hb)

/-- R27, R30: a unit that cannot be fenced leads to self-diagnosis. -/
theorem doParityFailure_core {b : Fin 16} {again : Bool} (h : 3 ≤ refusalRun s (.core b) again) :
    ∃ detail, doParityFailure (.core b) again s = enterDiag 2 detail (showCoreFault b.val (forgetRun (.core b) s)) :=
  ⟨bitsOf 15 0 (rd (showCoreFault b.val (forgetRun (.core b) s)) Reg.FABRIC_CORE_FAULT), doParityFailure_fault h⟩

/-- R28: the job of a stevedore that is fenced is ready again, inside its sling. -/
theorem fence_returnsJob {u : Nat} {j : Job} (h4 : 4 ≤ u) (h12 : u < 12) (hj : s.stevs.getD (u - 4) none = some j) :
    cutJob (markFenced u s) j ∈ (fence u s).jobs := by
  have hj' : (markFenced u s).stevs.getD (u - 4) none = some j := by
    rw [show (markFenced u s).stevs = s.stevs from raise_stevs ..]
    exact hj
  have e : fence u s = returnJob (u - 4) (markFenced u s) := by
    unfold fence
    rw [if_neg (by omega), if_pos h12]
    rfl
  rw [e, returnJob_jobs hj']
  exact List.mem_append_right _ List.mem_cons_self

/-! Pilot cores -/

/-- A timer that fires changes no register beside the count of late timers and what events set (R18). -/
theorem fireTimer_rd {k : Nat} (hk : unitKey k = true) (hn : k ≠ Ct.FABRIC_TIMER_LATE.off ∧ k ≠ Ct.FABRIC_TIMER_LATE.sat)
    (m : Nat) (s : State) : rd (fireTimer m s) k = rd s k := by
  have he := eventKey_of_unitKey hk
  unfold fireTimer
  dsimp only
  split
  · rw [rd_raise (by decide) he, rd_bump_ne (by omega) (by omega) he, rd_elapseToMono he]
  · exact rd_elapseToMono he m s

theorem rd_watchdog_fenced (m : Nat) (s : State) :
    rd (raise 185 0 (fireTimer m s)) Reg.FABRIC_FENCED = rd s Reg.FABRIC_FENCED := by
  rw [rd_raise (by decide) (by decide), fireTimer_rd (by decide) (by decide)]

theorem doPilotWatchdog_fence {core back : Nat} (hp : s.fabric.pilots[core]? = some 1) (hback : back ≤ monoNs s)
    (hf : unitFenced s core = false) (hb : breaksFloor s core = false) :
    doPilotWatchdog core back s = fence core (raise 185 0 (fireTimer (back + 10000000) s)) := by
  have hrd := rd_watchdog_fenced (back + 10000000) s
  unfold doPilotWatchdog
  rw [if_pos ⟨by simp [List.getD_eq_getElem?_getD, hp], hback⟩]
  exact fenceOrDiag_fence ((unitFenced_of_rd hrd _).trans hf) ((breaksFloor_of_rd hrd _).trans hb)

/-- R28, R29: a fenced pilot core stops. -/
theorem fence_pilot {core : Nat} (hc : core < 4) :
    fence core s = raise 184 0 (modFabric (fun f => { f with pilots := f.pilots.set core 2 }) (markFenced core s)) := by
  unfold fence
  rw [if_pos hc]
  rfl

/-! Uncorrectable reads -/

/-- R348: what a bus fault counts before it is shown. -/
def countUe (cls : UeClass) (s : State) : State :=
  match cls with
  | .ue => bump 0 Ct.HOLD_UE s
  | .addr => bump 0 Ct.HOLD_ADDR_ERR (bump 0 Ct.HOLD_UE s)
  | .poison => bump 0 Ct.HOLD_POISON_READ s

/-- R348, R361: what HOLD_LAST_UE_LOC and HOLD_LAST_UE_INFO show. -/
def showUe (p : UePath) (cls : UeClass) (loc : BitVec 26) (s : State) : State :=
  fset 0 Fl.HOLD_LAST_UE_INFO_PATH p.code
    (fset 0 Fl.HOLD_LAST_UE_INFO_CLASS cls.code (fset 0 Fl.HOLD_LAST_UE_LOC_LOC loc.toNat s))

theorem countUe_bare (cls : UeClass) (s : State) : bareEvent (countUe cls s) = bareEvent s := by
  cases cls with
  | ue => exact bump_bare ..
  | addr => exact (bump_bare ..).trans (bump_bare ..)
  | poison => exact bump_bare ..

theorem fget_showUe (p : UePath) (cls : UeClass) (loc : BitVec 26) (s : State) :
    fget (showUe p cls loc s) 0 Fl.HOLD_LAST_UE_LOC_LOC = loc.toNat := by
  unfold showUe
  rw [fget_fset_beside (by decide) (by decide) (by decide), fget_fset_beside (by decide) (by decide) (by decide),
    fget_fset_self (by decide) (by decide)]
  exact Nat.mod_eq_of_lt loc.isLt

theorem metUe_cases (p : UePath) (cls : UeClass) (loc : BitVec 26) (s : State) :
    metUe p cls loc s = showUe p cls loc (countUe cls s) ∨ ∃ aux g, metUe p cls loc s =
      raiseAux 160 aux loc.toNat (modHold g (showUe p cls loc (countUe cls s))) := by
  by_cases h : (showUe p cls loc (countUe cls s)).hold.seen.contains loc = true
  · exact .inl (if_pos h)
  · exact .inr ⟨_, _, if_neg h⟩

theorem fget_metUe (p : UePath) (cls : UeClass) (loc : BitVec 26) (s : State) :
    fget (metUe p cls loc s) 0 Fl.HOLD_LAST_UE_LOC_LOC = loc.toNat := by
  rcases metUe_cases p cls loc s with e | ⟨x, g, e⟩
  · rw [e, fget_showUe]
  · have htold : ∀ w, Touches [] w (raiseAux 160 x loc.toNat (modHold g w)) := fun _ =>
      (Touches.of_modHold g).trans (Touches.of_raiseAux (c := 160) (by decide) x _)
    rw [e, (htold _).fget_eq (by decide) (by decide), fget_showUe]

/-- An uncorrectable read changes no berth and no claim. -/
theorem metUe_keeps (p : UePath) (cls : UeClass) (loc : BitVec 26) (s : State) :
    (metUe p cls loc s).berths = s.berths ∧ (metUe p cls loc s).claim = s.claim := by
  have hb : (showUe p cls loc (countUe cls s)).berths = s.berths := bareEvent_berths (countUe_bare cls s)
  have hc : (showUe p cls loc (countUe cls s)).claim = s.claim := bareEvent_claim (countUe_bare cls s)
  rcases metUe_cases p cls loc s with e | ⟨x, g, e⟩
  · rw [e]
    exact ⟨hb, hc⟩
  · rw [e, raiseAux_berths, raiseAux_claim]
    exact ⟨hb, hc⟩

/-! The unfence test -/

theorem takeUnfence_start {f : Nat} {v : Word} (hgo : bitAt 31 v = true) (hf : f = hmFn s) (h4 : 4 ≤ bitsOf 4 0 v)
    (h31 : bitsOf 4 0 v ≠ 31) (hn : s.fabric.unfencing = none) :
    takeUnfence f v s = fset 0 Fl.FABRIC_STATUS_UNIT (bitsOf 4 0 v) (fset 0 Fl.FABRIC_STATUS_PASS 0
      (modFabric (fun x => { x with unfencing := some (bitsOf 4 0 v) }) s)) := by
  have hok : ¬(f ≠ hmFn s ∨ bitsOf 4 0 v < 4 ∨ bitsOf 4 0 v = 31 ∨ s.fabric.unfencing.isSome = true) := by
    rw [hn]
    simp only [hf, ne_eq, not_true_eq_false, false_or, Option.isSome_none, Bool.false_eq_true, or_false]
    omega
  unfold takeUnfence
  dsimp only
  rw [hgo, if_neg (by decide), if_neg hok]

theorem takeUnfence_refuse {f : Nat} {v : Word} (hgo : bitAt 31 v = true)
    (h : f ≠ hmFn s ∨ bitsOf 4 0 v < 4 ∨ bitsOf 4 0 v = 31 ∨ s.fabric.unfencing ≠ none) :
    takeUnfence f v s = fset 0 Fl.FABRIC_STATUS_REFUSED 1 s := by
  rw [← Option.isSome_iff_ne_none] at h
  unfold takeUnfence
  dsimp only
  rw [hgo, if_neg (by decide), if_pos h]

/-- R31: what the end of a test shows. -/
def showPass (pass : Bool) (s : State) : State :=
  modFabric (fun x => { x with unfencing := none }) (fset 0 Fl.FABRIC_STATUS_PASS (if pass then 1 else 0) s)

/-- R31: the fence of unit `u` goes where its test has passed. -/
def clearFence (u : Nat) (pass : Bool) (s : State) : State :=
  if pass then wr Reg.FABRIC_FENCED (setBitAt u (rd s Reg.FABRIC_FENCED) false) s else s

theorem doUnfenceDone_eq {u : Nat} (h : s.fabric.unfencing = some u) (pass : Bool) :
    doUnfenceDone pass s = raise 178 0 (clearFence u pass (showPass pass s)) := by
  unfold doUnfenceDone
  rw [h]
  rfl

theorem fget_showPass (pass : Bool) (s : State) :
    fget (showPass pass s) 0 Fl.FABRIC_STATUS_PASS = if pass = true then 1 else 0 := by
  unfold showPass
  rw [(Touches.of_modFabric (ks := []) _).fget_eq (by decide) (by decide), fget_fset_self (by decide) (by decide)]
  cases pass <;> rfl

theorem showPass_touches (pass : Bool) (s : State) : Touches [Reg.FABRIC_STATUS] s (showPass pass s) :=
  (Touches.of_fset (by decide) (by decide) _).trans (.of_modFabric _)

theorem clearFence_fabric (u : Nat) (pass : Bool) (s : State) : (clearFence u pass s).fabric = s.fabric := by
  unfold clearFence
  split <;> rfl

theorem clearFence_touches (u : Nat) (pass : Bool) (s : State) : Touches [Reg.FABRIC_FENCED] s (clearFence u pass s) := by
  unfold clearFence
  split
  · exact .of_wr (by decide) (by decide) _
  · exact .refl

theorem rd_clearFence (u : Nat) (pass : Bool) (s : State) : rd (clearFence u pass s) Reg.FABRIC_FENCED =
    if pass = true then setBitAt u (rd s Reg.FABRIC_FENCED) false else rd s Reg.FABRIC_FENCED := by
  unfold clearFence
  split
  · exact rd_wr_self _ _ _
  · rfl

/-! Rate and voltage -/

/-- R20: the rate of a window and the low-water mark are shown. -/
def showRate (rate : Nat) (s : State) : State :=
  fset 0 Fl.FABRIC_RATE_LOW_WATER (min rate (fget s 0 Fl.FABRIC_RATE_LOW_WATER)) (fset 0 Fl.FABRIC_RATE_RATE rate s)

/-- R20: the latch of event 180 after a window. -/
def noteLow (rate : Nat) (s : State) : State :=
  let warn := fget s 0 Fl.FABRIC_RATE_WARN_THRESHOLD
  if rate < warn ∧ !s.fabric.lowLatched then raise 180 0 (modFabric (fun f => { f with lowLatched := true }) (showRate rate s))
  else if warn < rate then modFabric (fun f => { f with lowLatched := false }) (showRate rate s)
  else showRate rate s

theorem doRateWindow_eq (rate : Nat) (s : State) : doRateWindow rate s = voltagePolicy rate (noteLow rate s) := rfl

theorem fget_showRate_rate {rate : Nat} (h : rate < 65536) (s : State) : fget (showRate rate s) 0 Fl.FABRIC_RATE_RATE = rate := by
  unfold showRate
  rw [fget_fset_beside (by decide) (by decide) (by decide), fget_fset_self (by decide) (by decide)]
  exact Nat.mod_eq_of_lt h

theorem fget_showRate_low {rate : Nat} (h : rate < 65536) (s : State) :
    fget (showRate rate s) 0 Fl.FABRIC_RATE_LOW_WATER = min rate (fget s 0 Fl.FABRIC_RATE_LOW_WATER) := by
  unfold showRate
  rw [fget_fset_self (by decide) (by decide)]
  exact Nat.mod_eq_of_lt (Nat.lt_of_le_of_lt (Nat.min_le_left _ _) h)

theorem noteLow_cases (rate : Nat) (s : State) : ∃ low,
    let u := modFabric (fun f => { f with lowLatched := low }) (showRate rate s)
    noteLow rate s = raise 180 0 u ∨ noteLow rate s = u := by
  unfold noteLow
  dsimp only
  split
  · exact ⟨true, .inl rfl⟩
  · split
    · exact ⟨false, .inr rfl⟩
    · exact ⟨s.fabric.lowLatched, .inr rfl⟩

theorem noteLow_touches (rate : Nat) (s : State) : Touches [] (showRate rate s) (noteLow rate s) := by
  obtain ⟨low, e | e⟩ := noteLow_cases rate s
  · rw [e]
    exact (Touches.of_modFabric _).trans (Touches.of_raise (c := 180) (by decide) 0)
  · rw [e]
    exact .of_modFabric _

theorem showRate_touches (rate : Nat) (s : State) : Touches [Reg.FABRIC_RATE] s (showRate rate s) :=
  (Touches.of_fset (by decide) (by decide) _).trans (.of_fset (by decide) (by decide) _)

theorem noteLow_runs (rate : Nat) (s : State) : (noteLow rate s).fabric.lowRun = s.fabric.lowRun := by
  obtain ⟨low, e | e⟩ := noteLow_cases rate s
  · rw [e, raise_fabric]
    rfl
  · rw [e]
    rfl

theorem noteLow_low {rate : Nat} (h : rate < fget s 0 Fl.FABRIC_RATE_WARN_THRESHOLD) (hl : s.fabric.lowLatched = false) :
    noteLow rate s = raise 180 0 (modFabric (fun f => { f with lowLatched := true }) (showRate rate s)) :=
  if_pos ⟨h, by rw [hl]; rfl⟩

theorem setVreq_cases (mv : Nat) (s : State) : setVreq mv s = s ∨
    setVreq mv s = setAlert 0 (raise 181 0 (fset 0 Fl.FABRIC_VREQ_VREQ_MV mv s)) := by
  unfold setVreq
  split
  · exact .inl rfl
  · exact .inr rfl

theorem setVreq_touches (mv : Nat) (s : State) : Touches [Reg.FABRIC_VREQ] s (setVreq mv s) := by
  rcases setVreq_cases mv s with e | e
  · rw [e]
    exact .refl
  · rw [e]
    exact ((Touches.of_fset (by decide) (by decide) _).trans (Touches.of_raise (c := 181) (by decide) 0)).trans (.of_setAlert 0)

theorem setVreq_fabric (mv : Nat) (s : State) : (setVreq mv s).fabric = s.fabric := by
  rcases setVreq_cases mv s with e | e
  · rw [e]
  · rw [e]
    exact raise_fabric ..

/-- R21: the voltage policy counts its runs, and may ask for another voltage. -/
theorem voltagePolicy_cases (rate : Nat) (s : State) : ∃ low high,
    let u := modFabric (fun f => { f with lowRun := low, highRun := high }) s
    voltagePolicy rate s = u ∨ ∃ mv, voltagePolicy rate s = setVreq mv u := by
  unfold voltagePolicy
  dsimp only
  split
  · exact ⟨_, _, .inl rfl⟩
  · generalize (if rate < targetRate s then s.fabric.lowRun + 1 else 0) = low
    generalize (if targetRate s + 80 < rate then s.fabric.highRun + 1 else 0) = high
    split
    · exact ⟨_, _, .inr ⟨_, rfl⟩⟩
    · split
      · exact ⟨_, _, .inr ⟨_, rfl⟩⟩
      · exact ⟨_, _, .inl rfl⟩

theorem voltagePolicy_touches (rate : Nat) (s : State) : Touches [Reg.FABRIC_VREQ] s (voltagePolicy rate s) := by
  obtain ⟨low, high, e | ⟨mv, e⟩⟩ := voltagePolicy_cases rate s
  · rw [e]
    exact .of_modFabric _
  · rw [e]
    exact (Touches.of_modFabric _).trans (setVreq_touches mv _)

theorem voltagePolicy_latch (rate : Nat) (s : State) : (voltagePolicy rate s).fabric.lowLatched = s.fabric.lowLatched := by
  obtain ⟨low, high, e | ⟨mv, e⟩⟩ := voltagePolicy_cases rate s
  · rw [e]
    rfl
  · rw [e, setVreq_fabric]
    rfl

/-- R21: the hundredth low window in a row asks for 10 mV more. -/
theorem voltagePolicy_raise {rate : Nat} (he : fbit s 0 Fl.FABRIC_VPOLICY_ENABLE = true) (hr : rate < targetRate s)
    (hrun : s.fabric.lowRun = 99) (hc : fget s 0 Fl.FABRIC_VREQ_VREQ_MV + 10 ≤ ceilMv s) :
    ∃ u : State, voltagePolicy rate s =
      setAlert 0 (raise 181 0 (fset 0 Fl.FABRIC_VREQ_VREQ_MV (fget s 0 Fl.FABRIC_VREQ_VREQ_MV + 10) u)) := by
  unfold voltagePolicy
  dsimp only
  rw [he, if_neg (by decide), if_pos hr, hrun, if_pos ⟨rfl, hc⟩, setVreq]
  exact ⟨_, if_neg fun e => Nat.ne_of_lt (Nat.lt_add_of_pos_right (by decide)) e⟩

theorem ceilMv_le (s : State) : ceilMv s ≤ 900 := by
  unfold ceilMv
  dsimp only
  split <;> omega

end

/-! Whole steps -/

section
variable {s : State}

theorem rd_after_unit {k : Nat} (hk : unitKey k = true) (u t : State) : rd (settle (tapAll u t)) k = rd t k :=
  rd_after (ownKey_of_unitKey hk)

theorem fget_after_unit {f : Fld} (hk : unitKey f.off = true) (u t : State) : fget (settle (tapAll u t)) 0 f = fget t 0 f :=
  (Touches.after (ks := []) u).fget_eq hk List.not_mem_nil

theorem fabric_after (u t : State) : (settle (tapAll u t)).fabric = t.fabric := (settle_fabric _).trans (tapAll_fabric u t)

theorem InDiag.after {t : State} {cause : Nat} (h : InDiag t cause) (u : State) : InDiag (settle (tapAll u t)) cause where
  st_eq := by rw [settle_claim, tapAll_claim, h.st_eq]
  cause_eq := by rw [fget_after_unit (by decide), h.cause_eq]
  gate_eq := by rw [settle_claim, tapAll_claim, h.gate_eq]
  pilots_eq := by rw [fabric_after, h.pilots_eq]
  raised := raised_after (by decide) h.raised

/-- A step in which a token is refused for the first or second time (R27). -/
theorem parityFailure_replays {l : Link} {again : Bool} (h : refusalRun s l again < 3) :
    let t := settle (tapAll s (doParityFailure l again s))
    refusals t l = refusalRun s l again ∧ Counted s t 0 Ct.FABRIC_REPLAY 1 ∧ rd t Reg.FABRIC_FENCED = rd s Reg.FABRIC_FENCED ∧
      t.fabric.replays.head? = some (monoNs s) := by
  have hrd := (replay_touches (setRefusals l (refusalRun s l again) s)).rd_eq Reg.FABRIC_FENCED (by decide) (by decide)
  dsimp only
  rw [doParityFailure_replay h, rd_after_unit (by decide), hrd, refusals_of_fabric (fabric_after s _), fabric_after]
  have hcount : Counted s (replay (setRefusals l (refusalRun s l again) s)) 0 Ct.FABRIC_REPLAY 1 :=
    (counted_replay (setRefusals l (refusalRun s l again) s)).congr (rd_of_regs rfl rfl _) rfl
  refine ⟨?_, hcount.after (by decide), rfl, ?_⟩
  · rw [refusals_replay, refusals_setRefusals_self]
  · rw [replay_fabric]
    rfl

/-- A step in which a link fault fences its unit (R27, R28). -/
theorem parityFailure_fences {u : Fin 31} {again : Bool} (h : 3 ≤ refusalRun s (.unit u) again) (hf : unitFenced s u.val = false)
    (hb : breaksFloor s u.val = false) (hair : NoneOnAir s) :
    let t := settle (tapAll s (doParityFailure (.unit u) again s))
    refusals t (.unit u) = 0 ∧ rd t Reg.FABRIC_FENCED = setBitAt u.val (rd s Reg.FABRIC_FENCED) true ∧
      rd t Reg.FABRIC_LINK_FAULT = setBitAt u.val (rd s Reg.FABRIC_LINK_FAULT) true ∧ Raised t 176 ∧ Raised t 177 := by
  have hair' := fun _ : 12 ≤ u.val => hair.of_berths (showLinkFault_berths u.val (forgetRun (.unit u) s))
  have htouch := fence_touches u.val hair'
  dsimp only
  rw [doParityFailure_fence h hf hb, rd_after_unit (by decide), rd_after_unit (by decide), rd_fence u.val hair', rd_fault_fenced,
    htouch.rd_eq _ (by decide) (by decide), rd_showLinkFault, refusals_of_fabric (fabric_after s _),
    refusals_of_refused (fence_work u.val hair').2]
  refine ⟨?_, rfl, rfl, raised_after (by decide) (htouch.raised 176 (by decide) (raised_showLinkFault _ _)),
    raised_after (by decide) (raised_fence u.val hair')⟩
  rw [refusals_of_fabric (showLinkFault_fabric _ _), refusals_setRefusals_self]

/-- The job of a stevedore, cut inside its sling and wherever it now is (R28, R277). -/
abbrev cutFrom (j : Job) : Job → Bool := fun q =>
  q.fn = j.fn && q.what = j.what && j.moved ≤ q.moved && q.moved < j.moved + max 1 (slingLen j)

/-- A step in which a link fault fences a stevedore at work: its job goes on from inside its sling (R28). -/
theorem parityFailure_returnsJob {u : Fin 31} {again : Bool} {j : Job} (h : 3 ≤ refusalRun s (.unit u) again)
    (hf : unitFenced s u.val = false) (hb : breaksFloor s u.val = false) (h4 : 4 ≤ u.val) (h12 : u.val < 12)
    (hj : s.stevs.getD (u.val - 4) none = some j) (hsite : j.what.site < 4) :
    Waits (settle (tapAll s (doParityFailure (.unit u) again s))) (cutFrom j) := by
  have hready := fence_returnsJob (s := showLinkFault u.val (forgetRun (.unit u) s)) h4 h12 (by rw [showLinkFault_stevs]; exact hj)
  have hopen : ∀ q, cutFrom j q = true → q.open = false := fun q hq => by
    simp only [Bool.and_eq_true, decide_eq_true_eq] at hq
    obtain ⟨⟨⟨_, hwhat⟩, _⟩, _⟩ := hq
    exact open_eq_false_of_site (hwhat ▸ hsite)
  rw [doParityFailure_fence h hf hb]
  refine waits_after hopen (waits_iff.mpr ⟨_, ?_, .inl hready⟩)
  have hcut := cutAt_lt (markFenced u.val (showLinkFault u.val (forgetRun (.unit u) s))) j
  simp only [cutJob, Bool.and_eq_true, decide_eq_true_eq]
  exact ⟨⟨⟨trivial, trivial⟩, Nat.le_add_right _ _⟩, Nat.add_lt_add_left hcut _⟩

/-- A step that ends in self-diagnosis from a state that differs from the first neither in its claim nor in its frames on air. -/
theorem diag_after {w : State} (hst : s.claim.st ≠ .diag) (hair : NoneOnAir s) (hc : w.claim = s.claim) (hb : w.berths = s.berths)
    {cause : Nat} (h16 : cause < 16) (detail : Nat) :
    InDiag (settle (tapAll s (enterDiag cause detail w))) cause ∧
      Touches [Reg.CLAIM_DIAG] w (settle (tapAll s (enterDiag cause detail w))) := by
  have hst' : w.claim.st ≠ .diag := hc ▸ hst
  have hair' := hair.of_berths hb
  exact ⟨(enterDiag_inDiag hst' hair' h16 detail).after s,
    (enterDiag_touches hst' hair' cause detail (by decide)).trans (.after s)⟩

/-- A step in which a link fault would break a floor (R30). -/
theorem parityFailure_floorDiag {u : Fin 31} {again : Bool} (h : 3 ≤ refusalRun s (.unit u) again)
    (hf : unitFenced s u.val = false) (hb : breaksFloor s u.val = true) (hair : NoneOnAir s) (hst : s.claim.st ≠ .diag) :
    let t := settle (tapAll s (doParityFailure (.unit u) again s))
    rd t Reg.FABRIC_FENCED = rd s Reg.FABRIC_FENCED ∧ InDiag t 3 ∧ Raised t 187 := by
  have hclaim := (raise_claim 187 0 (showLinkFault u.val (forgetRun (.unit u) s))).trans (showLinkFault_claim _ _)
  have hberths := (raise_berths 187 0 (showLinkFault u.val (forgetRun (.unit u) s))).trans (showLinkFault_berths _ _)
  obtain ⟨hdiag, htouch⟩ := diag_after hst hair hclaim hberths (by decide : 3 < 16) u.val
  dsimp only
  rw [doParityFailure_floor h hf hb, htouch.rd_eq _ (by decide) (by decide), rd_raise (by decide) (by decide), rd_fault_fenced]
  exact ⟨rfl, hdiag, htouch.raised 187 (by decide) (raised_raise_self (by decide) 0 _)⟩

/-- A step in which a link fault meets a unit that has no fence (R30). -/
theorem parityFailure_coreDiag {b : Fin 16} {again : Bool} (h : 3 ≤ refusalRun s (.core b) again) (hair : NoneOnAir s)
    (hst : s.claim.st ≠ .diag) :
    let t := settle (tapAll s (doParityFailure (.core b) again s))
    InDiag t 2 ∧ rd t Reg.FABRIC_CORE_FAULT = setBitAt b.val (rd s Reg.FABRIC_CORE_FAULT) true ∧ Raised t 186 := by
  obtain ⟨detail, e⟩ := doParityFailure_core h
  obtain ⟨hdiag, htouch⟩ := diag_after (w := showCoreFault b.val (forgetRun (.core b) s)) hst hair (raise_claim ..)
    (raise_berths ..) (by decide : 2 < 16) detail
  dsimp only
  rw [e, htouch.rd_eq _ (by decide) (by decide), rd_showCoreFault]
  exact ⟨hdiag, rfl, htouch.raised 186 (by decide) (raised_showCoreFault _ _)⟩

/-- A step in which a pilot core misses its watchdog (R18, R29). -/
theorem watchdog_fences {core back : Nat} (hc : core < 4) (hp : s.fabric.pilots[core]? = some 1) (hback : back ≤ monoNs s)
    (hf : unitFenced s core = false) (hb : breaksFloor s core = false) :
    let t := settle (tapAll s (doPilotWatchdog core back s))
    rd t Reg.FABRIC_FENCED = setBitAt core (rd s Reg.FABRIC_FENCED) true ∧ t.fabric.pilots[core]? = some 2 ∧
      Raised t 185 ∧ Raised t 177 ∧ Raised t 184 := by
  have hair : 12 ≤ core → NoneOnAir (raise 185 0 (fireTimer (back + 10000000) s)) := fun h => absurd h (by omega)
  have hlt : core < s.fabric.pilots.length := (List.getElem?_eq_some_iff.mp hp).1
  have hpilots : (fence core (raise 185 0 (fireTimer (back + 10000000) s))).fabric.pilots = s.fabric.pilots.set core 2 := by
    rw [fence_pilot hc, raise_fabric, modFabric_fabric, markFenced_fabric, raise_fabric, fireTimer_fabric]
  have h184 : Raised (fence core (raise 185 0 (fireTimer (back + 10000000) s))) 184 := by
    rw [fence_pilot hc]
    exact raised_raise_self (by decide) 0 _
  dsimp only
  rw [doPilotWatchdog_fence hp hback hf hb, rd_after_unit (by decide), rd_fence core hair, rd_watchdog_fenced, fabric_after,
    hpilots]
  exact ⟨rfl, List.getElem?_set_self hlt,
    raised_after (by decide) ((fence_touches core hair).raised 185 (by decide) (raised_raise_self (by decide) 0 _)),
    raised_after (by decide) (raised_fence core hair), raised_after (by decide) h184⟩

/-- A step in which a pilot core meets an uncorrectable fetch or load (R349). -/
theorem pilotBusFault_diag {core : Nat} {fetch : Bool} {cls : UeClass} {loc : BitVec 26} (hp : s.fabric.pilots[core]? = some 1)
    (hair : NoneOnAir s) (hst : s.claim.st ≠ .diag) :
    let t := settle (tapAll s (doPilotBusFault core fetch cls loc s))
    InDiag t 1 ∧ fget t 0 Fl.HOLD_LAST_UE_LOC_LOC = loc.toNat ∧ Raised t 168 := by
  obtain ⟨hberths, hclaim⟩ := metUe_keeps (if fetch then .fetch else .load) cls loc s
  obtain ⟨hdiag, htouch⟩ := diag_after hst hair ((raise_claim 168 core _).trans hclaim)
    ((raise_berths 168 core _).trans hberths) (by decide : 1 < 16) core
  have hshown := (Touches.of_raise (ks := [Reg.CLAIM_DIAG]) (c := 168) (by decide) core).trans htouch
  have e : doPilotBusFault core fetch cls loc s =
      enterDiag 1 core (raise 168 core (metUe (if fetch then .fetch else .load) cls loc s)) := by
    unfold doPilotBusFault
    rw [if_pos (by simp [List.getD_eq_getElem?_getD, hp])]
  dsimp only
  rw [e, hshown.fget_eq (by decide) (by decide), fget_metUe]
  exact ⟨hdiag, rfl, htouch.raised 168 (by decide) (raised_raise_self (by decide) core _)⟩

/-- A step in which an unfence test ends (R31). -/
theorem unfenceDone_shows {u : Nat} (h : s.fabric.unfencing = some u) (pass : Bool) :
    let t := settle (tapAll s (doUnfenceDone pass s))
    t.fabric = { s.fabric with unfencing := none } ∧ Raised t 178 ∧
      fget t 0 Fl.FABRIC_STATUS_PASS = (if pass = true then 1 else 0) ∧
      rd t Reg.FABRIC_FENCED =
        if pass = true then setBitAt u (rd s Reg.FABRIC_FENCED) false else rd s Reg.FABRIC_FENCED := by
  have htold : ∀ w, Touches [] w (raise 178 0 w) := fun w => .of_raise (by decide) 0
  dsimp only
  rw [doUnfenceDone_eq h, fabric_after, fget_after_unit (by decide), rd_after_unit (by decide), raise_fabric, clearFence_fabric,
    (htold _).fget_eq (by decide) (by decide), (clearFence_touches u pass _).fget_eq (by decide) (by decide), fget_showPass,
    (htold _).rd_eq _ (by decide) (by decide), rd_clearFence, (showPass_touches pass s).rd_eq _ (by decide) (by decide)]
  exact ⟨rfl, raised_after (by decide) (raised_raise_self (by decide) 0 _), rfl, rfl⟩

/-- A step in which the hundredth low window in a row ends (R21). -/
theorem rateWindow_raises {rate : Nat} (he : fbit s 0 Fl.FABRIC_VPOLICY_ENABLE = true) (hr : rate < targetRate s)
    (hrun : s.fabric.lowRun = 99) (hc : fget s 0 Fl.FABRIC_VREQ_VREQ_MV + 10 ≤ ceilMv s) :
    let t := settle (tapAll s (doRateWindow rate s))
    fget t 0 Fl.FABRIC_VREQ_VREQ_MV = fget s 0 Fl.FABRIC_VREQ_VREQ_MV + 10 ∧ Raised t 181 ∧ bitAt 0 t.mgmt.alert = true := by
  have htouch := (showRate_touches rate s).trans ((noteLow_touches rate s).mono (List.nil_subset _))
  have hmv := htouch.fget_eq (f := Fl.FABRIC_VREQ_VREQ_MV) (by decide) (by decide)
  have hen := htouch.fget_eq (f := Fl.FABRIC_VPOLICY_ENABLE) (by decide) (by decide)
  have htarget := htouch.fget_eq (f := Fl.FABRIC_VPOLICY_TARGET_MTPS) (by decide) (by decide)
  have hceil : ceilMv (noteLow rate s) = ceilMv s := by
    simp only [ceilMv, htouch.fget_eq (f := Fl.FABRIC_VPOLICY_CEIL_MV) (by decide) (by decide)]
  obtain ⟨u, e⟩ := voltagePolicy_raise (s := noteLow rate s) (rate := rate) (by rw [fbit, hen]; exact he)
    (by rw [targetRate, htarget]; exact hr) (by rw [noteLow_runs, hrun]) (by rw [hmv, hceil]; exact hc)
  have hle := ceilMv_le s
  have hraise : Touches [] (fset 0 Fl.FABRIC_VREQ_VREQ_MV (fget s 0 Fl.FABRIC_VREQ_VREQ_MV + 10) u) (setAlert 0 (raise 181 0
      (fset 0 Fl.FABRIC_VREQ_VREQ_MV (fget s 0 Fl.FABRIC_VREQ_VREQ_MV + 10) u))) :=
    (Touches.of_raise (c := 181) (by decide) 0).trans (.of_setAlert 0)
  rw [hmv] at e
  dsimp only
  rw [fget_after_unit (by decide), settle_mgmt, tapAll_mgmt, doRateWindow_eq, e, hraise.fget_eq (by decide) (by decide),
    fget_fset_self (by decide) (by decide)]
  refine ⟨Nat.mod_eq_of_lt (show _ < 1024 by omega), raised_after (by decide) ?_, bitAt_setBitAt_self (by decide)⟩
  exact (Touches.of_setAlert (ks := []) 0).raised 181 (by decide) (raised_raise_self (by decide) 0 _)

/-- A step in which a window of the replica rings ends (R20). -/
theorem rateWindow_shows (rate : BitVec 16) :
    let t := settle (tapAll s (doRateWindow rate.toNat s))
    fget t 0 Fl.FABRIC_RATE_RATE = rate.toNat ∧
      fget t 0 Fl.FABRIC_RATE_LOW_WATER = min rate.toNat (fget s 0 Fl.FABRIC_RATE_LOW_WATER) := by
  have hshown : Touches [Reg.FABRIC_VREQ] (showRate rate.toNat s) (settle (tapAll s (doRateWindow rate.toNat s))) :=
    (((noteLow_touches _ s).mono (List.nil_subset _)).trans (voltagePolicy_touches _ _)).trans (.after s)
  dsimp only
  rw [hshown.fget_eq (by decide) (by decide), hshown.fget_eq (by decide) (by decide)]
  exact ⟨fget_showRate_rate rate.isLt s, fget_showRate_low rate.isLt s⟩

/-- A step in which a first window below the threshold ends (R20). -/
theorem rateWindow_latches {rate : Nat} (h : rate < fget s 0 Fl.FABRIC_RATE_WARN_THRESHOLD) (hl : s.fabric.lowLatched = false) :
    let t := settle (tapAll s (doRateWindow rate s))
    t.fabric.lowLatched = true ∧ Raised t 180 := by
  have hraised := (voltagePolicy_touches rate (noteLow rate s)).raised 180 (by decide)
  dsimp only
  rw [fabric_after, doRateWindow_eq, voltagePolicy_latch]
  rw [noteLow_low h hl] at hraised ⊢
  exact ⟨by rw [raise_fabric]; rfl, raised_after (by decide) (hraised (raised_raise_self (by decide) 0 _))⟩

end

/-- Settles O39, clause by clause: what the command does before settling, and that settling keeps it. -/
theorem fabricFaultsAndRate : Obligations.FabricFaultsAndRate := by
  intro s hw run noneOnAir diag
  have hidle : noneOnAir → NoneOnAir s := fun h n hn => h ⟨n, hn⟩
  have hspelt : ∀ {t : State} {cause : Nat}, InDiag t cause → diag t cause := fun h =>
    ⟨h.st_eq, h.cause_eq, h.gate_eq, h.pilots_eq, h.raised⟩
  refine ⟨fun l again h => ⟨_, act_works hw _, parityFailure_replays h⟩,
    fun u again h hf hb ha => ⟨_, act_works hw _, parityFailure_fences h hf hb (hidle ha)⟩,
    fun u again j h hf hb h4 h12 hj hsite => ⟨_, act_works hw _, parityFailure_returnsJob h hf hb h4 h12 hj hsite⟩,
    fun u again h hf hb ha hst => ⟨_, act_works hw _, ?floor⟩, fun b again h ha hst => ⟨_, act_works hw _, ?core⟩,
    fun c back hp hback hf hb => ⟨_, act_works hw _, watchdog_fences c.isLt hp hback hf hb⟩,
    fun c fetch cls loc hp ha hst => ⟨_, act_works hw _, ?busFault⟩,
    fun f v hacc hgo hf h4 h31 hn => ⟨_, act_works hw _, ?unfence⟩, fun f v hacc hgo h => ⟨_, act_works hw _, ?refused⟩,
    fun u pass hu => ⟨_, act_works hw _, unfenceDone_shows hu pass⟩, fun rate => ⟨_, act_works hw _, rateWindow_shows rate⟩,
    fun rate hlow hl => ⟨_, act_works hw _, rateWindow_latches hlow hl⟩,
    fun rate he hr hrun hc => ⟨_, act_works hw _, rateWindow_raises he hr hrun hc⟩,
    fun f v hacc h16 h0 => ⟨_, act_works hw _, ?clear⟩⟩
  case floor =>
    obtain ⟨hrd, hdiag, hraised⟩ := parityFailure_floorDiag h hf hb (hidle ha) hst
    exact ⟨hrd, hspelt hdiag, hraised⟩
  case core =>
    obtain ⟨hdiag, hrd, hraised⟩ := parityFailure_coreDiag h (hidle ha) hst
    exact ⟨hspelt hdiag, hrd, hraised⟩
  case busFault =>
    obtain ⟨hdiag, hloc, hraised⟩ := pilotBusFault_diag hp (hidle ha) hst
    exact ⟨hspelt hdiag, hloc, hraised⟩
  case unfence =>
    have e := takeUnfence_start (s := active f.val s) hgo hf h4 h31 (by rw [active_fabric, hn])
    rw [rowWrite_accepts hacc, e, fabric_after, fget_after_unit (by decide), fget_after_unit (by decide),
      fget_fset_self (by decide) (by decide), fget_fset_beside (by decide) (by decide) (by decide),
      fget_fset_self (by decide) (by decide)]
    exact ⟨rfl, Nat.mod_eq_of_lt (bitsOf_lt 4 0 v), rfl⟩
  case refused =>
    have e := takeUnfence_refuse (s := active f.val s) hgo (by rw [active_fabric]; exact h)
    rw [rowWrite_accepts hacc, e, fabric_after, fget_after_unit (by decide), fget_fset_self (by decide) (by decide)]
    exact ⟨rfl, rfl⟩
  case clear =>
    rw [rowWrite_accepts hacc, takeFabricCtrl, h16, h0]
    rw [fget_after_unit (by decide), fget_after_unit (by decide)]
    exact ⟨fget_fset_self (by decide) (by decide), fget_fset_beside (by decide) (by decide) (by decide)⟩

end Sys2Proof.Machine
end

section
/-!
PROOF. Counting and raising (R42, R43, R45, R48): what a counter shows below and at its maximum, and what an event sets and to whom
it is delivered.
-/

namespace Sys2Proof.Machine

/-! Counters -/

section
variable {base n : Nat} {c : Cnt} {s : State}

theorem bumpBy_below (h : (rd s (base + c.off)).toNat + n < 0xFFFFFFFF) :
    bumpBy base c n s = wr (base + c.off) (BitVec.ofNat 32 ((rd s (base + c.off)).toNat + n)) s := if_pos h

/-- R42: the counter at its maximum. -/
abbrev counterFull (base : Nat) (c : Cnt) (s : State) : State := wr (base + c.off) 0xFFFFFFFF s

theorem bumpBy_shown (h : 0xFFFFFFFF ≤ (rd s (base + c.off)).toNat + n) (hs : bitAt c.bit (rd s (base + c.sat)) = true) :
    bumpBy base c n s = counterFull base c s := by
  unfold bumpBy
  dsimp only
  rw [if_neg (Nat.not_lt.mpr h), if_pos hs]

/-- R43: a counter that reaches its maximum shows it and tells it. -/
theorem bumpBy_full (h : 0xFFFFFFFF ≤ (rd s (base + c.off)).toNat + n) (hs : bitAt c.bit (rd s (base + c.sat)) = false) :
    bumpBy base c n s = raiseSaturated (base + c.off)
      (wr (base + c.sat) (setBitAt c.bit (rd s (base + c.sat)) true) (counterFull base c s)) := by
  unfold bumpBy
  dsimp only
  rw [if_neg (Nat.not_lt.mpr h), if_neg (by rw [hs]; exact Bool.false_ne_true)]

theorem raised_raiseSaturated (k : Nat) (s : State) : Raised (raiseSaturated k s) 255 :=
  raised_raiseAux_self (by decide) _ _ s

/-- R42: at the maximum the counter's bit of CNT_SAT is 1. -/
theorem bitAt_sat_bumpBy (hd : c.off ≠ c.sat) (h32 : c.bit < 32) (he : eventKey (base + c.sat) = false)
    (h : 0xFFFFFFFF ≤ (rd s (base + c.off)).toNat + n) : bitAt c.bit (rd (bumpBy base c n s) (base + c.sat)) = true := by
  cases hs : bitAt c.bit (rd s (base + c.sat)) with
  | true => rw [bumpBy_shown h hs, rd_wr_ne (by omega), hs]
  | false => rw [bumpBy_full h hs, rd_raiseSaturated he, rd_wr_self, bitAt_setBitAt_self h32]

end

/-- Settles O58: the three forms of counting, below the maximum, on reaching it, and at it. -/
theorem countersStop : Obligations.CountersStop := by
  intro base n c s hd h32 hoff hsat t
  refine ⟨rd_bumpBy_self hoff hd n s, fun h => ?below,
    fun h => ⟨bitAt_sat_bumpBy hd h32 hsat h, fun hs => ?full, fun hs => ?shown⟩⟩
  case below =>
    rw [show t = _ from bumpBy_below h]
    exact ⟨fun k hk => rd_wr_ne hk _ s, wr_fns ..⟩
  case full =>
    refine ⟨?_, fun k hk h1 h2 => rd_bumpBy_ne h1 h2 hk n s⟩
    rw [show t = _ from bumpBy_full h hs]
    exact raised_raiseSaturated _ _
  case shown =>
    rw [show t = _ from bumpBy_shown h hs]
    exact ⟨wr_fns .., fun k hk => rd_wr_ne hk _ s⟩

/-! Events -/

/-- The register that holds the pending bit of source `c` for function `f` (R45, R53). -/
abbrev pendKey (f c : Nat) : Nat := fb f + Reg.EVT_PEND + c / 32 * 4

/-- A bit set in one register reads so, and no other bit of any register changes. -/
theorem bitAt_rd_setBit {i j k k' : Nat} (hj : j < 32) (s : State) :
    bitAt j (rd (wr k (setBitAt i (rd s k) true) s) k') = (bitAt j (rd s k') || (decide (k' = k) && decide (j = i))) := by
  rw [rd_wr]
  by_cases hk : k' = k
  · by_cases hi : j = i
    · subst hi
      simp [hk, bitAt_setBitAt_self hj]
    · simp [hk, hi, bitAt_setBitAt_ne hi]
  · simp [hk]

theorem pendKey_inj {f g c d : Nat} (hc : c < 256) (hd : d < 256) : pendKey f c = pendKey g d ↔ f = g ∧ c / 32 = d / 32 := by
  unfold pendKey fb Reg.EVT_PEND
  omega

/-- The occurrence of an event is delivered to function `f`: its enables are 1 and it is not quiesced (R48, R50). -/
def deliversTo (s : State) (f code : Nat) : Bool :=
  fbit s (fb f) Fl.EVT_CTRL_ENABLE && bitAt (code % 32) (rd s (fb f + Reg.EVT_ENABLE + code / 32 * 4)) && !(getFn s f).quiesced

/-- R45: the pending bit of an event for one function is set. -/
abbrev setPend (f code : Nat) (s : State) : State := wr (pendKey f code) (setBitAt (code % 32) (rd s (pendKey f code)) true) s

/-- R46, R48: the occurrence as it joins function `f`'s events to write. -/
abbrev occFor (o : EvOcc) (f : Nat) (s : State) : EvOcc := { o with newly := !bitAt (o.code % 32) (rd s (pendKey f o.code)) }

theorem raiseTo_eq (o : EvOcc) (f : Nat) (s : State) : raiseTo o f s =
    if (routeMask s o.code).testBit f then
      if deliversTo s f o.code then modFn f (fun x => { x with evq := x.evq ++ [occFor o f s] }) (setPend f o.code s)
      else setPend f o.code s
    else s := rfl

/-- Of a function's own view only EVT_PEND holds event bits (R34, R45). -/
theorem eventKey_fb (f : Nat) {off : Nat} (h : off < 0x1820 ∨ 0x1840 ≤ off) (h2 : off < 0x8800) :
    eventKey (fb f + off) = false := by
  unfold eventKey fb
  simp only [Bool.or_eq_false_iff, Bool.and_eq_false_iff, decide_eq_false_iff_not]
  omega

theorem eventKey_route {c : Nat} (hc : c < 256) : eventKey (Reg.GEVT_ROUTE + c / 4 * 4) = false := by
  unfold eventKey Reg.GEVT_ROUTE
  simp only [Bool.or_eq_false_iff, Bool.and_eq_false_iff, decide_eq_false_iff_not]
  omega

theorem eventKey_enable (f : Nat) {c : Nat} (hc : c < 256) : eventKey (fb f + Reg.EVT_ENABLE + c / 32 * 4) = false := by
  rw [Nat.add_assoc]
  exact eventKey_fb f (by unfold Reg.EVT_ENABLE; omega) (by unfold Reg.EVT_ENABLE; omega)

section
variable {s t : State} {code f : Nat}

theorem routeMask_of_rd (hc : code < 256) (h : ∀ k, eventKey k = false → rd t k = rd s k) :
    routeMask t code = routeMask s code := by
  rw [routeMask, routeMask, h _ (eventKey_route hc)]

theorem fget_of_rd {b : Nat} {d : Fld} (h : rd t (b + d.off) = rd s (b + d.off)) : fget t b d = fget s b d := by
  rw [fget, fget, h]

theorem deliversTo_of_rd (hc : code < 256) (h : ∀ k, eventKey k = false → rd t k = rd s k)
    (hq : (getFn t f).quiesced = (getFn s f).quiesced) : deliversTo t f code = deliversTo s f code := by
  rw [deliversTo, deliversTo, h _ (eventKey_enable f hc), hq, fbit, fbit,
    fget_of_rd (h _ (eventKey_fb f (by decide) (by decide)))]

end

/-- What raising an event reads and changes of one function: the function, whether there is such a one, its pending registers, whether
the event's route names it, and whether the event is delivered to it. -/
structure EventView where
  fn : FnS
  there : Bool
  pend : Fin 256 → Word
  routed : Bool
  delivers : Bool

/-- The view of function `f` that raising event `code` takes. -/
def eventView (code f : Nat) (s : State) : EventView where
  fn := getFn s f
  there := f < s.fns.length
  pend c := rd s (pendKey f c.val)
  routed := (routeMask s code).testBit f
  delivers := deliversTo s f code

/-- R45: the view of a function after the event was raised for it. -/
def EventView.raised (o : EvOcc) (ho : o.code < 256) (v : EventView) : EventView :=
  if v.routed then
    { v with
      pend := fun c => if c.val / 32 = o.code / 32 then setBitAt (o.code % 32) (v.pend c) true else v.pend c
      fn := if v.delivers && v.there then
          { v.fn with evq := v.fn.evq ++ [{ o with newly := !bitAt (o.code % 32) (v.pend ⟨o.code, ho⟩) }] }
        else v.fn }
  else v

section
variable {o : EvOcc} {f : Nat}

theorem fns_length_raiseTo (g : Nat) (s : State) : (raiseTo o g s).fns.length = s.fns.length := by
  rw [raiseTo_eq]
  split
  · split
    · rw [modFn_length, wr_fns]
    · rw [wr_fns]
  · rfl

theorem rd_raiseTo_pend {c : Nat} (ho : o.code < 256) (hc : c < 256) (g : Nat) (s : State) : rd (raiseTo o g s) (pendKey f c) =
    if (routeMask s o.code).testBit g ∧ f = g ∧ c / 32 = o.code / 32 then setBitAt (o.code % 32) (rd s (pendKey f c)) true
    else rd s (pendKey f c) := by
  have hset : rd (setPend g o.code s) (pendKey f c) =
      if f = g ∧ c / 32 = o.code / 32 then setBitAt (o.code % 32) (rd s (pendKey f c)) true else rd s (pendKey f c) := by
    rw [rd_wr]
    by_cases hk : pendKey f c = pendKey g o.code
    · rw [if_pos hk, if_pos ((pendKey_inj hc ho).mp hk), hk]
    · rw [if_neg hk, if_neg (mt (pendKey_inj hc ho).mpr hk)]
  rw [raiseTo_eq]
  by_cases hr : (routeMask s o.code).testBit g
  · rw [if_pos hr]
    simp only [hr, true_and]
    split
    · rw [rd_modFn, hset]
    · rw [hset]
  · rw [if_neg hr, if_neg (fun h => hr h.1)]

theorem getFn_raiseTo (g : Nat) (s : State) : getFn (raiseTo o g s) f =
    if (routeMask s o.code).testBit g ∧ deliversTo s g o.code ∧ g = f ∧ f < s.fns.length then
      { getFn s f with evq := (getFn s f).evq ++ [occFor o g s] }
    else getFn s f := by
  rw [raiseTo_eq]
  split
  next hr =>
    split
    next hd =>
      by_cases hg : g = f
      · subst hg
        simp [getFn_modFn, hr, hd]
      · simp [getFn_modFn, hg]
    next hd => simp [hd]
  next hr => simp [hr]

/-- Raising an event for another function changes nothing of this one. -/
theorem eventView_raiseTo_ne {g : Nat} (ho : o.code < 256) (hg : g < 8) (hne : g ≠ f) (s : State) :
    eventView o.code f (raiseTo o g s) = eventView o.code f s := by
  have hfn : getFn (raiseTo o g s) f = getFn s f := by rw [getFn_raiseTo, if_neg (fun h => hne h.2.2.1)]
  have hrd : ∀ k, eventKey k = false → rd (raiseTo o g s) k = rd s k := fun k hk => rd_raiseTo ho hg hk s
  unfold eventView
  rw [hfn, fns_length_raiseTo, routeMask_of_rd ho hrd, deliversTo_of_rd ho hrd (by rw [hfn])]
  congr 1
  funext c
  rw [rd_raiseTo_pend ho c.isLt, if_neg (fun h => hne h.2.1.symm)]

theorem eventView_raiseTo_self (ho : o.code < 256) (hf : f < 8) (s : State) :
    eventView o.code f (raiseTo o f s) = (eventView o.code f s).raised o ho := by
  have hrd : ∀ k, eventKey k = false → rd (raiseTo o f s) k = rd s k := fun k hk => rd_raiseTo ho hf hk s
  have hq : (getFn (raiseTo o f s) f).quiesced = (getFn s f).quiesced := by rw [getFn_raiseTo]; split <;> rfl
  have hp : (fun c : Fin 256 => rd (raiseTo o f s) (pendKey f c.val)) = _ := funext fun c => rd_raiseTo_pend ho c.isLt f s
  unfold eventView EventView.raised
  rw [hp, fns_length_raiseTo, routeMask_of_rd ho hrd, deliversTo_of_rd ho hrd hq, getFn_raiseTo]
  by_cases hr : (routeMask s o.code).testBit f
  · simp [hr]
  · simp [hr]

/-- Of a repetition only one turn changes a view that the other turns leave alone. -/
theorem forBelow_once {α : Type} (view : State → α) (F : α → α) {n i : Nat} (hi : i < n) {g : Nat → State → State}
    (hself : ∀ t, view (g i t) = F (view t)) (hne : ∀ j < n, j ≠ i → ∀ t, view (g j t) = view t) (s : State) :
    view (forBelow n g s) = F (view s) := by
  induction n with
  | zero => exact absurd hi (Nat.not_lt_zero i)
  | succ n ih =>
    have hlast : forBelow (n + 1) g s = g n (forBelow n g s) := by
      rw [forBelow, List.range_succ, List.foldl_append]
      rfl
    rw [hlast]
    rcases Nat.lt_succ_iff_lt_or_eq.mp hi with h | rfl
    · rw [hne n (Nat.lt_succ_self n) (Nat.ne_of_gt h), ih h fun j hj => hne j (Nat.lt_succ_of_lt hj)]
    · rw [hself, forBelow_keeps_on view g i fun j hj => hne j (Nat.lt_succ_of_lt hj) (Nat.ne_of_lt hj)]

/-- R45: what raising an event does to each function, with its bit of GEVT_RAW. -/
theorem eventView_raiseOcc (ho : o.code < 256) (hf : f < 8) (s : State) :
    eventView o.code f (raiseOcc o s) = (eventView o.code f s).raised o ho := by
  unfold raiseOcc
  dsimp only
  rw [forBelow_once (eventView o.code f) (EventView.raised o ho) hf (eventView_raiseTo_self ho hf)
    (fun j hj hne t => eventView_raiseTo_ne ho hj hne t)]
  congr 1
  have hrd : ∀ k, eventKey k = false → rd (wr (Reg.GEVT_RAW + o.code / 32 * 4)
      (setBitAt (o.code % 32) (rd s (Reg.GEVT_RAW + o.code / 32 * 4)) true) s) k = rd s k :=
    fun k hk => rd_wr_ne (eventKey_raw ho hk) _ s
  unfold eventView
  rw [routeMask_of_rd ho hrd, deliversTo_of_rd ho hrd rfl, wr_fns, getFn_wr]
  congr 1
  funext c
  exact rd_wr_ne (pend_ne_raw c.isLt ho).symm _ s

/-- Functions that agree but for their events to write agree in whatever does not look at these. -/
theorem fn_of_bareFn {α : Type} (p : FnS → α) (hp : ∀ x : FnS, p x.bare = p x) {a b : State} (h : bareFn f a = bareFn f b) :
    p (getFn a f) = p (getFn b f) := by
  rw [← hp, ← hp (getFn b f)]
  exact congrArg p h

/-- R45: raising an event sets its pending bit of every function that its route names, and no other. -/
theorem bitAt_pend_raiseOcc (ho : o.code < 256) (hf : f < 8) {c : Nat} (hc : c < 256) (s : State) :
    bitAt (c % 32) (rd (raiseOcc o s) (pendKey f c)) =
      (bitAt (c % 32) (rd s (pendKey f c)) || (decide (c = o.code) && (routeMask s o.code).testBit f)) := by
  have hview : rd (raiseOcc o s) (pendKey f c) = ((eventView o.code f s).raised o ho).pend ⟨c, hc⟩ :=
    congrArg (fun v : EventView => v.pend ⟨c, hc⟩) (eventView_raiseOcc ho hf s)
  have hm : c % 32 < 32 := Nat.mod_lt _ (by decide)
  rw [hview, EventView.raised, eventView]
  by_cases hr : (routeMask s o.code).testBit f
  · by_cases hw : c / 32 = o.code / 32
    · by_cases hb : c % 32 = o.code % 32
      · have hcode : c = o.code := by omega
        subst hcode
        simp [hr, hm]
      · have hcode : c ≠ o.code := fun e => hb (by rw [e])
        simp [hr, hw, hcode, bitAt_setBitAt_ne hb]
    · have hcode : c ≠ o.code := fun e => hw (by rw [e])
      simp [hr, hw, hcode]
  · simp [hr]

/-- R45, R48: the occurrence joins the events of every function that it is delivered to. -/
theorem evq_raiseOcc (ho : o.code < 256) (hf : f < 8) {s : State} (hn : f < s.fns.length) :
    (getFn (raiseOcc o s) f).evq = if (routeMask s o.code).testBit f && deliversTo s f o.code then
      (getFn s f).evq ++ [occFor o f s] else (getFn s f).evq := by
  have hview : getFn (raiseOcc o s) f = ((eventView o.code f s).raised o ho).fn :=
    congrArg EventView.fn (eventView_raiseOcc ho hf s)
  rw [hview, EventView.raised, eventView]
  by_cases hr : (routeMask s o.code).testBit f
  · by_cases hd : deliversTo s f o.code
    · simp [hr, hd, hn]
    · simp [hr, hd]
  · simp [hr]

/-- R45: raising an event sets its own bit of GEVT_RAW only. -/
theorem raised_raiseOcc_ne (ho : o.code < 256) {c : Nat} (hc : c < 256) (hne : c ≠ o.code) (s : State) :
    Raised (raiseOcc o s) c ↔ Raised s c := by
  unfold Raised
  rw [rd_raiseOcc_raw ho hc, rd_wr]
  by_cases hk : Reg.GEVT_RAW + c / 32 * 4 = Reg.GEVT_RAW + o.code / 32 * 4
  · rw [if_pos hk, bitAt_setBitAt_ne (by omega), hk]
  · rw [if_neg hk]

end

/-- Settles O57: what raising sets in GEVT_RAW and in each function's pending registers, and whose events the occurrence joins. -/
theorem eventsRaised : Obligations.EventsRaised := by
  intro o s ho hlen t pendKey enabled
  refine ⟨raised_raiseOcc_self ho s, fun c hc => raised_raiseOcc_ne ho c.isLt hc s,
    fun f c => bitAt_pend_raiseOcc ho f.isLt c.isLt s, fun k hk => rd_raiseOcc ho hk s,
    fun f => evq_raiseOcc ho f.isLt (by omega), fun f => ?_⟩
  exact ⟨fn_of_bareFn FnS.out (fun _ => rfl) (bareFn_raiseOcc o f.val s),
    fn_of_bareFn FnS.rings (fun _ => rfl) (bareFn_raiseOcc o f.val s)⟩

end Sys2Proof.Machine
end

section
/-!
PROOF. Two statements on register accesses and on events to write that do not hold of every state: a campaign setting may name a berth
that the part does not have (R1, R460), and what ends a step may itself raise an event (R45, R356).
-/

namespace Sys2Proof.Machine

/-! A write that stage 1 refuses for the part's sake -/

section
variable {s : State} {f : Fn} {off : Nat} {v : Word} {b : Block} {r : RegRow} {i : Nat}

/-- R460: of a write that reaches its register in range, stage 1 may still refuse codes and rights. -/
theorem doRegisterWrite_refused (h : Accepts s f.val off v = true) (hr : reach s f.val off .word = .reg b r i)
    (hno : stageOneOk s f.val off v b r i = false) :
    doRegisterWrite f off v .word s = reject (statusKey f.val b) (active f.val s) := by
  unfold Accepts at h
  simp only [hr, Bool.and_eq_true, Bool.not_eq_true'] at h
  obtain ⟨hready, ⟨⟨hlive, hstatus⟩, hbusy⟩, hchecks⟩ := h
  unfold doRegisterWrite hostWriteWith
  simp only [hready, hr, hlive, hstatus, hbusy, hchecks, hno]
  rfl

theorem rd_reject_ne {k j : Nat} (h : j ≠ k) : rd (reject k s) j = rd s j := rd_wr_ne h _ s

/-- R1, R460: a CAMP_CFG that names a berth which the part does not have is refused, and the register keeps its value. -/
theorem rd_campCfg_of_absent_berth (h : Accepts s f.val Reg.CAMP_CFG v = true)
    (hr : reach s f.val Reg.CAMP_CFG .word = .reg .camp r i) (hno : berthsNamed s (bitsOf 5 0 v) = false) :
    rd (settle (tapAll s (doRegisterWrite f Reg.CAMP_CFG v .word s))) Reg.CAMP_CFG = rd s Reg.CAMP_CFG := by
  have hcode : stageOneOk s f.val Reg.CAMP_CFG v .camp r i = false := by
    rw [stageOneOk, hno]
    rfl
  have hkey : Reg.CAMP_CFG ≠ statusKey f.val .camp := show Reg.CAMP_CFG ≠ Reg.CAMP_STATUS by decide
  rw [rd_after (by decide), doRegisterWrite_refused h hr hcode, rd_reject_ne hkey, active, rd_modFn]

end

/-- An HJ2614 in service: berths 4 and 5 are absent (R1). -/
def fourBerthUnit : State :=
  { State.reset with
    otp := { State.reset.otp with is2614 := true }
    start := { StartS.reset with phase := .service, functionsReady := true }
    ports := List.replicate 2 ⟨true, true, [], []⟩ }

/-- Settings of campaigns that name berth 4, every field in its range. -/
def berth4Cfg : Word := 0x1010010

/-- The row of CAMP_CFG in the register map. -/
def campCfgRow : RegRow := ⟨Reg.CAMP_CFG, 4, 1, .plain, 0xF3FF73F, 0, 0, 0x43F300F,
  [⟨8, 10, .oneOf [0, 5, 6]⟩, ⟨16, 21, .range 1 63⟩, ⟨24, 27, .range 1 15⟩]⟩

theorem reach_campCfg : reach fourBerthUnit 0 Reg.CAMP_CFG .word = .reg .camp campCfgRow 0 := by decide

theorem accepts_berth4Cfg : Accepts fourBerthUnit 0 Reg.CAMP_CFG berth4Cfg = true := by decide

/-- Refutes O48: the campaign registers do not store every word whose fields lie in their ranges: on an HJ2614 stage 1 refuses a
CAMP_CFG with the bit of berth 4 (R1, R460; log 69), where the sixth clause has the word stored. -/
theorem not_registerAccesses : ¬ Obligations.RegisterAccesses := by
  intro h
  have hw : Works fourBerthUnit := rfl
  obtain ⟨_, _, _, _, _, hcamp, _⟩ := h fourBerthUnit hw
  obtain ⟨t, ht, hstored, _⟩ := hcamp 0 Reg.CAMP_CFG berth4Cfg campCfgRow 0 accepts_berth4Cfg reach_campCfg (by decide)
  have hstep : exec (.registerWrite 0 Reg.CAMP_CFG berth4Cfg .word) fourBerthUnit = _ := act_works hw _
  obtain rfl : _ = t := Host.Outcome.next.inj (hstep.symm.trans ht)
  have hkept := rd_campCfg_of_absent_berth (f := 0) accepts_berth4Cfg reach_campCfg (by decide)
  exact absurd (hkept.symm.trans hstored) (by decide)

/-! What ends a step and is an event itself -/

section
variable {s : State}

/-- R408: where no port taps a queue, a step copies nothing. -/
theorem tapAll_idle (before : State) (h : ∀ p < 4, fbit s (0x10 * p) Fl.BRINGUP_PORT_CFG_TAP_EN = false) : tapAll before s = s :=
  forBelow_fixed fun p hp => by
    unfold tapPort
    dsimp only
    rw [h p hp, Bool.and_false]
    rfl

theorem noteLowWater_poolLow (s : State) : (noteLowWater s).hold.poolLow = s.hold.poolLow := by
  unfold noteLowWater
  split <;> rfl

/-- The low-water mark and the stalls are of the hold only. -/
theorem noteLowWater_eq (s : State) : noteLowWater s = { s with hold := (noteLowWater s).hold } := by
  unfold noteLowWater
  split <;> rfl

/-- R356: a pool that has fallen below its warning level tells so, where it has not yet. -/
theorem settlePool_low (hlow : cellsFree s < fget s 0 Fl.HOLD_POOL_CFG_WARN) (hp : s.hold.poolLow = false) :
    ∃ h : HoldS, settlePool s = raise 166 0 { s with hold := h } := by
  generalize hh : (noteLowWater s).hold = h
  have htold : ¬ h.poolLow = true := by rw [← hh, noteLowWater_poolLow, hp]; exact Bool.false_ne_true
  refine ⟨{ h with poolLow := true }, ?_⟩
  unfold settlePool watchPool
  dsimp only
  rw [noteLowWater_eq, hh, if_pos (show cellsFree { s with hold := h } < fget { s with hold := h } 0 Fl.HOLD_POOL_CFG_WARN from hlow),
    if_neg htold]

/-- R45, R356: event 166 joins the events of a function that it is delivered to when the state settles. -/
theorem evq_settle_low {f : Nat} (hf : f < 8) (hn : f < s.fns.length) (hlow : cellsFree s < fget s 0 Fl.HOLD_POOL_CFG_WARN)
    (hp : s.hold.poolLow = false) (hr : (routeMask s 166).testBit f = true) (hd : deliversTo s f 166 = true) :
    ∃ o, (getFn (settle s) f).evq = (getFn s f).evq ++ [o] := by
  obtain ⟨h, e⟩ := settlePool_low hlow hp
  have hto : ((routeMask { s with hold := h } 166).testBit f && deliversTo { s with hold := h } f 166) = true := by
    rw [Bool.and_eq_true]
    exact ⟨hr, hd⟩
  rw [getFn_of_fns (settle_fns s), e, raise, raiseFull,
    evq_raiseOcc (s := { s with hold := h }) (show 166 < 256 by decide) hf hn, if_pos hto]
  exact ⟨_, rfl⟩

/-- R46, R278: an event that no stevedore can write leaves the state to what ends every step. -/
theorem exec_c3EventEntryWrite_waits {f : Fn} {o : EvOcc} {rest : List EvOcc} (hw : Works s) (hp : s.start.phase ≠ .halted)
    (he : (getFn s f.val).evq = o :: rest) (hc : c3On s f.val = true) (hh : (getFn s f.val).holdoffs.find o.code = none)
    (hwriter : eventWriter s f.val = none) : exec (.c3EventEntryWrite f) s = .next (settle (tapAll s s)) := by
  have hq : (getFn s f.val).quiesced = false := by
    unfold c3On dmaOn at hc
    simp only [Bool.and_eq_true, Bool.not_eq_true'] at hc
    obtain ⟨_, ⟨⟨⟨⟨_, hq⟩, _⟩, _⟩, _⟩⟩ := hc
    exact hq
  have hstays : doC3EventEntryWrite f.val s = s := by
    simp [doC3EventEntryWrite, he, hc, hh, hwriter, hq]
  refine (engine_runs hw hp _).trans ?_
  rw [hstays]

end

/-- The occurrence of an event that waits to be written. -/
def waitingOcc : EvOcc := ⟨63, false, 0, noNode, 0, 0, false⟩

/-- A unit in service whose function 0 takes events on C3 and waits for a stevedore, and whose pool has fallen to its warning level
with a block just prepared for a campaign: nobody has been told yet. -/
def lowPoolUnit : State :=
  wr Reg.HOLD_POOL_CFG 0xA0000400 (wr (Reg.EVT_ENABLE + 20) 0x40 (wr Reg.EVT_CTRL 3 (wr (ringKey 0 7 Reg.RING_CTRL) 1
    { State.reset with
      start := { StartS.reset with phase := .service, functionsReady := true }
      ports := List.replicate 2 ⟨true, true, [], []⟩
      fns := List.replicate 8 { FnS.reset with busMaster := true, evq := [waitingOcc] }
      stevs := List.replicate 8 (some ⟨1, .doorbell, 0, 0, 64, 0, false, [], false, false, none, false, 0⟩)
      camp := { State.reset.camp with prepared := [(0, 0, [0])] } })))

theorem lowPoolUnit_waits : c3On lowPoolUnit 0 = true ∧ eventWriter lowPoolUnit 0 = none := by decide +kernel

/-- Refutes O31: the eighth clause has the events of a function unchanged by a step that finds no stevedore for the oldest. In a state
whose pool has fallen below its warning level untold, the same step raises event 166 as it settles, and the occurrence joins these
events (R45, R356). -/
theorem not_entriesAndMessages : ¬ Obligations.EntriesAndMessages := by
  intro h
  obtain ⟨_, _, _, _, _, _, _, hwaits, _⟩ := h lowPoolUnit 0 rfl
  have hevq : (getFn lowPoolUnit 0).evq = [waitingOcc] := rfl
  have hidle : ∀ p < 4, fbit lowPoolUnit (0x10 * p) Fl.BRINGUP_PORT_CFG_TAP_EN = false := by decide
  obtain ⟨hon, hwriter⟩ := lowPoolUnit_waits
  obtain ⟨t, ht, _, hkept⟩ := hwaits waitingOcc [] (by decide) hevq hon rfl hwriter
  have hstep := exec_c3EventEntryWrite_waits (s := lowPoolUnit) (f := 0) rfl (by decide) hevq hon rfl hwriter
  rw [tapAll_idle lowPoolUnit hidle] at hstep
  obtain rfl : settle lowPoolUnit = t := Host.Outcome.next.inj (hstep.symm.trans ht)
  obtain ⟨o, hmore⟩ := evq_settle_low (s := lowPoolUnit) (f := 0) (by decide) (by decide) (by decide) rfl (by decide) (by decide)
  have hlen := congrArg List.length (hmore.symm.trans hkept)
  rw [hevq] at hlen
  exact absurd hlen (by simp)

end Sys2Proof.Machine
end

section
/-!
PROOF. Demodulators that detect, synchronise, release and recapture (R107 to R112).
-/

namespace Sys2Proof.Machine

/-! Records that close, whether a flush runs or not -/

section
variable {s : State} {n j : Nat}

theorem berths_closeRecord (r : RxRec) (s : State) : (closeRecord r s).berths = s.berths := by
  have h : (countRecord r s).berths = s.berths := bareEvent_berths (countRecord_bare r s)
  unfold closeRecord
  split
  · exact h
  · exact h

theorem rd_closeRecord_eq (r : RxRec) (s : State) (k : Nat) : rd (closeRecord r s) k = rd (countRecord r s) k := by
  unfold closeRecord
  split <;> rfl

/-- A demodulator with no record. -/
abbrev Demod.unrecorded (d : Demod) : Demod := { d with record := none }

/-- R107, R117: a demodulator without a record stays as it is; a record closes first, which changes no berth. -/
theorem abortRecord_cases (n j : Nat) (a : AbortReason) (s : State) :
    ((getDemod s n j).record = none ∧ abortRecord n j a s = s) ∨ ∃ r, (getDemod s n j).record = some r ∧
      abortRecord n j a s = modDemod n j Demod.unrecorded (closeRecord (r.aborted a) s) := by
  unfold abortRecord
  cases h : (getDemod s n j).record with
  | none => exact .inl ⟨rfl, rfl⟩
  | some r => exact .inr ⟨r, rfl, rfl⟩

/-- A berth but for what its demodulators do: itself without them, and how many demodulators and berths there are. -/
structure BerthShell where
  berths : Nat
  demods : Nat
  berth : BerthS

/-- The shell of berth `n`. -/
def shellOf (n : Nat) (s : State) : BerthShell :=
  ⟨s.berths.length, (getBerth s n).demods.length, { getBerth s n with demods := [] }⟩

theorem shellOf_of_berths {t : State} (h : t.berths = s.berths) (n : Nat) : shellOf n t = shellOf n s := by
  rw [shellOf, shellOf, getBerth_of_berths h, h]

/-- A change of a demodulator changes nothing else of its berth. -/
theorem getBerth_modDemod (n j : Nat) (g : Demod → Demod) (s : State) :
    getBerth (modDemod n j g s) n = getBerth s n ∨
      getBerth (modDemod n j g s) n = { getBerth s n with demods := (getBerth s n).demods.modify j g } := by
  by_cases hn : n < s.berths.length
  · exact .inr (getBerth_modBerth_self hn _)
  · left
    simp [getBerth, modDemod, modBerth, List.getD_eq_getElem?_getD, hn]

theorem shellOf_modDemod (n j : Nat) (g : Demod → Demod) (s : State) : shellOf n (modDemod n j g s) = shellOf n s := by
  have hlen : (modDemod n j g s).berths.length = s.berths.length := List.length_modify _ _ _
  unfold shellOf
  rcases getBerth_modDemod n j g s with e | e
  · rw [e, hlen]
  · rw [e, hlen, List.length_modify]

theorem getDemod_modDemod_ne {i j : Nat} (h : i ≠ j) (n : Nat) (g : Demod → Demod) (s : State) :
    getDemod (modDemod n i g s) n j = getDemod s n j := by
  rcases getBerth_modDemod n i g s with e | e
  · exact getDemod_of_demods (congrArg BerthS.demods e) j
  · have hds : (getBerth (modDemod n i g s) n).demods = (getBerth s n).demods.modify i g := congrArg BerthS.demods e
    simp [getDemod, hds, List.getD_eq_getElem?_getD, h]

/-- Berth `n` and its demodulator `j` stand in the state. -/
structure HasDemod (s : State) (n j : Nat) : Prop where
  berth_lt : n < s.berths.length
  demod_lt : j < (getBerth s n).demods.length

theorem HasDemod.of_shell {t : State} (h : HasDemod s n j) (e : shellOf n t = shellOf n s) : HasDemod t n j where
  berth_lt := Nat.lt_of_lt_of_eq h.berth_lt (congrArg BerthShell.berths e).symm
  demod_lt := Nat.lt_of_lt_of_eq h.demod_lt (congrArg BerthShell.demods e).symm

theorem HasDemod.of_berths {t : State} (h : HasDemod s n j) (e : t.berths = s.berths) : HasDemod t n j :=
  h.of_shell (shellOf_of_berths e n)

theorem HasDemod.getDemod_modDemod (h : HasDemod s n j) (g : Demod → Demod) :
    getDemod (modDemod n j g s) n j = g (getDemod s n j) := getDemod_modDemod_self h.berth_lt h.demod_lt g

/-- A record that is given up leaves its demodulator as it was, without the record. -/
theorem HasDemod.getDemod_abortRecord (h : HasDemod s n j) (a : AbortReason) :
    getDemod (abortRecord n j a s) n j = (getDemod s n j).unrecorded := by
  rcases abortRecord_cases n j a s with ⟨hr, e⟩ | ⟨r, hr, e⟩
  · rw [e, Demod.unrecorded, ← hr]
  · have hb := berths_closeRecord (r.aborted a) s
    rw [e, (h.of_berths hb).getDemod_modDemod, getDemod_of_berths hb]

theorem shellOf_abortRecord (n j : Nat) (a : AbortReason) (s : State) : shellOf n (abortRecord n j a s) = shellOf n s := by
  rcases abortRecord_cases n j a s with ⟨_, e⟩ | ⟨r, _, e⟩
  · rw [e]
  · rw [e, shellOf_modDemod, shellOf_of_berths (berths_closeRecord _ s)]

/-- R107: a recaptured frame's record counts nothing as it closes. -/
theorem rd_abortRecord_recaptured (n j : Nat) (s : State) (k : Nat) : rd (abortRecord n j .recaptured s) k = rd s k := by
  rcases abortRecord_cases n j .recaptured s with ⟨_, e⟩ | ⟨r, _, e⟩
  · rw [e]
  · rw [e, rd_modDemod, rd_closeRecord_eq]
    rfl

/-! Detection and release -/

theorem doPreambleDetected_detects {lp floor : Int} (hst : (getDemod s n j).st = .search) (h : detects s n lp floor = true) :
    doPreambleDetected n j lp floor s =
      notePeak n (modDemod n j (fun d => { d with st := .sync, lp := lp, floor := floor, recapture := false }) s) := by
  simp only [doPreambleDetected, hst, h, if_true]

theorem doPreambleDetected_below {lp floor : Int} (hst : (getDemod s n j).st = .search) (h : detects s n lp floor = false) :
    doPreambleDetected n j lp floor s = s := by
  simp only [doPreambleDetected, hst, h, Bool.false_eq_true, if_false]

theorem getDemod_notePeak (m n j : Nat) (s : State) : getDemod (notePeak m s) n j = getDemod s n j :=
  getDemod_modBerth (g := fun b => { b with demodPeak := max b.demodPeak (demodsNow b) }) (fun _ => rfl) m n j s

theorem releaseSync_sync (hst : (getDemod s n j).st = .sync) :
    releaseSync n j s = setDemod n j .search (bump (berthBase n) Ct.BERTH_RX_FALSE_SYNC s) := by
  simp only [releaseSync, hst]

/-! The SFD -/

theorem doSfdMatched_late {m : SfdMeas} (hst : (getDemod s n j).st = .sync) (hacc : sfdAccepted s n j m = true)
    (hlate : sfdInTime s n j m = false) : doSfdMatched n j m s = releaseSync n j s := by
  simp only [doSfdMatched, hst, hacc, hlate, Bool.not_true, Bool.false_eq_true, if_false]

/-- R109, R119: an SFD is counted, and the berth's next record has the next sequence number. -/
def countSfd (n : Nat) (s : State) : State :=
  modBerth n (fun b => { b with recSeq := b.recSeq + 1 }) (bump (berthBase n) Ct.BERTH_RX_SYNC s)

/-- R356: a record that finds no cell stalls in its berth's quay buffer. -/
def stallFull (q : Nat) (full : Bool) (s : State) : State := if full then poolStall q s else s

theorem doSfdMatched_inTime {m : SfdMeas} (hst : (getDemod s n j).st = .sync) (hacc : sfdAccepted s n j m = true)
    (hin : sfdInTime s n j m = true) : doSfdMatched n j m s =
      modDemod n j (fun d => { d with st := .phr, record := some (newRecord s n j m) }) (stallFull n (!cellFree s) (countSfd n s)) := by
  simp only [doSfdMatched, hst, hacc, hin, Bool.not_true, Bool.false_eq_true, if_false, if_true, stallFull, countSfd,
    Bool.not_eq_true', ← Bool.not_eq_true, ite_not]

theorem stallFull_berths (q : Nat) (full : Bool) (s : State) : (stallFull q full s).berths = s.berths := by
  unfold stallFull poolStall
  split
  · split
    · rfl
    · rw [raise_berths, bump_berths]
  · rfl

/-- A stall touches no register but its count and those of events. -/
theorem rd_stallFull {k : Nat} (h : eventKey k = false) (hne : k ≠ Ct.HOLD_POOL_STALL.off ∧ k ≠ Ct.HOLD_POOL_STALL.sat) (q : Nat)
    (full : Bool) (s : State) : rd (stallFull q full s) k = rd s k := by
  unfold stallFull poolStall
  split
  · split
    · rfl
    · rw [rd_raise (by decide) h, rd_bump_ne (by omega) (by omega) h]
      rfl
  · rfl

theorem getBerth_after (u t : State) (n : Nat) : getBerth (settle (tapAll u t)) n = getBerth t n :=
  getBerth_of_berths ((settle_berths _).trans (tapAll_berths u t)) n

theorem berths_after (u t : State) : (settle (tapAll u t)).berths = t.berths := (settle_berths _).trans (tapAll_berths u t)

theorem getBerth_countSfd (h : n < s.berths.length) :
    getBerth (countSfd n s) n = { getBerth s n with recSeq := (getBerth s n).recSeq + 1 } := by
  have hb := bump_berths (berthBase n) Ct.BERTH_RX_SYNC s
  rw [countSfd, getBerth_modBerth_self (hb ▸ h), getBerth_of_berths hb]

theorem HasDemod.countSfd (h : HasDemod s n j) : HasDemod (countSfd n s) n j where
  berth_lt := by
    rw [Machine.countSfd, modBerth_berths, List.length_modify, bump_berths]
    exact h.berth_lt
  demod_lt := by
    rw [getBerth_countSfd h.berth_lt]
    exact h.demod_lt

end

/-- R109: a step in which a demodulator releases. -/
theorem releaseSync_step {s : State} {n : Berth} {j : Nat} (h : HasDemod s n.val j) (hst : (getDemod s n.val j).st = .sync) :
    let t := settle (tapAll s (releaseSync n.val j s))
    (getDemod t n.val j).st = .search ∧ Counted s t (berthBase n.val) Ct.BERTH_RX_FALSE_SYNC 1 ∧ t.mac = s.mac := by
  have hkey := ownKey_berth n (by decide : Ct.BERTH_RX_FALSE_SYNC.off < 0x400)
  have hcnt := counted_bump hkey (by decide) s
  dsimp only
  rw [getDemod_after, mac_after, releaseSync_sync hst, setDemod, (h.of_berths (bump_berths ..)).getDemod_modDemod, modDemod_mac,
    bump_mac]
  exact ⟨rfl, (hcnt.congr rfl (rd_modDemod ..)).after hkey, rfl⟩

/-- R109, R112: a step in which an SFD comes in time. -/
theorem sfdInTime_step {s : State} {n : Berth} {j : Nat} {m : SfdMeas} (h : HasDemod s n.val j)
    (hst : (getDemod s n.val j).st = .sync) (hacc : sfdAccepted s n.val j m = true) (hin : sfdInTime s n.val j m = true) :
    let t := settle (tapAll s (doSfdMatched n.val j m s))
    getDemod t n.val j = { getDemod s n.val j with st := .phr, record := some (newRecord s n.val j m) } ∧
      (getBerth t n.val).recSeq = (getBerth s n.val).recSeq + 1 ∧ Counted s t (berthBase n.val) Ct.BERTH_RX_SYNC 1 := by
  have hkey := ownKey_berth n (by decide : Ct.BERTH_RX_SYNC.off < 0x400)
  have hcnt := counted_bump hkey (by decide) s
  have hstall := stallFull_berths n.val (!cellFree s) (countSfd n.val s)
  have hdemods : (getBerth (stallFull n.val (!cellFree s) (countSfd n.val s)) n.val).demods = (getBerth s n.val).demods := by
    rw [getBerth_of_berths hstall, getBerth_countSfd h.berth_lt]
  have hseq := congrArg (fun b => b.berth.recSeq) (shellOf_modDemod n.val j
    (fun d => { d with st := .phr, record := some (newRecord s n.val j m) }) (stallFull n.val (!cellFree s) (countSfd n.val s)))
  dsimp only
  rw [getDemod_after, getBerth_after, doSfdMatched_inTime hst hacc hin, (h.countSfd.of_berths hstall).getDemod_modDemod,
    getDemod_of_demods hdemods]
  refine ⟨rfl, hseq.trans ?_, (hcnt.congr rfl ?_).after hkey⟩
  · rw [shellOf, getBerth_of_berths hstall, getBerth_countSfd h.berth_lt]
  · have hne : ∀ k : Nat, 0x7000 ≤ k → berthBase n.val + Ct.BERTH_RX_SYNC.off ≠ k := fun k hk => by
      have hn := n.isLt
      have hoff : Ct.BERTH_RX_SYNC.off = 0x44 := rfl
      unfold berthBase
      omega
    unfold ownKey at hkey
    simp only [Bool.and_eq_true, Bool.not_eq_true'] at hkey
    rw [rd_modDemod, rd_stallFull hkey.1 ⟨hne _ (by decide), hne _ (by decide)⟩]
    rfl

/-! Recapture -/

section
variable {s : State} {n j : Nat} {lp : Int}

theorem doRecaptured_captures (hst : (getDemod s n j).st = .payload)
    (hlp : captureRef s n j + 4 * (fget s (berthBase n) Fl.BERTH_RX_DET_CAPTURE_DB : Int) ≤ lp)
    (hdet : detects s n lp (getDemod s n j).floor = true) : doRecaptured n j lp s =
      modDemod n j (fun d => { d with st := .sync, lp := lp, recapture := true })
        (bump (berthBase n) Ct.BERTH_RX_RECAPTURE (abortRecord n j .recaptured s)) := by
  simp only [doRecaptured, hst, hlp, hdet, decide_true, Bool.and_self, if_true]

theorem doRecaptured_weak (hst : (getDemod s n j).st = .payload)
    (hlp : lp < captureRef s n j + 4 * (fget s (berthBase n) Fl.BERTH_RX_DET_CAPTURE_DB : Int)) : doRecaptured n j lp s = s := by
  simp only [doRecaptured, hst, Int.not_le.mpr hlp, decide_false, Bool.false_and, Bool.false_eq_true, if_false]

end

/-- R111: a step in which a newcomer captures. -/
theorem recaptured_step {s : State} {n : Berth} {j : Nat} {lp : Int} (h : HasDemod s n.val j)
    (hst : (getDemod s n.val j).st = .payload)
    (hlp : captureRef s n.val j + 4 * (fget s (berthBase n.val) Fl.BERTH_RX_DET_CAPTURE_DB : Int) ≤ lp)
    (hdet : detects s n.val lp (getDemod s n.val j).floor = true) :
    let t := settle (tapAll s (doRecaptured n.val j lp s))
    getDemod t n.val j = { getDemod s n.val j with st := .sync, lp := lp, recapture := true, record := none } ∧
      Counted s t (berthBase n.val) Ct.BERTH_RX_RECAPTURE 1 := by
  have hkey := ownKey_berth n (by decide : Ct.BERTH_RX_RECAPTURE.off < 0x400)
  have hcnt := counted_bump hkey (by decide) (abortRecord n.val j .recaptured s)
  have hb := bump_berths (berthBase n.val) Ct.BERTH_RX_RECAPTURE (abortRecord n.val j .recaptured s)
  dsimp only
  rw [getDemod_after, doRecaptured_captures hst hlp hdet, ((h.of_shell (shellOf_abortRecord ..)).of_berths hb).getDemod_modDemod,
    getDemod_of_berths hb, h.getDemod_abortRecord]
  exact ⟨rfl, (hcnt.congr (rd_abortRecord_recaptured n.val j s _).symm (rd_modDemod ..)).after hkey⟩

/-- Settles O10: detection, the SFD, release and recapture, each from what it does to its demodulator. -/
theorem demodulatorFollows : Obligations.DemodulatorFollows := by
  intro s n j hw hn hj
  have h : HasDemod s n.val j := ⟨hn, hj⟩
  refine ⟨fun lp floor hst hd => ⟨_, act_works hw _, ?detects⟩, fun lp floor hst hd => ⟨_, act_works hw _, ?below⟩,
    fun m hst hacc hlate => ⟨_, act_works hw _, ?late⟩, fun m hst hacc hin => ⟨_, act_works hw _, ?inTime⟩,
    fun why hst hr => ⟨_, act_works hw _, ?waits⟩, fun why hst hr => ⟨_, act_works hw _, ?releases⟩,
    fun lp hst hlp hdet => ⟨_, act_works hw _, ?captures⟩, fun lp hst hlp => ⟨_, act_works hw _, ?weak⟩⟩
  case detects =>
    rw [getDemod_after, doPreambleDetected_detects hst hd, getDemod_notePeak, h.getDemod_modDemod]
    exact ⟨rfl, rfl, rfl, rfl⟩
  case below =>
    rw [berths_after, mac_after, doPreambleDetected_below hst hd]
    exact ⟨rfl, rfl⟩
  case late =>
    rw [doSfdMatched_late hst hacc hlate]
    exact releaseSync_step h hst
  case inTime =>
    obtain ⟨hdemod, hseq, hcnt⟩ := sfdInTime_step h hst hacc hin
    rw [hdemod]
    exact ⟨rfl, rfl, hseq, hcnt⟩
  case waits =>
    rw [berths_after, mac_after, doSyncRelease, if_neg (by simp [hr])]
    exact ⟨rfl, rfl⟩
  case releases =>
    rw [doSyncRelease, if_pos hr]
    exact releaseSync_step h hst
  case captures =>
    obtain ⟨hdemod, hcnt⟩ := recaptured_step h hst hlp hdet
    rw [hdemod]
    exact ⟨rfl, rfl, rfl, rfl, hcnt⟩
  case weak =>
    rw [berths_after, mac_after, doRecaptured_weak hst hlp]
    exact ⟨rfl, rfl⟩

end Sys2Proof.Machine
end

section
/-!
PROOF. The trellis decoder pool (R113, R114): an engine that takes a frame, and one that finishes.
-/

namespace Sys2Proof.Machine

section
variable {s : State} {e : Nat} {c : Coded}

/-- Decoder engine `e` holds the frame `o`, if any. -/
def setDecoder (e : Nat) (o : Option Coded) (d : DecoderS) : DecoderS := { d with engines := d.engines.set e o }

theorem getD_setDecoder {d : DecoderS} (h : e < d.engines.length) (o : Option Coded) :
    (setDecoder e o d).engines.getD e none = o := by
  simp [setDecoder, List.getD_eq_getElem?_getD, h]

theorem dec_after (u t : State) : (settle (tapAll u t)).dec = t.dec := (settle_dec _).trans (tapAll_dec u t)

theorem doDecoderEngineFree_takes (hfree : s.dec.engines.getD e none = none) (hin : unitOut s (20 + e) = false)
    (hc : ((firstCoded true s.dec.queue).orElse fun _ => firstCoded false s.dec.queue) = some c) :
    (doDecoderEngineFree e s).dec = setDecoder e (some c) { s.dec with queue := s.dec.queue.erase c } := by
  simp only [doDecoderEngineFree, hfree, hin, hc, Option.isSome_none, Bool.or_self, Bool.false_eq_true, if_false]
  rfl

/-- R114: the frame took the engine longer than an Enh-ACK allows. -/
def decodedLate (c : Coded) (s : State) : Bool := c.ackDue && 600000 < instantDiff c.record.endAt (nowNs s)

/-- R114: an engine is free again, and a late frame is counted. -/
def freeDecoder (e : Nat) (c : Coded) (s : State) : State :=
  let s1 := { s with dec := setDecoder e none s.dec }
  if decodedLate c s then bump (berthBase c.record.berth) Ct.BERTH_RX_DEC_LATE s1 else s1

theorem freeDecoder_bare (e : Nat) (c : Coded) (s : State) :
    bareEvent (freeDecoder e c s) = bareEvent { s with dec := setDecoder e none s.dec } := by
  unfold freeDecoder
  dsimp only
  split
  · exact bump_bare ..
  · rfl

/-- The record of a frame that decoder engine `e` has finished, with what its PSDU spells (R113, R116). -/
abbrev decodedRecord (e : Nat) (c : Coded) (body : RxBody) (s : State) : RxRec :=
  RxRec.spelt { c.record with decoder := some e, ackLate := decodedLate c s } body

theorem doDecodeDone_sound (hc : s.dec.engines.getD e none = some c) {body : RxBody} (hb : body.poisoned = false) :
    doDecodeDone e body s = closeRecord (decodedRecord e c body s) (freeDecoder e c s) := by
  simp only [doDecodeDone, hc, closeBody, hb, Bool.false_eq_true, if_false]
  rfl

theorem closeRecord_dec (hf : s.hold.flushing = none) (r : RxRec) : (closeRecord r s).dec = s.dec := by
  rw [closeRecord_eq hf, modMac_dec, bareEvent_dec (countRecord_bare r s)]

end

/-- Settles O12: an engine takes the frame that R114 puts first, and hands on what it has decoded. -/
theorem decoderPool : Obligations.DecoderPool := by
  intro s e c hr hf he
  obtain ⟨hw, hp⟩ := hr
  refine ⟨fun hfree hin hc => ⟨_, engine_runs hw hp _, ?takes⟩, fun body hc hb => ⟨_, engine_runs hw hp _, ?done⟩⟩
  case takes =>
    rw [dec_after, doDecoderEngineFree_takes hfree hin hc]
    exact ⟨getD_setDecoder he _, rfl⟩
  case done =>
    have hfree := freeDecoder_bare e.val c s
    have hflush : (freeDecoder e.val c s).hold.flushing = none := by
      rw [bareEvent_hold hfree]
      exact hf
    rw [dec_after, mac_after, doDecodeDone_sound hc hb, closeRecord_dec hflush, closeRecord_mac hflush, bareEvent_dec hfree,
      bareEvent_mac hfree, List.map_append]
    exact ⟨getD_setDecoder he none, rfl, rfl⟩

end Sys2Proof.Machine
end

section
/-!
PROOF. What the end of a frame leaves of the berths (R133, R183): the producers that it tells change no berth, but for the planned
transmissions that they withdraw.
-/

namespace Sys2Proof.Machine

/-! Completions of descriptors -/

section
variable (s : State)

@[simp] theorem dropDesc_berths (f r i : Nat) : (dropDesc f r i s).berths = s.berths := rfl

@[simp] theorem modDesc_berths (f r i : Nat) (g : DescS → DescS) : (modDesc f r i g s).berths = s.berths := rfl

@[simp] theorem leaseTouch_berths (f : Nat) (x : DescS) : (leaseTouch f x s).berths = s.berths := by
  unfold leaseTouch
  split <;> rfl

@[simp] theorem postDone_berths (f : Nat) (x : DescS) (d : Done) : (postDone f x d s).berths = s.berths := by
  unfold postDone
  dsimp only
  split <;> simp

@[simp] theorem reachEngine_berths (f : Nat) (x : DescS) : (reachEngine f x s).berths = s.berths := by
  unfold reachEngine
  split
  · rfl
  · split <;> rfl

@[simp] theorem startOne_berths (f : Nat) (x : DescS) : (startOne f x s).berths = s.berths := by
  unfold startOne
  split
  · simp
  · split
    · simp
    · split <;> simp

@[simp] theorem startRing_berths (f r : Nat) : (startRing f r s).berths = s.berths :=
  foldl_keeps State.berths _ (fun t x => by split <;> simp) _ s

@[simp] theorem finishDesc_berths (f r i : Nat) (d : Done) : (finishDesc f r i d s).berths = s.berths := by
  unfold finishDesc
  split
  · rfl
  · split <;> simp

@[simp] theorem respond_berths (f r i addr : Nat) (os : List Byte) (p : Bool) (d : Done) :
    (respond f r i addr os p d s).berths = s.berths := by
  unfold respond
  split
  · rfl
  · split <;> simp

/-! The directory and the keys -/

@[simp] theorem dirMod_berths (h : Handle) (g : DirEnt → DirEnt) : (dirMod h g s).berths = s.berths := by
  unfold dirMod
  split <;> rfl

@[simp] theorem nbrMod_berths (h : Nat) (g : Nbr → Nbr) : (nbrMod h g s).berths = s.berths := by
  unfold nbrMod
  split <;> rfl

@[simp] theorem metUe_berths (p : UePath) (cls : UeClass) (loc : BitVec 26) : (metUe p cls loc s).berths = s.berths :=
  (metUe_keeps p cls loc s).1

@[simp] theorem markSuspect_berths (h : Handle) : (markSuspect h s).berths = s.berths := by simp [markSuspect, holdWritten]

@[simp] theorem dirSee_berths (h : Handle) (m : HoldRead) : (dirSee h m s).berths = s.berths := by
  unfold dirSee
  split
  · rfl
  · split
    · simp
    · split
      · rfl
      · rw [markSuspect_berths]
        split <;> simp

@[simp] theorem keyStale_berths (h : Handle) : (keyStale h s).berths = s.berths := by simp [keyStale]

@[simp] theorem useCast_berths (i : Nat) (p : Bool) (e : Eui) (g : BitVec 8) : (useCast i p e g s).berths = s.berths := by
  unfold useCast
  dsimp only
  split <;> simp

@[simp] theorem buildSeal_berths (h : Handle) (k : CastKey) (d : DirEnt) (a : Option SlotName) (code : Nat) (tok plain : List Byte) :
    (buildSeal h k d a code tok plain s).2.berths = s.berths := by simp [buildSeal]

@[simp] theorem walkEffects_berths (h : Handle) (w : Walk) (m : HoldRead) : (walkEffects h w m s).berths = s.berths := by
  have hsee : (w.suspects.foldl (fun u h => dirSee h m u) s).berths = s.berths :=
    foldl_keeps State.berths _ (fun t h => dirSee_berths t h m) _ s
  unfold walkEffects
  extract_lets u pair loop missing v
  have hloop : ∀ t, (loop t).berths = t.berths := fun t => by
    unfold loop
    split <;> simp
  have hmissing : ∀ t, (missing t).berths = t.berths := fun t => by
    unfold missing
    split <;> simp
  have hv : v.berths = s.berths := by
    unfold v
    split
    · rw [hloop, hmissing, hsee]
    · rw [hmissing, hloop, hsee]
  split
  · split
    · split
      · exact hv
      · rw [dirMod_berths, hv]
    · exact hv
  · rw [raiseNode_berths, bump_berths, hv]

@[simp] theorem walkTo_berths (h : Handle) (m : HoldRead) : (walkTo h m s).2.berths = s.berths := by simp [walkTo]

@[simp] theorem routeTo_berths (t : Target) (m : HoldRead) : (routeTo t m s).2.berths = s.berths := by
  unfold routeTo
  split
  next h =>
    have hw := walkTo_berths s h m
    split <;> simp_all
  next x =>
    split
    · rfl
    next p _ =>
      have hw := walkTo_berths s p m
      split <;> simp_all

/-! Frames and messages that are sent -/

@[simp] theorem offer_berths (cls : TxClass) (dst : TxDest) (o : TxOwner) (f : Frame) (len : Nat) (mode : Option Nat) (pw : Option Int)
    (at0 : Option (SlotName × Nat)) (guard : Option SlotName) : (offer cls dst o f len mode pw at0 guard s).berths = s.berths := rfl

@[simp] theorem takeDsn_berths : (takeDsn s).2.berths = s.berths := rfl

@[simp] theorem sendOne_berths (r : Route) (cls : TxClass) (o : TxOwner) (guard : Option SlotName) (len : Nat) (u : Upper) :
    (sendOne r cls o guard len u s).2.berths = s.berths := by
  unfold sendOne
  dsimp only
  split
  · simp
  · rw [raise_berths, bump_berths]
    exact (foldl_keeps State.berths _ (fun t b => offer_berths ..) _ _).trans (takeDsn_berths s)

theorem sendPacket_berths (r : Route) (cls : TxClass) (o : TxOwner) (guard : Option SlotName) (p : Packet) (hc hu n : Nat) :
    (sendPacket r cls o guard p hc hu n s).2.berths = s.berths := by
  unfold sendPacket
  dsimp only
  split
  · refine List.foldlRecOn (motive := fun a : Nat × State => a.2.berths = s.berths) _ _ rfl fun a ha x _ => ?_
    rw [sendOne_berths, ha]
  · exact sendOne_berths ..

@[simp] theorem sendCoap_berths (r : Route) (cls : TxClass) (o : TxOwner) (guard : Option SlotName) (port : Nat) (m : Coap)
    (len : Nat) : (sendCoap r cls o guard port m len s).2.berths = s.berths := by
  unfold sendCoap
  dsimp only
  split
  · rfl
  · exact sendPacket_berths ..

@[simp] theorem transmit_berths (t : Txn) (m : HoldRead) : (transmit t m s).2.berths = s.berths := by
  unfold transmit
  split
  · rfl
  next tg _ =>
    have hr := routeTo_berths s tg m
    split
    next st s1 e => rw [e] at hr; exact hr
    next r s1 e =>
      rw [e] at hr
      extract_lets len env t1 x t2
      split
      · exact hr
      · split
        · exact (keyStale_berths ..).trans hr
        · have henv : env.2.berths = s1.berths := by
            unfold env
            split
            · dsimp only
              exact buildSeal_berths ..
            · rfl
          have hx : x.2.berths = s.berths := (sendCoap_berths ..).trans (henv.trans hr)
          split
          · exact hx
          · split
            · exact hx
            · exact hx

@[simp] theorem takeToken_berths (f : Nat) : (takeToken f s).2.berths = s.berths := rfl

@[simp] theorem takeMid_berths : (takeMid s).2.berths = s.berths := rfl

@[simp] theorem openTxn_berths (m : MsgSpec) (e : Eui) (h : Option Handle) (read : HoldRead) :
    (openTxn m e h read s).2.2.berths = s.berths := by
  unfold openTxn
  dsimp only
  split
  · rw [transmit_berths, modSvc_berths]
    split <;> simp
  · rw [transmit_berths, modSvc_berths]
    split <;> simp

/-! Messages that end -/

@[simp] theorem dropTxn_berths (tok : Word) : (dropTxn tok s).berths = s.berths := rfl

@[simp] theorem modGroup_berths (id : Nat) (g : GroupJob → GroupJob) : (modGroup id g s).berths = s.berths := rfl

@[simp] theorem countEnd_berths (st : Nat) (timed : Bool) (h : Handle) : (countEnd st timed h s).berths = s.berths := by
  unfold countEnd
  split
  · exact bump_berths ..
  · split
    · exact bump_berths ..
    · split
      · dsimp only
        split <;> simp
      · rfl

@[simp] theorem finishSend_berths (t : Txn) (e : TxnEnd) : (finishSend t e s).berths = s.berths := by simp [finishSend]

@[simp] theorem memberEnd_berths (id : Nat) (h : Handle) (sent : Bool) (e : TxnEnd) : (memberEnd id h sent e s).berths = s.berths := by
  unfold memberEnd
  split
  · rfl
  · dsimp only
    split
    · rfl
    · split <;> simp

@[simp] theorem tableFull_berths (h : Handle) : (tableFull h s).berths = s.berths := by simp [tableFull]

@[simp] theorem checkTarget_berths (m : MsgSpec) (t : Target) : (checkTarget m t s).2.berths = s.berths := by
  unfold checkTarget
  extract_lets
  split
  · rfl
  · split
    · rfl
    · split
      · split
        · exact keyStale_berths ..
        · split
          · exact raiseNode_berths ..
          · split
            · rfl
            · exact tableFull_berths ..
      · split
        · rfl
        · exact tableFull_berths ..

@[simp] theorem fanout_berths (id : Nat) (read : HoldRead) (fuel : Nat) : (fanout id read fuel s).berths = s.berths := by
  induction fuel generalizing s with
  | zero => rfl
  | succ fuel ih =>
    unfold fanout
    split
    · rfl
    · split
      · rfl
      · dsimp only
        split
        · rfl
        · split
          · simp [ih]
          · split
            next e =>
              have hc := (congrArg (fun x => x.2.berths) e).symm.trans (checkTarget_berths ..)
              simpa [ih] using hc
            next e =>
              have hc := (congrArg (fun x => x.2.berths) e).symm.trans (checkTarget_berths ..)
              split
              next e' =>
                have ho := (congrArg (fun x => x.2.2.berths) e').symm.trans (openTxn_berths ..)
                simpa [ih] using ho.trans hc
              next e' =>
                have ho := (congrArg (fun x => x.2.2.berths) e').symm.trans (openTxn_berths ..)
                simpa [ih] using ho.trans hc

@[simp] theorem groupOver_berths (id : Nat) : (groupOver id s).berths = s.berths := by
  unfold groupOver
  split
  · rfl
  · split <;> simp

@[simp] theorem finishTxn_berths (t : Txn) (e : TxnEnd) : (finishTxn t e s).berths = s.berths := by
  unfold finishTxn
  split
  · exact finishSend_berths ..
  · simp [fanoutOn]

@[simp] theorem transmissionOver_berths (tok : Word) : (transmissionOver tok s).berths = s.berths := by
  unfold transmissionOver
  split
  · rfl
  · split
    · rfl
    · split
      · rfl
      · exact finishTxn_berths ..

@[simp] theorem dgramOver_berths (j : DgramJob) (st : Nat) : (dgramOver j st s).berths = s.berths := by
  unfold dgramOver
  dsimp only
  rw [finishDesc_berths]
  split <;> simp

@[simp] theorem rawEnded_berths (id : Nat) (o : TxOutcome) : (rawEnded id o s).berths = s.berths := by
  unfold rawEnded
  split
  · rfl
  · extract_lets
    rw [finishDesc_berths]
    split
    · exact bump_berths ..
    · rfl

@[simp] theorem mplAdmit_berths : (mplAdmit s).berths = s.berths := by
  unfold mplAdmit
  split
  · split <;> rfl
  · rfl

@[simp] theorem mplOver_berths (j : MplJob) (timed : Bool) : (mplOver j timed s).berths = s.berths := by simp [mplOver]

@[simp] theorem mplSettle_berths (id : Nat) : (mplSettle id s).berths = s.berths := by
  unfold mplSettle
  split
  · split <;> simp
  · rfl

@[simp] theorem modMpl_berths (id : Nat) (g : MplJob → MplJob) : (modMpl id g s).berths = s.berths := rfl

@[simp] theorem mplFrameEnded_berths (id copy n : Nat) (e : FrameEnd) : (mplFrameEnded id copy n e s).berths = s.berths := by
  unfold mplFrameEnded
  extract_lets
  split
  · rfl
  · extract_lets
    rw [mplSettle_berths, modMpl_berths]
    split
    · exact bump_berths ..
    · rfl

/-! Campaign frames -/

@[simp] theorem modCamp_berths (id : Nat) (g : Camp → Camp) : (modCamp id g s).berths = s.berths := rfl

@[simp] theorem modBlk_berths (id b : Nat) (g : CampBlk → CampBlk) : (modBlk id b g s).berths = s.berths := rfl

@[simp] theorem offerSymbols_berths (c : Camp) (b count : Nat) (src : List Byte) : (offerSymbols c b count src s).berths = s.berths := by
  simp only [offerSymbols, modCamp_berths, modBlk_berths]
  exact (foldl_keeps State.berths _ (fun t g => offer_berths ..) _ _).trans (takeDsn_berths s)

@[simp] theorem buildRecord_berths (id r : Nat) : (buildRecord id r s).berths = s.berths := by
  unfold buildRecord
  split <;> rfl

@[simp] theorem recordCheck_berths (id : Nat) : (recordCheck id s).berths = s.berths := by
  unfold recordCheck
  split
  · split <;> simp
  · rfl

@[simp] theorem ckptWait_berths (id : Nat) : (ckptWait id s).berths = s.berths := by simp [ckptWait]

@[simp] theorem dropCampJobs_berths (c : Camp) (r : Bool) : (dropCampJobs c r s).berths = s.berths := rfl

@[simp] theorem prepare_berths (c : Camp) (b : Nat) : (prepare c b s).berths = s.berths := by
  unfold prepare
  extract_lets
  split <;> rfl

@[simp] theorem prefetch_berths : (prefetch s).berths = s.berths := by
  unfold prefetch
  split
  · split <;> simp
  · rfl

@[simp] theorem endVisit_berths : (endVisit s).berths = s.berths := by
  unfold endVisit
  split
  · rfl
  · exact prefetch_berths _

end

/-! Planned transmissions that are withdrawn -/

/-- A berth without the transmissions that are planned for it. -/
def BerthS.unplanned (b : BerthS) : BerthS := { b with requests := [] }

/-- The berths without the transmissions that are planned for them. -/
def unplanned (s : State) : List BerthS := s.berths.map BerthS.unplanned

theorem unplanned_of_berths {s t : State} (h : t.berths = s.berths) : unplanned t = unplanned s := congrArg (List.map _) h

section
variable (s : State)

theorem unplanned_withdraw (p : TxFrame → Bool) : unplanned (withdraw p s) = unplanned s := by
  unfold unplanned withdraw unqueueAll
  rw [modMac_berths, List.map_map]
  rfl

theorem unplanned_withdrawCamp (id : Nat) : unplanned (withdrawCamp id s) = unplanned s :=
  (unplanned_of_berths (bumpBy_berths ..)).trans (unplanned_withdraw s _)

theorem unplanned_endCamp (id r : Nat) : unplanned (endCamp id r s) = unplanned s := by
  unfold endCamp
  split
  · rfl
  · split
    · rfl
    · refine (unplanned_of_berths ?_).trans (unplanned_withdrawCamp s id)
      dsimp only
      split <;> simp

theorem unplanned_exhaustedCheck (id : Nat) : unplanned (exhaustedCheck id s) = unplanned s := by
  unfold exhaustedCheck
  split
  · dsimp only
    split
    · exact unplanned_endCamp ..
    · rfl
  · rfl

theorem unplanned_runVisit (fuel : Nat) : unplanned (runVisit fuel s) = unplanned s := by
  induction fuel generalizing s with
  | zero => rfl
  | succ fuel ih =>
    have hend : ∀ {u : State}, u.berths = s.berths → unplanned (endVisit u) = unplanned s := fun h =>
      unplanned_of_berths ((endVisit_berths _).trans h)
    unfold runVisit
    split
    · rfl
    · split
      · exact hend rfl
      · dsimp only
        split
        · exact hend rfl
        · split
          · rfl
          · split
            · split
              · exact hend rfl
              · exact hend (by simp)
            · split
              · exact (unplanned_exhaustedCheck ..).trans (hend (by simp))
              · split
                · exact hend (by simp)
                · split
                  · rfl
                  · split
                    · exact hend rfl
                    · exact (ih _).trans (unplanned_of_berths (by simp))

theorem unplanned_visitOn : unplanned (visitOn s) = unplanned s := by
  unfold visitOn
  split
  · exact unplanned_runVisit s _
  · rfl

theorem unplanned_campFrameEnded (id : Nat) (f : Frame) (sent : Bool) : unplanned (campFrameEnded id f sent s) = unplanned s := by
  unfold campFrameEnded
  dsimp only
  rw [unplanned_visitOn]
  refine unplanned_of_berths ?_
  split <;> simp

theorem unplanned_txnFrameEnded (tok : Word) (started : Bool) (n : Nat) (e : FrameEnd) :
    unplanned (txnFrameEnded tok started n e s) = unplanned s := by
  have hover : ∀ u, unplanned (transmissionOver tok u) = unplanned u := fun u => unplanned_of_berths (transmissionOver_berths u tok)
  have hfinish : ∀ t d u, unplanned (finishTxn t d u) = unplanned u := fun t d u => unplanned_of_berths (finishTxn_berths u t d)
  have hgone : ∀ g, unplanned (withdrawTxn tok (modTxn tok g s)) = unplanned s := fun g => unplanned_withdraw _ _
  unfold txnFrameEnded
  split
  · rfl
  · cases e with
    | sent =>
      dsimp only
      split
      · exact hover _
      · rfl
    | linkFail => exact (hover _).trans (hgone _)
    | refused => exact (hfinish ..).trans (hgone _)
    | poisoned => exact (hfinish ..).trans (hgone _)
    | stale => exact (hfinish ..).trans (hgone _)

theorem unplanned_dgramFrameEnded (id a : Nat) (started : Bool) (n : Nat) (e : FrameEnd) :
    unplanned (dgramFrameEnded id a started n e s) = unplanned s := by
  have hover : ∀ j st u, unplanned (dgramOver j st u) = unplanned u := fun j st u => unplanned_of_berths (dgramOver_berths u j st)
  have hgone : ∀ p g, unplanned (withdraw p (modSvc g s)) = unplanned s := fun p g => unplanned_withdraw _ p
  unfold dgramFrameEnded
  split
  · rfl
  · cases e with
    | sent =>
      dsimp only
      split
      · exact hover ..
      · rfl
    | linkFail => exact (hover ..).trans (hgone ..)
    | refused => exact (hover ..).trans (hgone ..)
    | poisoned => exact (hover ..).trans (hgone ..)
    | stale => exact (hover ..).trans (hgone ..)

theorem unplanned_tellOwner (q : TxFrame) (o : TxOutcome) (started : Bool) (e : FrameEnd) :
    unplanned (tellOwner q o started e s) = unplanned s := by
  have hfrag : unplanned (fragAbort q s).2 = unplanned s := (unplanned_of_berths (bump_berths ..)).trans (unplanned_withdraw s _)
  have hrest : unplanned (if e = .linkFail && q.frame.upper.fragTag.isSome then fragAbort q s else (0, s)).2 = unplanned s := by
    split
    · exact hfrag
    · rfl
  unfold tellOwner
  extract_lets rest _ _
  split
  case h_1 | h_2 | h_3 => exact hrest
  case h_4 => exact (unplanned_of_berths (mplFrameEnded_berths ..)).trans hrest
  case h_5 => exact (unplanned_txnFrameEnded ..).trans hrest
  case h_6 => exact (unplanned_dgramFrameEnded ..).trans hrest
  case h_7 => exact unplanned_of_berths (rawEnded_berths ..)
  case h_8 => exact unplanned_campFrameEnded ..

/-- R133, R183: a frame that ends leaves of the berths all but what is planned. -/
theorem unplanned_frameEnded (q : TxFrame) (o : TxOutcome) (started : Bool) (e : FrameEnd) :
    unplanned (frameEnded q o started e s) = unplanned s :=
  (unplanned_tellOwner ..).trans (unplanned_of_berths rfl)

end
end Sys2Proof.Machine
end

section
/-!
PROOF. The end of a transmission on air (R131, R133): its outcome leaves the berths as they are but for what is planned, so that after
an abort no frame of the berth is on air.
-/

namespace Sys2Proof.Machine

section
variable {s : State} {n : Nat} {o : TxOutcome}

theorem unplanned_linkFailed (q : TxFrame) (o : TxOutcome) (s : State) : unplanned (linkFailed q o s) = unplanned s := by
  unfold linkFailed
  rw [unplanned_frameEnded]
  refine unplanned_of_berths ?_
  split
  · dsimp only
    split <;> simp
  · simp
  · simp

theorem unplanned_attemptFailed (q : TxFrame) (o : TxOutcome) (s : State) : unplanned (attemptFailed q o s) = unplanned s := by
  unfold attemptFailed
  dsimp only
  split
  · exact unplanned_linkFailed ..
  · rfl

theorem unplanned_deferred (q : TxFrame) (o : TxOutcome) (s : State) : unplanned (deferred q o s) = unplanned s := by
  unfold deferred
  dsimp only
  split
  · exact unplanned_linkFailed ..
  · rfl

theorem unplanned_queuedFailed (t : Tx) (q : TxFrame) (o : TxOutcome) (onAir : Bool) (s : State) :
    unplanned (queuedFailed t q o onAir s) = unplanned s := by
  unfold queuedFailed
  split
  · exact unplanned_frameEnded ..
  · split
    · exact unplanned_frameEnded ..
    · split
      · exact (unplanned_frameEnded ..).trans (unplanned_of_berths (keyStale_berths ..))
      · split
        · split
          · rfl
          · exact unplanned_attemptFailed ..
        · exact unplanned_deferred ..

/-- R133: an outcome other than SENT leaves of the berths all but what is planned. -/
theorem unplanned_txOutcome (ho : o ≠ .sent) (b : Nat) (t : Tx) (onAir : Bool) (s : State) :
    unplanned (txOutcome b t o onAir s) = unplanned s := by
  unfold txOutcome
  split
  case h_1 | h_2 => rw [if_neg ho]
  case h_3 =>
    rw [if_neg ho]
    split
    · rfl
    · exact unplanned_of_berths ((raiseAux_berths ..).trans (bump_berths ..))
  case h_4 | h_5 | h_6 =>
    split
    · rfl
    · rw [if_neg ho]
      exact unplanned_queuedFailed ..

theorem getBerth_unplanned (n : Nat) (s : State) : (unplanned s).getD n (BerthS.reset n) = (getBerth s n).unplanned := by
  rw [unplanned, getBerth, List.getD_eq_getElem?_getD, List.getD_eq_getElem?_getD, List.getElem?_map]
  cases s.berths[n]? <;> rfl

theorem onAir_of_unplanned {t : State} (h : unplanned t = unplanned s) (n : Nat) : (getBerth t n).onAir = (getBerth s n).onAir := by
  have e := congrArg (fun l => (l.getD n (BerthS.reset n)).onAir) h
  simpa only [getBerth_unplanned, BerthS.unplanned] using e

theorem length_of_unplanned {t : State} (h : unplanned t = unplanned s) : t.berths.length = s.berths.length := by
  simpa only [unplanned, List.length_map] using congrArg List.length h

theorem countOutcome_berths (n : Nat) (o : TxOutcome) (s : State) : (countOutcome n o s).berths = s.berths := by
  unfold countOutcome
  split
  · exact bump_berths ..
  · rfl

theorem airing_of_onAir {t : State} (h : (getBerth t n).onAir = (getBerth s n).onAir) : airing t n = airing s n := by
  rw [airing, airing, h]

/-- R131, R145: the outcome of an abort is counted and told, which changes no berth. -/
theorem abortTold_berths (n : Nat) (t : Tx) (o : TxOutcome) (s : State) :
    (emit (.airEnd n o) (txEvent n 4 o.code t 0 (countOutcome n o s))).berths = s.berths := by
  rw [emit_berths, txEvent, raiseFull_berths, countOutcome_berths]

theorem length_berths_abortAir (ho : o ≠ .sent) (n : Nat) (s : State) : (abortAir n o s).berths.length = s.berths.length := by
  unfold abortAir
  split
  · rfl
  · split
    · rfl
    · dsimp only
      rw [length_of_unplanned (unplanned_txOutcome ho ..), abortTold_berths]
      simp [dutyMod, retuneAfterRamp]

/-- R131, R132: after an abort no frame of the berth is on air: there was none, or it is done. -/
theorem airing_abortAir (hn : n < s.berths.length) (ho : o ≠ .sent) : airing (abortAir n o s) n = none := by
  unfold abortAir
  split
  next hair => rw [airing, hair, Option.filter_none]
  next t hair =>
    split
    next hd => simp [airing, hair, hd]
    next =>
      dsimp only
      rw [airing_of_onAir (onAir_of_unplanned (unplanned_txOutcome ho ..) n),
        airing_of_onAir (congrArg BerthS.onAir (getBerth_of_berths (abortTold_berths ..) n))]
      simp [airing, getBerth, dutyMod, retuneAfterRamp, List.getD_eq_getElem?_getD, hn]

end
end Sys2Proof.Machine
end

section
/-!
PROOF. The RX LO, clips and calibration of a berth (R95, R99, R102, R107, R120).
-/

namespace Sys2Proof.Machine

/-! Turns over the demodulators of a berth -/

/-- Where turn `j` establishes `Q` from `P` and every other turn keeps both, the turns below `m` establish `Q`. -/
theorem forBelow_establishes {P Q : State → Prop} {g : Nat → State → State} {m j : Nat} (hj : j < m)
    (hP : ∀ i ≠ j, ∀ t, P t → P (g i t)) (hjQ : ∀ t, P t → Q (g j t)) (hQ : ∀ i ≠ j, ∀ t, Q t → Q (g i t))
    {s : State} (hs : P s) : Q (forBelow m g s) := by
  have hkeeps : ∀ k ≤ j, P (forBelow k g s) := by
    intro k hk
    refine List.foldlRecOn (motive := P) (List.range k) _ hs fun t ht i hi => hP i ?_ t ht
    have := List.mem_range.mp hi
    omega
  have hsucc : ∀ k, forBelow (k + 1) g s = g k (forBelow k g s) := fun k => by simp [forBelow, List.range_succ]
  induction hj with
  | refl => exact hsucc j ▸ hjQ _ (hkeeps j (Nat.le_refl j))
  | @step k hk ih => exact hsucc k ▸ hQ k (Nat.ne_of_gt hk) _ ih

section
variable {s : State} {n i j : Nat}

theorem rest_cases (n i : Nat) (s : State) : rest n i s = s ∨ ∃ st, rest n i s = setDemod n i st s := by
  unfold rest
  split
  · split
    · exact .inr ⟨_, rfl⟩
    · exact .inl rfl
  case h_2 | h_3 => exact .inr ⟨_, rfl⟩
  case h_4 | h_5 | h_6 => exact .inl rfl

theorem shellOf_rest (n i : Nat) (s : State) : shellOf n (rest n i s) = shellOf n s := by
  rcases rest_cases n i s with e | ⟨st, e⟩
  · rw [e]
  · rw [e, setDemod, shellOf_modDemod]

theorem shellOf_restAll (n : Nat) (s : State) : shellOf n (restAll n s) = shellOf n s :=
  forBelow_keeps (shellOf n) (rest n) (shellOf_rest n) _ s

theorem rd_restAll (n : Nat) (s : State) (k : Nat) : rd (restAll n s) k = rd s k :=
  forBelow_keeps (fun t => rd t k) (rest n) (fun i t => by
    rcases rest_cases n i t with e | ⟨st, e⟩
    · rw [e]
    · rw [e]
      rfl) _ s

/-- R107: a demodulator's state at rest follows from its berth without the demodulators, RX_ON and the dry dock. -/
theorem restState_setDemod (n i j : Nat) (st : DemodState) (s : State) : restState (setDemod n i st s) n j = restState s n j := by
  have hrx : rxOn (setDemod n i st s) n = rxOn s n := rfl
  have hdock : inDock (setDemod n i st s) n = inDock s n := rfl
  unfold restState entryOn
  rw [hrx, hdock, setDemod]
  rcases getBerth_modDemod n i (fun d => { d with st := st }) s with e | e
  · rw [e]
  · rw [e]

/-- Demodulator `j` of berth `n` is OFF, and its berth would now have it search. -/
structure WillSearch (n j : Nat) (s : State) : Prop where
  has : HasDemod s n j
  off : (getDemod s n j).st = .off
  rests : restState s n j = .search

theorem WillSearch.rest_ne (h : WillSearch n j s) (hi : i ≠ j) : WillSearch n j (rest n i s) := by
  rcases rest_cases n i s with e | ⟨st, e⟩
  · rw [e]
    exact h
  · rw [e]
    refine ⟨h.has.of_shell (shellOf_modDemod ..), ?_, (restState_setDemod ..).trans h.rests⟩
    rw [setDemod, getDemod_modDemod_ne hi, h.off]

theorem WillSearch.rest_self (h : WillSearch n j s) : (getDemod (rest n j s) n j).st = .search := by
  have e : rest n j s = setDemod n j .search s := by simp only [rest, h.off, h.rests, if_true]
  rw [e, setDemod, h.has.getDemod_modDemod]

theorem getDemod_rest_ne (hi : i ≠ j) (n : Nat) (s : State) : getDemod (rest n i s) n j = getDemod s n j := by
  rcases rest_cases n i s with e | ⟨st, e⟩
  · rw [e]
  · rw [e, setDemod, getDemod_modDemod_ne hi]

/-- R107: every enabled demodulator at rest searches. -/
theorem WillSearch.restAll (h : WillSearch n j s) (hj : j < berthEntries n) : (getDemod (restAll n s) n j).st = .search :=
  forBelow_establishes (P := WillSearch n j) (Q := fun t => (getDemod t n j).st = .search) hj (fun _ hi _ ht => ht.rest_ne hi)
    (fun _ ht => ht.rest_self) (fun _ hi t ht => by rw [getDemod_rest_ne hi, ht]) h

/-! Demodulators that go OFF -/

theorem shellOf_demodOff (n i : Nat) (s : State) : shellOf n (demodOff n i s) = shellOf n s := by
  rw [demodOff, setDemod, shellOf_modDemod, shellOf_abortRecord]

theorem shellOf_demodsOff (n : Nat) (s : State) : shellOf n (demodsOff n s) = shellOf n s :=
  forBelow_keeps (shellOf n) (demodOff n) (shellOf_demodOff n) _ s

theorem HasDemod.demodOff_self (h : HasDemod s n j) : (getDemod (demodOff n j s) n j).st = .off := by
  rw [demodOff, setDemod, (h.of_shell (shellOf_abortRecord ..)).getDemod_modDemod]

theorem getDemod_demodOff_ne (hi : i ≠ j) (n : Nat) (s : State) : getDemod (demodOff n i s) n j = getDemod s n j := by
  rw [demodOff, setDemod, getDemod_modDemod_ne hi]
  rcases abortRecord_cases n i .config s with ⟨_, e⟩ | ⟨r, _, e⟩
  · rw [e]
  · rw [e, getDemod_modDemod_ne hi, getDemod_of_berths (berths_closeRecord ..)]

/-- R95, R107: every demodulator of a berth goes OFF. -/
theorem HasDemod.demodsOff (h : HasDemod s n j) (hj : j < berthEntries n) : (getDemod (demodsOff n s) n j).st = .off :=
  forBelow_establishes (P := fun t => HasDemod t n j) (Q := fun t => (getDemod t n j).st = .off) hj
    (fun i _ t ht => ht.of_shell (shellOf_demodOff n i t)) (fun _ ht => ht.demodOff_self)
    (fun _ hi t ht => by rw [getDemod_demodOff_ne hi, ht]) h

/-! The RX LO -/

theorem getBerth_of_shell {t : State} (e : shellOf n t = shellOf n s) : ∃ ds, getBerth t n = { getBerth s n with demods := ds } := by
  have hb := congrArg (fun x => { x.berth with demods := (getBerth t n).demods }) e
  exact ⟨_, hb⟩

theorem berth_lt_of_shell {t : State} (e : shellOf n t = shellOf n s) (hn : n < s.berths.length) : n < t.berths.length :=
  Nat.lt_of_lt_of_eq hn (congrArg BerthShell.berths e).symm

/-- R95: the RX LO is locked. -/
def lockLo (n : Nat) (s : State) : State := modBerth n (fun b => { b with loLock := true }) s

/-- R95: the RX LO is not locked, and the berth follows no frame. -/
def loseLock (n : Nat) (s : State) : State := modBerth n (fun b => { b with loLock := false }) (demodsOff n s)

theorem getBerth_loseLock (hn : n < s.berths.length) :
    getBerth (loseLock n s) n = { getBerth (demodsOff n s) n with loLock := false } :=
  getBerth_modBerth_self (berth_lt_of_shell (shellOf_demodsOff n s) hn) _

theorem demods_loseLock_off (hn : n < s.berths.length) (hlen : (getBerth s n).demods.length ≤ berthEntries n) :
    ((getBerth (loseLock n s) n).demods.all fun d => d.st = .off) = true := by
  rw [getBerth_loseLock hn, List.all_eq_true]
  intro d hd
  obtain ⟨j, hj, rfl⟩ := List.mem_iff_getElem.mp hd
  dsimp only at hj
  have hj' : j < (getBerth s n).demods.length :=
    Nat.lt_of_lt_of_eq hj (congrArg BerthShell.demods (shellOf_demodsOff n s))
  have hoff := HasDemod.demodsOff ⟨hn, hj'⟩ (Nat.lt_of_lt_of_le hj' hlen)
  rw [getDemod, List.getD_eq_getElem?_getD, List.getElem?_eq_getElem hj, Option.getD_some] at hoff
  exact decide_eq_true hoff

theorem doRxLoUnlock_locked (h : (getBerth s n).loLock = true) : doRxLoUnlock n s =
    if rxOn s n then raise (8 * n + 2) 0 (bump (berthBase n) Ct.BERTH_RX_CONFIG_ABORT (loseLock n s)) else loseLock n s := if_pos h

theorem berths_doRxLoUnlock (h : (getBerth s n).loLock = true) : (doRxLoUnlock n s).berths = (loseLock n s).berths := by
  rw [doRxLoUnlock_locked h]
  split
  · rw [raise_berths, bump_berths]
  · rfl

/-! Clips -/

/-- R102: the slot's clip is marked, with the peak of the instant; an open record carries the mark. -/
def BerthS.clipped (peak : Nat) (b : BerthS) : BerthS :=
  { b with
    clipNow := true
    peakNow := some (min peak (b.peakNow.getD peak))
    demods := b.demods.map fun d => { d with record := d.record.map fun r => { r with clip := true } } }

theorem doRxClip_first {peak : Nat} (hrx : rxOn s n = true) (hb : (getBerth s n).blankEnd = none)
    (hc : (getBerth s n).clipNow = false) : doRxClip n peak s =
      raiseAux (8 * n) (getBerth s n).gain (auxNow s) (bump (berthBase n) Ct.BERTH_RX_CLIP (modBerth n (BerthS.clipped peak) s)) := by
  simp only [doRxClip, hrx, hb, hc, Option.isNone_none, Bool.and_self, Bool.not_false, if_true]
  rfl

theorem doRxClip_blanked {peak : Nat} (hb : (getBerth s n).blankEnd ≠ none) : doRxClip n peak s = s := by
  have hsome : (getBerth s n).blankEnd.isNone = false := by simpa [Option.isSome_iff_ne_none] using hb
  simp only [doRxClip, hsome, Bool.and_false, Bool.false_eq_true, if_false]

/-! Calibration -/

theorem takeRxCal_start (hbusy : (getBerth s n).calBusy = false) (hrx : rxOn s n = false) :
    takeRxCal n 1 s = modBerth n (fun b => { b with calBusy := true }) (abortAir n .berthUnavailable (demodsOff n s)) := by
  simp only [takeRxCal, hbusy, hrx, show bitAt 0 (1 : Word) = true from rfl, Bool.not_true, Bool.not_false, Bool.true_or, Bool.or_self,
    Bool.false_eq_true, if_false]

theorem takeRxCal_busy (hbusy : (getBerth s n).calBusy = true) : takeRxCal n 1 s = reject (berthBase n) s := by
  simp only [takeRxCal, hbusy, show bitAt 0 (1 : Word) = true from rfl, Bool.not_true, Bool.false_eq_true, if_false, Bool.true_or,
    if_true]

theorem rejected_reject (k : Nat) (s : State) : Rejected (reject k s) k := by
  rw [Rejected, reject, rd_wr_self, bitAt, BitVec.getLsbD_or]
  simp

/-- R99: no calibration runs, and the tables of one that ended well are in force. -/
def calEnded (n dcRes imageRej : Nat) (ok : Bool) (s : State) : State :=
  let s1 := modBerth n (fun b => { b with calBusy := false }) s
  if ok then calInstalled n dcRes imageRej s1 else fset (berthBase n) Fl.BERTH_STATUS_CAL_FAIL 1 s1

theorem doRxCalDone_busy {dcRes imageRej : Nat} {ok : Bool} (hbusy : (getBerth s n).calBusy = true) :
    doRxCalDone n dcRes imageRej ok s = raise (8 * n + 1) (if ok then 0 else 1) (restAll n (calEnded n dcRes imageRej ok s)) :=
  if_pos hbusy

/-- What the end of a calibration leaves of the berth, its demodulators aside. -/
theorem getBerth_doRxCalDone {ok : Bool} (hbusy : (getBerth s n).calBusy = true) (dcRes imageRej : Nat) :
    ∃ ds, getBerth (doRxCalDone n dcRes imageRej ok s) n = { getBerth (calEnded n dcRes imageRej ok s) n with demods := ds } :=
  getBerth_of_shell (by rw [doRxCalDone_busy hbusy, shellOf_of_berths (raise_berths ..), shellOf_restAll])

/-- R98, R99, R124: a berth with the tables of a full calibration in force, which ended at MONO `mono`. -/
def BerthS.calibrated (dcRes imageRej mono : Nat) (b : BerthS) : BerthS :=
  { b with
    calValid := true, trackLimit := false, trackLatched := false, dcRes := dcRes, imageRej := max 35 imageRej
    refreshDue := none, refreshOverdue := false, refreshMono := mono, refreshTemp := b.temp }

theorem getBerth_calEnded_good (hn : n < s.berths.length) (dcRes imageRej : Nat) :
    getBerth (calEnded n dcRes imageRej true s) n =
      BerthS.calibrated dcRes imageRej (monoNs s) { getBerth s n with calBusy := false } := by
  have hlt : n < (modBerth n (fun b => { b with calBusy := false }) s).berths.length := by simpa using hn
  have hb := getBerth_modBerth_self hlt (BerthS.calibrated dcRes imageRej (monoNs s))
  rw [getBerth_modBerth_self hn] at hb
  exact hb

theorem getBerth_calEnded_failed (hn : n < s.berths.length) (dcRes imageRej : Nat) :
    getBerth (calEnded n dcRes imageRej false s) n = { getBerth s n with calBusy := false } := getBerth_modBerth_self hn _

end

section
variable {s : State} {n : Berth}

/-- R95: a step in which the RX LO locks. -/
theorem rxLoLocked_step {j : Nat} (h : HasDemod s n.val j) (hpres : berthPresent s n.val = true) (hrx : rxOn s n.val = true)
    (hon : entryOn s n.val j = true) (hcal : (getBerth s n.val).calBusy = false) (hblank : (getBerth s n.val).blankEnd = none)
    (hdock : inDock s n.val = false) (hj : j < berthEntries n.val) (hoff : (getDemod s n.val j).st = .off) :
    let t := settle (tapAll s (doRxLoLocked n.val s))
    (getBerth t n.val).loLock = true ∧ (getDemod t n.val j).st = .search := by
  have e : doRxLoLocked n.val s = restAll n.val (lockLo n.val s) := if_pos hpres
  have hb : getBerth (lockLo n.val s) n.val = { getBerth s n.val with loLock := true } := getBerth_modBerth_self h.berth_lt _
  have hwill : WillSearch n.val j (lockLo n.val s) := by
    refine ⟨⟨?_, ?_⟩, ?_, ?_⟩
    case refine_1 => simpa [lockLo] using h.berth_lt
    case refine_2 => simpa [hb] using h.demod_lt
    case refine_3 =>
      rw [getDemod, hb]
      exact hoff
    case refine_4 =>
      have hrx' : rxOn (lockLo n.val s) n.val = true := hrx
      have hdock' : inDock (lockLo n.val s) n.val = false := hdock
      have hon' : entryOn (lockLo n.val s) n.val j = true := by
        rw [entryOn, hb]
        exact hon
      simp [restState, hon', hrx', hdock', hb, hcal, hblank]
  obtain ⟨ds, hds⟩ := getBerth_of_shell (shellOf_restAll n.val (lockLo n.val s))
  dsimp only
  rw [getBerth_after, getDemod_after, e, hds, hb]
  exact ⟨rfl, hwill.restAll hj⟩

/-- R95: a step in which the RX LO loses lock. -/
theorem rxLoUnlock_step (hn : n.val < s.berths.length) (hlock : (getBerth s n.val).loLock = true) :
    let t := settle (tapAll s (doRxLoUnlock n.val s))
    (getBerth t n.val).loLock = false ∧
      ((getBerth s n.val).demods.length ≤ berthEntries n.val → ((getBerth t n.val).demods.all fun d => d.st = .off) = true) ∧
      (rxOn s n.val = true → Raised t (8 * n.val + 2)) := by
  have hcode : 8 * n.val + 2 < 256 := by omega
  have hb := getBerth_of_berths (berths_doRxLoUnlock hlock) n.val
  dsimp only
  rw [getBerth_after, hb]
  refine ⟨by rw [getBerth_loseLock hn], demods_loseLock_off hn, fun hrx => ?_⟩
  rw [doRxLoUnlock_locked hlock, if_pos hrx]
  exact raised_after hcode (raised_raise_self hcode 0 _)

/-- R102: a step in which the first clip of a slot is met. -/
theorem rxClip_step {peak : Nat} (hn : n.val < s.berths.length) (hrx : rxOn s n.val = true)
    (hb : (getBerth s n.val).blankEnd = none) (hc : (getBerth s n.val).clipNow = false) :
    let t := settle (tapAll s (doRxClip n.val peak s))
    (getBerth t n.val).clipNow = true ∧ Counted s t (berthBase n.val) Ct.BERTH_RX_CLIP 1 ∧ Raised t (8 * n.val) := by
  have hcode : 8 * n.val < 256 := by omega
  have hkey := ownKey_berth n (by decide : Ct.BERTH_RX_CLIP.off < 0x400)
  have hcnt := counted_bump hkey (by decide) (modBerth n.val (BerthS.clipped peak) s)
  have hevent : eventKey (berthBase n.val + Ct.BERTH_RX_CLIP.off) = false := by
    unfold ownKey at hkey
    simp only [Bool.and_eq_true, Bool.not_eq_true'] at hkey
    exact hkey.1
  dsimp only
  rw [getBerth_after, doRxClip_first hrx hb hc]
  refine ⟨?_, (hcnt.congr rfl (rd_raiseAux hcode hevent ..)).after hkey, raised_after hcode (raised_raiseAux_self hcode _ _ _)⟩
  rw [getBerth_of_berths ((raiseAux_berths ..).trans (bump_berths ..)), getBerth_modBerth_self hn]
  rfl

/-- R99: a step in which a calibration starts: no frame of the berth stays on air. -/
theorem rxCal_step (hn : n.val < s.berths.length) (hbusy : (getBerth s n.val).calBusy = false) (hrx : rxOn s n.val = false) :
    let t := settle (tapAll s (takeRxCal n.val 1 s))
    (getBerth t n.val).calBusy = true ∧ airing t n.val = none := by
  have hoff := berth_lt_of_shell (shellOf_demodsOff n.val s) hn
  have hair := airing_abortAir (o := .berthUnavailable) hoff (by decide)
  have hlt := Nat.lt_of_lt_of_eq hoff
    (length_berths_abortAir (o := .berthUnavailable) (by decide) n.val (demodsOff n.val s)).symm
  dsimp only
  rw [getBerth_after, airing, getBerth_after, takeRxCal_start hbusy hrx, getBerth_modBerth_self hlt]
  exact ⟨rfl, hair⟩

/-- R99, R120: a step in which a calibration ends is told. -/
theorem rxCalDone_raises {dcRes imageRej : Nat} {ok : Bool} (hbusy : (getBerth s n.val).calBusy = true) :
    Raised (settle (tapAll s (doRxCalDone n.val dcRes imageRej ok s))) (8 * n.val + 1) := by
  have hcode : 8 * n.val + 1 < 256 := by omega
  rw [doRxCalDone_busy hbusy]
  exact raised_after hcode (raised_raise_self hcode _ _)

/-- R99: a step in which a calibration ends well. -/
theorem rxCalDone_good (hn : n.val < s.berths.length) (hbusy : (getBerth s n.val).calBusy = true) (dcRes imageRej : Nat) :
    let t := settle (tapAll s (doRxCalDone n.val dcRes imageRej true s))
    (getBerth t n.val).calBusy = false ∧ (getBerth t n.val).calValid = true ∧ (getBerth t n.val).dcRes = dcRes ∧
      (getBerth t n.val).imageRej = max 35 imageRej ∧ (getBerth t n.val).trackLimit = false := by
  obtain ⟨ds, hds⟩ := getBerth_doRxCalDone (ok := true) hbusy dcRes imageRej
  dsimp only
  rw [getBerth_after, hds, getBerth_calEnded_good hn]
  exact ⟨rfl, rfl, rfl, rfl, rfl⟩

/-- R99: a step in which a calibration fails. -/
theorem rxCalDone_failed (hn : n.val < s.berths.length) (hbusy : (getBerth s n.val).calBusy = true) (dcRes imageRej : Nat) :
    let t := settle (tapAll s (doRxCalDone n.val dcRes imageRej false s))
    (getBerth t n.val).calBusy = false ∧ (getBerth t n.val).calValid = (getBerth s n.val).calValid ∧
      fbit t (berthBase n.val) Fl.BERTH_STATUS_CAL_FAIL = true := by
  have hkey := ownKey_berth n (by decide : Fl.BERTH_STATUS_CAL_FAIL.off < 0x400)
  have hevent := hkey
  unfold ownKey at hevent
  simp only [Bool.and_eq_true, Bool.not_eq_true'] at hevent
  obtain ⟨ds, hds⟩ := getBerth_doRxCalDone (ok := false) hbusy dcRes imageRej
  dsimp only
  rw [getBerth_after, hds, getBerth_calEnded_failed hn]
  refine ⟨rfl, rfl, ?_⟩
  rw [fbit, fget, rd_after hkey, doRxCalDone_busy hbusy, rd_raise (by omega) hevent.1, rd_restAll]
  exact decide_eq_true (fget_fset_self (by decide) (by decide))

end

/-- Settles O13: the RX LO's lock and its loss, clips, and calibrations that start and end, each from what it does to its berth. -/
theorem berthTuningAndCalibration : Obligations.BerthTuningAndCalibration := by
  intro s n hw hn
  refine ⟨fun j hpres hrx hon hcal hblank hdock hj hlt hoff =>
      ⟨_, act_works hw _, rxLoLocked_step ⟨hn, hlt⟩ hpres hrx hon hcal hblank hdock hj hoff⟩,
    fun hlock => ⟨_, act_works hw _, rxLoUnlock_step hn hlock⟩, fun peak hb => ⟨_, act_works hw _, ?blanked⟩,
    fun peak hrx hb hc => ⟨_, act_works hw _, rxClip_step hn hrx hb hc⟩,
    fun hpres hbusy hrx => ⟨_, act_works hw _, ?starts⟩, fun hpres hbusy => ⟨_, act_works hw _, ?busy⟩,
    fun dcRes imageRej hbusy => ⟨_, act_works hw _, ?good⟩, fun dcRes imageRej hbusy => ⟨_, act_works hw _, ?failed⟩⟩
  case blanked => rw [berths_after, doRxClip_blanked hb]
  case starts =>
    rw [if_pos hpres]
    exact rxCal_step hn hbusy hrx
  case busy =>
    have hkey : ownKey (berthBase n.val) = true := ownKey_berth n (by decide : 0 < 0x400)
    rw [if_pos hpres, takeRxCal_busy hbusy, berths_after, reject_berths, Rejected, rd_after hkey]
    exact ⟨rejected_reject _ s, rfl⟩
  case good =>
    obtain ⟨hidle, hvalid, hdc, himage, hlimit⟩ := rxCalDone_good hn hbusy dcRes imageRej
    exact ⟨hidle, hvalid, hdc, himage, hlimit, rxCalDone_raises hbusy⟩
  case failed =>
    obtain ⟨hidle, hvalid, hfail⟩ := rxCalDone_failed hn hbusy dcRes imageRej
    exact ⟨hidle, hvalid, hfail, rxCalDone_raises hbusy⟩

end Sys2Proof.Machine
end

section
/-!
PROOF. The windows of the MAC tables (R153, R154, R184): what an accepted write stores in the staging tables and what a read returns.
-/

namespace Sys2Proof.Machine

theorem rd_storeKey_ne {j k : Nat} (h : j ≠ k) (v : Word) (s : State) : rd (storeKey k v s) j = rd s j := by
  unfold storeKey
  split
  · exact rd_wr_ne h _ s
  · rfl

theorem fget_after {b : Nat} {d : Fld} (h : ownKey (b + d.off) = true) (u t : State) :
    fget (settle (tapAll u t)) b d = fget t b d := fget_of_rd (rd_after h)

/-- R36: a read that reaches its register has the register's effect. -/
theorem hostReadWith_readable {s : State} {f off : Nat} (h : Readable s f off = true) (k : State → State) :
    hostReadWith f off k s = k s := by
  unfold Readable at h
  simp only [Bool.and_eq_true] at h
  obtain ⟨hready, hreach⟩ := h
  unfold hostReadWith
  rw [if_pos hready]
  split at hreach
  next hr => rw [hr]
  next => cases hreach

section
variable (v : Word) (s : State)

/-- R153: the addressed cell of the staging table becomes the word of MAC_CELL_DATA0 with the one of MAC_CELL_DATA1. -/
theorem takeCellData_mac : (takeCellData v s).mac = { s.mac with staging := { s.mac.staging with
    cells := s.mac.staging.cells.put (fget s 0 Fl.MAC_CELL_ADDR_INDEX)
      ⟨rd s Reg.MAC_CELL_DATA0, rd (takeCellData v s) Reg.MAC_CELL_DATA1⟩ } } := by
  have h0 : rd (storeKey Reg.MAC_CELL_DATA1 v s) Reg.MAC_CELL_DATA0 = rd s Reg.MAC_CELL_DATA0 := rd_storeKey_ne (by decide) v s
  have h1 : rd (takeCellData v s) Reg.MAC_CELL_DATA1 = rd (storeKey Reg.MAC_CELL_DATA1 v s) Reg.MAC_CELL_DATA1 :=
    rd_fset_ne (by decide) _ _
  rw [h1, ← h0]
  simp only [takeCellData, fset_mac, modMac_mac, storeKey_mac]

theorem fget_takeCellData : fget (takeCellData v s) 0 Fl.MAC_CELL_ADDR_INDEX = (fget s 0 Fl.MAC_CELL_ADDR_INDEX + 1) % 4096 :=
  fget_fset_self (by decide) (by decide)

theorem hopAdvance_mac : (hopAdvance s).mac = s.mac := rfl

theorem fget_hopAdvance : fget (hopAdvance s) 0 Fl.MAC_HOP_ADDR_INDEX = (fget s 0 Fl.MAC_HOP_ADDR_INDEX + 1) % 256 :=
  fget_fset_self (by decide) (by decide)

/-- R154: the addressed hopping entry of the staging table becomes CHAN of the word. -/
theorem takeHopData_mac : (takeHopData v s).mac = { s.mac with staging := { s.mac.staging with
    hops := s.mac.staging.hops.put (hopKey s) (bitsOf 9 0 v) } } := by
  simp only [takeHopData, hopAdvance_mac, modMac_mac, storeKey_mac]

theorem fget_takeHopData : fget (takeHopData v s) 0 Fl.MAC_HOP_ADDR_INDEX = (fget s 0 Fl.MAC_HOP_ADDR_INDEX + 1) % 256 := by
  have h : fget (storeKey Reg.MAC_HOP_DATA v s) 0 Fl.MAC_HOP_ADDR_INDEX = fget s 0 Fl.MAC_HOP_ADDR_INDEX :=
    fget_of_rd (rd_storeKey_ne (by decide) v s)
  rw [← h]
  exact fget_hopAdvance _

end

/-- Settles O18: each access through a window from what it stores or puts out, and the INDEX that it moves on. -/
theorem macWindows : Obligations.MacWindows := by
  intro s f hw
  have hcell : ownKey (0 + Fl.MAC_CELL_ADDR_INDEX.off) = true := by decide
  have hhop : ownKey (0 + Fl.MAC_HOP_ADDR_INDEX.off) = true := by decide
  refine ⟨fun v ha => ⟨_, act_works hw _, ?cellWrite⟩, fun v k ha hk => ⟨_, act_works hw _, ?cellOther⟩,
    fun hr => ⟨_, act_works hw _, ?cellRead⟩, fun v ha => ⟨_, act_works hw _, ?hopWrite⟩, fun hr => ⟨_, act_works hw _, ?hopRead⟩⟩
  case cellWrite =>
    have h1 : ownKey Reg.MAC_CELL_DATA1 = true := by decide
    rw [rowWrite_accepts ha, mac_after, fget_after hcell, rd_after h1, takeCellData_mac]
    exact ⟨SMap.find_put_self _ _ _, fget_takeCellData v _, rfl⟩
  case cellOther =>
    rw [rowWrite_accepts ha, mac_after, takeCellData_mac]
    exact SMap.find_put_ne _ hk _
  case cellRead =>
    rw [hostReadWith_readable hr, mac_after, fget_after hcell]
    exact ⟨putOut_after rfl, fget_fset_self (by decide) (by decide), rfl⟩
  case hopWrite =>
    dsimp only
    rw [rowWrite_accepts ha, mac_after, fget_after hhop, takeHopData_mac]
    exact ⟨SMap.find_put_self _ _ _, fget_takeHopData v _, rfl⟩
  case hopRead =>
    dsimp only
    rw [hostReadWith_readable hr, mac_after, fget_after hhop]
    exact ⟨putOut_after rfl, fget_hopAdvance _, rfl⟩

end Sys2Proof.Machine
end

section
/-!
PROOF. What the table engine leaves alone while a record is processed (R187 to R206): the records that wait, the receptions that are
kept, the service engine and the gate; and a neighbour of which no frame was accepted stays such a neighbour.
-/

namespace Sys2Proof.Machine

/-! What a record's processing rests on beside the tables -/

/-- What the end of a record's processing rests on: the MAC engine's records and receptions, the service engine, the gate and the
configuration of raw copies. -/
structure RecordView where
  records : List RxRec
  recent : List Reception
  svc : SvcS
  gate : Bool
  rawCfg : Word

/-- What the end of a record's processing finds in a state. -/
def recordView (s : State) : RecordView := ⟨s.mac.records, s.mac.recent, s.svc, s.claim.gate, rd s Reg.SVC_RAW_CFG⟩

section
variable (s : State)

theorem recordView_of_bareEvent {s t : State} (h : bareEvent t = bareEvent s) (hr : rd t Reg.SVC_RAW_CFG = rd s Reg.SVC_RAW_CFG) :
    recordView t = recordView s := by
  rw [recordView, recordView, bareEvent_mac h, bareEvent_svc h, bareEvent_claim h, hr]

theorem recordView_wr {k : Nat} (h : Reg.SVC_RAW_CFG ≠ k) (v : Word) : recordView (wr k v s) = recordView s := by
  rw [recordView, rd_wr_ne h]
  rfl

theorem recordView_fset {b : Nat} {d : Fld} (h : Reg.SVC_RAW_CFG ≠ b + d.off) (v : Nat) : recordView (fset b d v s) = recordView s :=
  recordView_wr s h _

theorem recordView_raiseFull {c : Nat} (hc : c < 256) (r n x : Nat) : recordView (raiseFull c r n x s) = recordView s :=
  recordView_of_bareEvent (raiseFull_bare c r n x s) (rd_raiseFull hc (by decide) r n x s)

theorem recordView_bump {c : Cnt} (h : Reg.SVC_RAW_CFG ≠ 0 + c.off ∧ Reg.SVC_RAW_CFG ≠ 0 + c.sat) :
    recordView (bump 0 c s) = recordView s :=
  recordView_of_bareEvent (bump_bare 0 c s) (rd_bump_ne h.1 h.2 (by decide) s)

theorem recordView_nbrMod (k : Nat) (g : Nbr → Nbr) : recordView (nbrMod k g s) = recordView s := by
  unfold nbrMod
  split <;> rfl

theorem recordView_nbrsMod (e : Eui) (g : Nbr → Nbr) : recordView (nbrsMod e g s) = recordView s :=
  foldl_keeps recordView _ (fun t (p : Nat × Nbr) => recordView_nbrMod t p.1 g) (nbrsOf s e) s

theorem recordView_after (u : State) : recordView (settle (tapAll u s)) = recordView s := by
  have h : rd (settle (tapAll u s)) Reg.SVC_RAW_CFG = rd s Reg.SVC_RAW_CFG := rd_after (by decide)
  rw [recordView, h, mac_after, settle_svc, tapAll_svc, settle_claim, tapAll_claim]
  rfl

end

/-! A neighbour of which no frame was accepted -/

/-- No entry of a neighbour tells of an accepted frame (R162). -/
def Unseen (e : Eui) (s : State) : Prop := ∀ p ∈ nbrsOf s e, p.2.seen = false ∧ p.2.dup = []

section
variable {e : Eui} {s : State}

theorem Unseen.of_nil (h : nbrsOf s e = []) : Unseen e s := by
  intro p hp
  rw [h] at hp
  cases hp

/-- R162: no frame of such a neighbour is a replay. -/
theorem Unseen.isReplay (h : Unseen e s) (r : RxRec) : isReplay s e r = false := by
  refine List.any_eq_false.mpr fun p hp => ?_
  simp [(h p hp).1]

/-- R162: no frame of such a neighbour is a duplicate. -/
theorem Unseen.dsnSeen (h : Unseen e s) (r : RxRec) (f : Frame) : dsnSeen s e r f = false := by
  refine List.any_eq_false.mpr fun p hp => ?_
  simp [(h p hp).2]

end

theorem SMap.mem_of_find {α : Type} {m : SMap α} {k : Nat} {v : α} (h : m.find k = some v) : (k, v) ∈ m := by
  induction m with
  | nil => cases h
  | cons p t ih =>
    obtain ⟨j, u⟩ := p
    unfold SMap.find at h
    split at h
    next hj =>
      cases h
      rw [hj]
      exact List.mem_cons_self
    next => exact List.mem_cons_of_mem _ (ih h)

theorem SMap.mem_put {α : Type} {m : SMap α} {k : Nat} {v : α} {p : Nat × α} (h : p ∈ m.put k v) : p = (k, v) ∨ p ∈ m := by
  induction m with
  | nil => exact .inl (List.mem_singleton.mp h)
  | cons q t ih =>
    obtain ⟨j, u⟩ := q
    unfold SMap.put at h
    split at h
    · exact List.mem_cons.mp h
    · split at h
      · exact (List.mem_cons.mp h).imp_right (List.mem_cons_of_mem _)
      · rcases List.mem_cons.mp h with rfl | h
        · exact .inr List.mem_cons_self
        · exact (ih h).imp_right (List.mem_cons_of_mem _)

/-! Operations of the table engine -/

/-- From `s` to `t` the table engine has worked: a record's processing rests on the same, and neighbour `e` stays unseen. -/
structure TablesOnly (e : Eui) (s t : State) : Prop where
  view : recordView t = recordView s
  unseen : Unseen e s → Unseen e t

namespace TablesOnly
variable {e : Eui} {s t u : State}

theorem refl : TablesOnly e s s := ⟨rfl, id⟩

theorem trans (h : TablesOnly e s t) (h' : TablesOnly e t u) : TablesOnly e s u := ⟨h'.view.trans h.view, h'.unseen ∘ h.unseen⟩

theorem of_nbrs (hv : recordView t = recordView s) (hn : t.tables.nbrs = s.tables.nbrs) : TablesOnly e s t where
  view := hv
  unseen h := by
    rw [Unseen, nbrsOf, hn]
    exact h

theorem of_modTab {g : TablesS → TablesS} (h : (g s.tables).nbrs = s.tables.nbrs) : TablesOnly e s (modTab g s) := of_nbrs rfl h

theorem of_wr {k : Nat} (h : Reg.SVC_RAW_CFG ≠ k) (v : Word) : TablesOnly e s (wr k v s) := of_nbrs (recordView_wr s h v) rfl

theorem of_fset {d : Fld} (h : Reg.SVC_RAW_CFG ≠ 0 + d.off) (v : Nat) : TablesOnly e s (fset 0 d v s) := of_wr h _

theorem of_raiseFull {c : Nat} (hc : c < 256) (r n x : Nat) : TablesOnly e s (raiseFull c r n x s) :=
  of_nbrs (recordView_raiseFull s hc r n x) (congrArg TablesS.nbrs (raiseFull_tables c r n x s))

theorem of_raiseAux {c : Nat} (hc : c < 256) (r x : Nat) : TablesOnly e s (raiseAux c r x s) := of_raiseFull hc r noNode x

theorem of_raiseNode {c : Nat} (hc : c < 256) (r n : Nat) : TablesOnly e s (raiseNode c r n s) := of_raiseFull hc r n 0

theorem of_bump {c : Cnt} (h : Reg.SVC_RAW_CFG ≠ 0 + c.off ∧ Reg.SVC_RAW_CFG ≠ 0 + c.sat) : TablesOnly e s (bump 0 c s) :=
  of_nbrs (recordView_bump s h) (congrArg TablesS.nbrs (bump_tables 0 c s))

theorem of_foldl {α : Type} {g : State → α → State} (h : ∀ t b, TablesOnly e t (g t b)) (l : List α) : TablesOnly e s (l.foldl g s) :=
  List.foldlRecOn (motive := TablesOnly e s) l g refl fun t ht b _ => ht.trans (h t b)

/-! The directory and its index -/

theorem of_dirPut (h : Handle) (d : DirEnt) : TablesOnly e s (dirPut h d s) := of_nbrs rfl rfl

theorem of_dirMod (h : Handle) (g : DirEnt → DirEnt) : TablesOnly e s (dirMod h g s) := by
  unfold dirMod
  split
  · exact of_dirPut ..
  · exact refl

theorem of_putWay (b i : Nat) (w : Way) : TablesOnly e s (putWay b i w s) := of_modTab rfl

theorem of_execPath (l : List (Nat × Nat)) (hole : Nat × Nat) : TablesOnly e s (execPath l hole s).2 := by
  induction l generalizing hole s with
  | nil => exact refl
  | cons p l ih => exact ((of_putWay ..).trans (of_wr (by decide) _)).trans (ih p)

theorem of_insertWay (h : Handle) (x : Eui) : TablesOnly e s (insertWay h x s).2 := by
  unfold insertWay
  dsimp only
  split
  · exact of_putWay ..
  · exact of_putWay ..
  · split
    · exact refl
    · exact (of_execPath ..).trans (of_putWay ..)

theorem of_reinsertAll (b : Nat) : TablesOnly e s (reinsertAll b s) :=
  of_foldl (fun t p => by
    dsimp only
    split
    · exact of_insertWay ..
    · exact refl) _

theorem of_repairDone : TablesOnly e s (repairDone s) := by
  unfold repairDone
  split
  · exact refl
  · exact (((of_reinsertAll _).trans (of_modTab rfl)).trans (of_fset (by decide) _)).trans (of_raiseAux (by decide) ..)

theorem of_repairStart (b : Nat) : TablesOnly e s (repairStart b s) :=
  ((of_repairDone.trans (of_modTab rfl)).trans (of_fset (by decide) _)).trans (of_raiseAux (by decide) ..)

theorem of_indexInsert (h : Handle) (x : Eui) : TablesOnly e s (indexInsert h x s).2 := by
  unfold indexInsert
  split
  · exact of_repairDone.trans (of_insertWay ..)
  · exact of_insertWay ..

theorem of_strayDrop (x : Eui) : TablesOnly e s (strayDrop x s) := of_modTab rfl

theorem of_strayPut (x : Stray) : TablesOnly e s (strayPut x s) := by
  unfold strayPut
  dsimp only
  split
  · exact (of_strayDrop _).trans (of_modTab rfl)
  · exact ((of_strayDrop _).trans (of_bump (by decide))).trans (of_raiseAux (by decide) ..)

theorem of_insertFailed (result : Nat) (x : Eui) : TablesOnly e s (insertFailed result x s) :=
  (of_bump (by decide)).trans (of_raiseAux (by decide) ..)

theorem of_takeHandle (h : Handle) : TablesOnly e s (takeHandle h s) := of_modTab rfl

theorem of_dirInsert (h : Handle) (d : DirEnt) : TablesOnly e s (dirInsert h d s).2 := by
  unfold dirInsert
  dsimp only
  split
  · exact of_indexInsert ..
  · exact (((of_indexInsert ..).trans (of_takeHandle h)).trans (of_dirPut ..)).trans (of_strayDrop _)

theorem of_modHold (g : HoldS → HoldS) : TablesOnly e s (modHold g s) := of_nbrs rfl rfl

theorem of_markSuspect (h : Handle) : TablesOnly e s (markSuspect h s) := by
  unfold markSuspect holdWritten
  exact (((of_dirMod h _).trans (of_modHold _)).trans (of_bump (by decide))).trans (of_raiseNode (by decide) ..)

/-- R348: an uncorrectable read is counted, shown and told. -/
theorem of_metUe (p : UePath) (cls : UeClass) (loc : BitVec 26) : TablesOnly e s (metUe p cls loc s) := by
  have hcount : TablesOnly e s (countUe cls s) := by
    cases cls with
    | ue => exact of_bump (by decide)
    | addr => exact (of_bump (by decide)).trans (of_bump (by decide))
    | poison => exact of_bump (by decide)
  have hshow : TablesOnly e s (showUe p cls loc (countUe cls s)) :=
    hcount.trans (((of_fset (by decide) _).trans (of_fset (by decide) _)).trans (of_fset (by decide) _))
  rcases metUe_cases p cls loc s with h | ⟨x, g, h⟩
  · rw [h]
    exact hshow
  · rw [h]
    exact hshow.trans ((of_modHold g).trans (of_raiseAux (by decide) ..))

/-! Entries of neighbours -/

theorem of_nbrPut {k : Nat} {y : Nbr} (h : y.eui = e → Unseen e s → y.seen = false ∧ y.dup = []) : TablesOnly e s (nbrPut k y s) where
  view := rfl
  unseen hs p hp := by
    obtain ⟨hm, he⟩ := List.mem_filter.mp hp
    rcases SMap.mem_put hm with rfl | hm
    · exact h (of_decide_eq_true he) hs
    · exact hs p (List.mem_filter.mpr ⟨hm, he⟩)

/-- A change of an entry that keeps its EUI-64 and what R162 keeps in it. -/
theorem of_nbrMod (k : Nat) {g : Nbr → Nbr} (hg : ∀ x, (g x).eui = x.eui ∧ (g x).seen = x.seen ∧ (g x).dup = x.dup) :
    TablesOnly e s (nbrMod k g s) := by
  unfold nbrMod
  split
  next x hx =>
    obtain ⟨heui, hseen, hdup⟩ := hg x
    refine of_nbrPut fun he hs => ?_
    rw [hseen, hdup]
    exact hs (k, x) (List.mem_filter.mpr ⟨SMap.mem_of_find hx, decide_eq_true (heui ▸ he)⟩)
  next => exact refl

theorem of_nbrsMod (x : Eui) {g : Nbr → Nbr} (hg : ∀ x, (g x).eui = x.eui ∧ (g x).seen = x.seen ∧ (g x).dup = x.dup) :
    TablesOnly e s (nbrsMod x g s) := of_foldl (fun _ (p : Nat × Nbr) => of_nbrMod p.1 hg) (nbrsOf s x)

theorem of_giveShort (x : Eui) : TablesOnly e s (giveShort x s) := by
  unfold giveShort
  split
  · split
    · exact of_nbrsMod x fun _ => ⟨rfl, rfl, rfl⟩
    · exact refl
  · exact refl

/-! The home berth -/

theorem of_setHome (x : Eui) (new : Option Nat) : TablesOnly e s (setHome x new s) := by
  unfold setHome
  dsimp only
  split
  · exact refl
  · refine TablesOnly.trans ?_ (((of_dirMod ..).trans (of_bump (by decide))).trans (of_raiseFull (by decide) ..))
    exact of_foldl (fun t (p : Nat × Nbr) => of_nbrMod p.1 fun _ => by exact ⟨rfl, rfl, rfl⟩) (nbrsOf s x)

theorem of_arbProcess (x : Eui) (evs : List (Nat × Int)) : TablesOnly e s (arbProcess x evs s) := by
  unfold arbProcess
  dsimp only
  split
  · exact of_setHome ..
  · split
    · exact of_setHome ..
    · exact refl

theorem of_arbPut (ev : ArbEvent) : TablesOnly e s (arbPut ev s) := by
  unfold arbPut
  extract_lets late before
  split
  · exact (of_bump (by decide)).trans (of_arbProcess ..)
  · exact of_modTab rfl

theorem of_arbEvent (nbr : Nat) (at0 : Instant) : TablesOnly e s (arbEvent nbr at0 s) := by
  unfold arbEvent
  split
  · exact of_arbPut _
  · exact refl

/-! Learning -/

theorem of_learnNode (x : Eui) : TablesOnly e s (learnNode x s).2 := by
  have hfail : ∀ (t : State) (z : Stray), TablesOnly e t (strayPut z (insertFailed 0 x t)) := fun _ z =>
    (of_insertFailed ..).trans (of_strayPut z)
  unfold learnNode
  split
  · exact refl
  · dsimp only
    split
    · exact hfail ..
    · split
      · exact of_dirInsert ..
      · exact (of_dirInsert ..).trans (hfail ..)

theorem of_nbrFull (b : Nat) (h : Handle) (x : Eui) : TablesOnly e s (nbrFull b h x s) :=
  ((of_dirMod h _).trans (of_bump (by decide))).trans (of_raiseFull (by decide) ..)

/-- R187: what a berth learns of a neighbour tells of accepted frames only what other berths' entries of it tell. -/
theorem of_learn (b be : Nat) (lqm rssi : Int) (name : SlotName) (sfd : Instant) :
    TablesOnly e s (learn b e be lqm rssi name sfd s) := by
  unfold learn
  dsimp only
  split
  · exact of_learnNode e
  · split
    · exact (of_learnNode e).trans (of_nbrFull ..)
    · refine ((of_learnNode e).trans ?_).trans (((of_giveShort e).trans (of_raiseNode (by decide) ..)).trans (of_arbEvent ..))
      refine (of_modTab rfl).trans (of_nbrPut fun _ hs => ?_)
      split
      next o ho =>
        obtain ⟨p, hp, rfl⟩ := Option.map_eq_some_iff.mp ho
        exact hs p (List.mem_of_mem_head? hp)
      next => exact ⟨rfl, rfl⟩

/-- R187, R191: a record renews or makes its berth's entry of its sender. -/
theorem of_heard (r : RxRec) (f : Frame) : TablesOnly e s (heard r f (some e) s) := by
  have hshort : TablesOnly e s (shortHeard f (some e) s) := by
    unfold shortHeard
    split
    · exact of_nbrsMod _ fun y => by split <;> exact ⟨rfl, rfl, rfl⟩
    · exact refl
  refine hshort.trans ?_
  unfold heard
  dsimp only
  split
  · exact of_nbrMod _ fun _ => ⟨rfl, rfl, rfl⟩
  · split
    · exact (of_learn ..).trans (of_nbrs rfl rfl)
    · exact refl
    · exact refl

end TablesOnly

end Sys2Proof.Machine
end

section
/-!
PROOF. RECEIVE_RECORD for a record that waits alone (R160 to R162, R325): where it is dropped, and the frame that goes up.
-/

namespace Sys2Proof.Machine

/-! The reception of a record -/

/-- The receive frequencies rest on the BERTH registers alone (R93). -/
theorem rxKhz_of_rd {s t : State} (h : ∀ k, 0x4000 ≤ k → k < 0x5000 → rd t k = rd s k) (n c : Nat) : rxKhz t n c = rxKhz s n c := by
  unfold rxKhz
  split
  next hn =>
    have hreg : ∀ d : Fld, d.off < 0x400 → fget t (berthBase n) d = fget s (berthBase n) d := fun d hd =>
      fget_of_rd (h _ (by unfold berthBase; omega) (by unfold berthBase; omega))
    rw [rxSpacing, rxSpacing, hreg _ (by decide), hreg _ (by decide)]
  next => rfl

/-- A counter of the MAC block, and its CNT_SAT register (R184). -/
def macCounter (c : Cnt) : Bool := 0x6500 ≤ c.off && c.off < c.sat && c.sat = 0x654C

section
variable {s t : State} {r : RxRec} {f : Frame}

theorem receptionOf_bump {c : Cnt} (hc : macCounter c = true) (r : RxRec) (s : State) :
    receptionOf (bump 0 c s) r = receptionOf s r := by
  simp only [macCounter, Bool.and_eq_true, decide_eq_true_eq] at hc
  have hk : recKhz (bump 0 c s) r = recKhz s r := rxKhz_of_rd (fun k h1 h2 => rd_bump_ne (by omega) (by omega) (by
    unfold eventKey
    simp only [Bool.or_eq_false_iff, Bool.and_eq_false_iff, decide_eq_false_iff_not]
    omega) s) _ _
  rw [receptionOf, receptionOf, hk]

theorem receptionOf_not_whole (hw : r.whole = false) (s : State) : receptionOf s r = none := by
  rw [receptionOf, hw]
  rfl

theorem receptionOf_whole (hw : r.whole = true) (hf : r.frame = some f) (s : State) : ∃ y, receptionOf s r = some y := by
  simp [receptionOf, hw, hf]

theorem recentOf_of_nil (h : s.mac.recent = []) (r : RxRec) : recentOf s r = none := by
  rw [recentOf, h]
  cases receptionOf s r <;> rfl

theorem recentOf_not_whole (hw : r.whole = false) (s : State) : recentOf s r = none := by
  rw [recentOf, receptionOf_not_whole hw]
  rfl

/-- R161: the MAC engine with the identity of a reception that was processed, where there is one. -/
def MacS.noting (m : MacS) (x : Option Reception) (passed : Bool) : MacS :=
  match x with
  | none => m
  | some y => { m with
      recent := { y with passed := passed } :: m.recent.filter fun z => (instantDiff z.sfdTime y.sfdTime).natAbs ≤ 1000000000 }

theorem noteReception_eq (r : RxRec) (passed : Bool) (s : State) :
    noteReception r passed s = modMac (fun m => m.noting (receptionOf s r) passed) s := by
  unfold noteReception
  cases receptionOf s r <;> rfl

theorem MacS.noting_records (m : MacS) (x : Option Reception) (passed : Bool) : (m.noting x passed).records = m.records := by
  cases x <;> rfl

theorem MacS.noting_recent {m : MacS} (h : m.recent = []) (y : Reception) (passed : Bool) :
    (m.noting (some y) passed).recent = [{ y with passed := passed }] := by simp [MacS.noting, h]

/-! The record leaves the queue -/

/-- A state whose waiting records were all taken. -/
abbrev recordsTaken (s : State) : State := { s with mac := { s.mac with records := [] } }

theorem take_single (h : s.mac.records = [r]) :
    modMac (fun k => { k with records := k.records.filter fun x => !([r].contains x) }) s = recordsTaken s := by simp [modMac, h]

theorem rxMode_of_rawCfg (h : (recordView t).rawCfg = (recordView s).rawCfg) :
    fget t 0 Fl.SVC_RAW_CFG_RX_MODE = fget s 0 Fl.SVC_RAW_CFG_RX_MODE := by
  unfold fget
  exact congrArg (bitsOf _ _) h

theorem rawCopies_off (h : fget s 0 Fl.SVC_RAW_CFG_RX_MODE = 0) (dropped : Bool) (r : RxRec) : rawCopies dropped [r] s = s := by
  have hr : rawDue s r dropped = false := by simp [rawDue, h]
  simp [rawCopies, hr]

theorem rawCfg_recordsTaken (s : State) : (recordView (recordsTaken s)).rawCfg = (recordView s).rawCfg := rfl

theorem rawCopies_noteReception (h : (recordView t).rawCfg = (recordView s).rawCfg) (hm : fget s 0 Fl.SVC_RAW_CFG_RX_MODE = 0)
    (dropped passed : Bool) (r : RxRec) : rawCopies dropped [r] (noteReception r passed t) = noteReception r passed t := by
  have hnote : (recordView (noteReception r passed t)).rawCfg = (recordView t).rawCfg := by
    rw [noteReception_eq]
    rfl
  exact rawCopies_off ((rxMode_of_rawCfg (hnote.trans h)).trans hm) _ _

theorem copyRecords_nil (passed : Bool) (s : State) : copyRecords passed [] s = s := by
  cases passed <;> rfl

theorem copiesOf_single (h : s.mac.records = [r]) : copiesOf s r = [r] := by simp [copiesOf, h]

theorem bestCopy_single (h : s.mac.records = [r]) : bestCopy s r = r := by simp [bestCopy, copiesOf_single h]

/-- What becomes of a record that waits alone, before its reception is kept (R160, R200). -/
def recordRun (m : HoldRead) (what : Struct) (r : RxRec) (s : State) : RecRes :=
  if structDrops m what && r.whole then ⟨true, false, s⟩ else runRecord r s

/-- A record that waits alone leaves the queue; its reception, where not processed before, is processed and kept. -/
theorem doReceiveRecord_single {m : HoldRead} {what : Struct} (hs : s.mac.records = [r]) (ht : structMet m what s = t)
    (htr : t.mac.records = [r]) (hn : recentOf t r = none) :
    doReceiveRecord m what s = rawCopies (recordRun m what r (recordsTaken t)).dropped [r]
      (noteReception r (recordRun m what r (recordsTaken t)).passed (recordRun m what r (recordsTaken t)).st) := by
  unfold doReceiveRecord
  rw [hs]
  dsimp only
  rw [ht, copiesOf_single htr, bestCopy_single htr, hn, take_single htr]
  simp only [List.erase_cons_head, copyRecords_nil, recordRun]

theorem structMet_clean (what : Struct) (s : State) : structMet .clean what s = s := rfl

theorem recordRun_clean (what : Struct) (r : RxRec) (s : State) : recordRun .clean what r s = runRecord r s := by
  cases what <;> rfl

theorem doReceiveRecord_clean {what : Struct} (hs : s.mac.records = [r]) (hn : recentOf s r = none) :
    doReceiveRecord .clean what s = rawCopies (runRecord r (recordsTaken s)).dropped [r]
      (noteReception r (runRecord r (recordsTaken s)).passed (runRecord r (recordsTaken s)).st) := by
  rw [doReceiveRecord_single hs (structMet_clean what s) hs hn, recordRun_clean]

/-- R161: a record of a reception that was processed and dropped before leaves the queue alone. -/
theorem doReceiveRecord_again {what : Struct} {y : Reception} (hs : s.mac.records = [r]) (hy : recentOf s r = some y)
    (hp : y.passed = false) (hm : fget s 0 Fl.SVC_RAW_CFG_RX_MODE = 0) : doReceiveRecord .clean what s = recordsTaken s := by
  have hm' : fget (recordsTaken s) 0 Fl.SVC_RAW_CFG_RX_MODE = 0 := hm
  unfold doReceiveRecord
  rw [hs]
  dsimp only
  rw [structMet_clean, copiesOf_single hs, hy]
  dsimp only
  rw [take_single hs, hp]
  exact rawCopies_off hm' _ _

/-- R160 step 1: a record that was not received whole leaves the queue alone. -/
theorem doReceiveRecord_not_whole {what : Struct} (hs : s.mac.records = [r]) (hw : r.whole = false)
    (hm : fget s 0 Fl.SVC_RAW_CFG_RX_MODE = 0) : doReceiveRecord .clean what s = recordsTaken s := by
  have hm' : fget (recordsTaken s) 0 Fl.SVC_RAW_CFG_RX_MODE = 0 := hm
  have hrun : runRecord r (recordsTaken s) = ⟨false, false, recordsTaken s⟩ := by
    rw [runRecord, hw]
    rfl
  rw [doReceiveRecord_clean hs (recentOf_not_whole hw s), hrun, noteReception_eq, receptionOf_not_whole hw]
  exact rawCopies_off hm' ..

/-! Records that are dropped -/

theorem runRecord_not_ours (hw : r.whole = true) (hf : r.frame = some f) (ho : frameOurs s f = false) :
    runRecord r s = ⟨true, false, bump 0 Ct.MAC_RX_DROP s⟩ := by
  simp [runRecord, hw, hf, ho]

theorem runRecord_data (hw : r.whole = true) (hf : r.frame = some f) (ho : frameOurs s f = true) (hk : f.kind = .data) :
    runRecord r s = dataRecord r f s := by
  simp [runRecord, hw, hf, ho, hk]

theorem expectedAck_data (hk : f.kind = .data) (r : RxRec) (e : Option Eui) (s : State) : expectedAck s r f e = none := by
  simp [expectedAck, hk]

theorem slotsOn_of_inWindow (h : inWindow s r = true) : slotsOn s = true := by
  unfold inWindow at h
  split at h
  · cases h
  · simp only [Bool.and_eq_true] at h
    exact h.1.1

theorem dataRecord_offWindow (hk : f.kind = .data) (hi : inWindow s r = false) :
    dataRecord r f s = ⟨true, false, bump 0 Ct.MAC_RX_OFFWIN s⟩ := by
  simp [dataRecord, expectedAck_data hk, hi]

/-- R325: a key index above the last names no slot. -/
theorem secCheck_noSlot {c : FrameSec} (hc : f.sec = some c) (hl : c.level ≠ 0) (hi : 16 < c.keyIndex) (e : Option Eui) (b : Bool) :
    secCheck s r f e b = .fail none := by
  simp [secCheck, hc, hl, hi]

theorem dataRecord_secFail (hk : f.kind = .data) (hi : inWindow s r = true)
    (hc : ∀ b, secCheck s r f (srcEui s f) b = .fail none) : dataRecord r f s = ⟨true, false, bump 0 Ct.MAC_RX_SEC_FAIL s⟩ := by
  simp [dataRecord, expectedAck_data hk, hi, slotsOn_of_inWindow hi, hc, secFailed]

/-- R160, R161: a frame that a step drops under a MAC counter is counted, and its reception kept. -/
theorem dropped_step {what : Struct} {c : Cnt} (hc : macCounter c = true) (hs : s.mac.records = [r])
    (hm : fget s 0 Fl.SVC_RAW_CFG_RX_MODE = 0) (hn : recentOf s r = none)
    (hrun : runRecord r (recordsTaken s) = ⟨true, false, bump 0 c (recordsTaken s)⟩) :
    let t := settle (tapAll s (doReceiveRecord .clean what s))
    t.mac = (noteReception r false (recordsTaken s)).mac ∧ t.tables = s.tables ∧ Counted s t 0 c 1 := by
  have hc' := hc
  simp only [macCounter, Bool.and_eq_true, decide_eq_true_eq] at hc'
  have hown : ownKey (0 + c.off) = true := by
    unfold ownKey eventKey portKey
    simp only [Bool.and_eq_true, Bool.not_eq_true', Bool.or_eq_false_iff, Bool.and_eq_false_iff, decide_eq_false_iff_not]
    omega
  have hcfg : Reg.SVC_RAW_CFG ≠ 0 + c.off ∧ Reg.SVC_RAW_CFG ≠ 0 + c.sat := by
    unfold Reg.SVC_RAW_CFG
    omega
  have e : doReceiveRecord .clean what s = noteReception r false (bump 0 c (recordsTaken s)) := by
    rw [doReceiveRecord_clean hs hn, hrun]
    exact rawCopies_noteReception
      ((congrArg RecordView.rawCfg (recordView_bump (recordsTaken s) hcfg)).trans (rawCfg_recordsTaken s)) hm ..
  dsimp only
  rw [e, mac_after, settle_tables, tapAll_tables, noteReception_eq, noteReception_eq, receptionOf_bump hc, modMac_mac, modMac_mac,
    bump_mac, modMac_tables, bump_tables]
  exact ⟨rfl, rfl, Counted.after (Counted.congr (counted_bump hown (by omega) (recordsTaken s)) rfl rfl) hown⟩

/-- R200, R205: an uncorrectable word of the directory or its index, met by a lookup, leaves the MAC and service engines alone. -/
theorem recordView_structMet {m : HoldRead} {what : Struct} (h : structDrops m what = true) (s : State) :
    recordView (structMet m what s) = recordView s := by
  cases m with
  | clean => cases what <;> cases h
  | ce loc bit => cases what <;> cases h
  | bad cls loc =>
    cases what with
    | dir k w =>
      unfold structMet
      dsimp only [HoldRead.badLoc, holdMet]
      split
      · exact ((TablesOnly.of_metUe (e := 0) ..).trans (.of_markSuspect k)).view
      · exact (TablesOnly.of_metUe (e := 0) ..).view
    | bucket b => exact ((TablesOnly.of_metUe (e := 0) .struct cls loc).trans (.of_repairStart b)).view
    | _ => cases h

/-- R200, R205: a frame whose lookup meets an uncorrectable word is dropped. -/
theorem structDrop_step {m : HoldRead} {what : Struct} (hs : s.mac.records = [r]) (hm : fget s 0 Fl.SVC_RAW_CFG_RX_MODE = 0)
    (hw : r.whole = true) (hrecent : s.mac.recent = []) (hd : structDrops m what = true) :
    let t := settle (tapAll s (doReceiveRecord m what s))
    t.mac.records = [] ∧ t.svc.upq = s.svc.upq := by
  have hv := recordView_structMet hd s
  have hrun : ∀ t, recordRun m what r t = ⟨true, false, t⟩ := fun t => by simp [recordRun, hd, hw]
  have e : doReceiveRecord m what s = noteReception r false (recordsTaken (structMet m what s)) := by
    rw [doReceiveRecord_single hs rfl ((congrArg RecordView.records hv).trans hs)
      (recentOf_of_nil ((congrArg RecordView.recent hv).trans hrecent) r), hrun]
    exact rawCopies_noteReception ((rawCfg_recordsTaken _).trans (congrArg RecordView.rawCfg hv)) hm ..
  dsimp only
  rw [e, mac_after, settle_svc, tapAll_svc, noteReception_eq, modMac_mac, modMac_svc, MacS.noting_records]
  exact ⟨rfl, congrArg (fun v => v.svc.upq) hv⟩

/-! The frame that goes up -/

theorem recordView_entryTaken (e : Eui) (r : RxRec) (f : Frame) (new : Bool) (s : State) :
    recordView (entryTaken e r f new s) = recordView s := by
  unfold entryTaken
  extract_lets s0
  have h0 : recordView s0 = recordView s := recordView_nbrsMod ..
  split
  · exact h0
  · dsimp only
    split
    · split
      · exact (recordView_raiseFull _ (by decide) ..).trans ((recordView_bump _ (by decide)).trans h0)
      · exact h0
    · exact h0

theorem recordView_homeHeard (e : Eui) (r : RxRec) (s : State) : recordView (homeHeard e r s) = recordView s := by
  unfold homeHeard
  split
  · rfl
  · dsimp only
    split
    · exact recordView_raiseFull _ (by decide) ..
    · rfl

theorem recordView_setBaBit (e : Option Eui) (r : RxRec) (f : Frame) (o : Nat) (s : State) :
    recordView (setBaBit e r f o s) = recordView s := by
  unfold setBaBit
  dsimp only
  split
  · split
    · rfl
    · exact recordView_bump _ (by decide)
  · rfl

/-- R160 step 9: a data frame joins the service engine's queue. -/
theorem recordView_deliver (hk : f.kind = .data) (e : Eui) (r : RxRec) (s : State) :
    recordView (deliver (some e) r f .unsecured s) = { recordView s with
      svc := { s.svc with upq := s.svc.upq ++ [⟨e, f.upper, r.sfdTime, r.name, r.berth, true, false⟩] } } := by
  have hcount := recordView_bump s (c := Ct.MAC_RX_ACCEPT) (by decide)
  have hput : ∀ (g : SvcS → SvcS) (u : State), recordView (modSvc g u) = { recordView u with svc := g u.svc } := fun _ _ => rfl
  rw [deliver, if_pos hk, hput, hcount, bump_svc]
  rfl

/-- R163: a broadcast is not acknowledged. -/
theorem ackPlan_broadcast (hd : f.dst = Addr.broadcast) (r : RxRec) (c : SecRes) (classic : Bool) (s : State) :
    ackPlan s r f c classic = .none := by
  have h : toDevice s f = false := by simp [toDevice, hd, Addr.broadcast]
  simp [ackPlan, h]

/-- R160 steps 8 and 9: a frame that is no duplicate and gets no Enh-ACK goes up, whatever cell it came in. -/
theorem acknowledge_delivers (e : Option Eui) (inCell : Bool) (o : Option Nat) (r : RxRec) (f : Frame) (c : SecRes) (s : State) :
    ∃ u, recordView u = recordView s ∧ acknowledge e false false .none inCell o r f c s = deliver e r f c u := by
  refine ⟨_, ?_, rfl⟩
  dsimp only [doAck]
  have hcell : recordView (if inCell then s else bump 0 Ct.MAC_RX_OFFCELL s) = recordView s := by
    split
    · rfl
    · exact recordView_bump _ (by decide)
  cases o with
  | none => exact hcell
  | some x => exact (recordView_setBaBit ..).trans hcell

/-- R160 steps 6 to 9: the first frame that is accepted of a neighbour, a broadcast, passes step 6 and goes up. -/
theorem accept_broadcast {e : Eui} (hd : f.dst = Addr.broadcast) (hu : Unseen e s) (hg : gateOpen s = true) (r : RxRec) (c : SecRes) :
    ∃ u, recordView u = recordView s ∧ accept (some e) true r f c s = (true, deliver (some e) r f c u) := by
  have hplan : ∀ classic, ackPlan s r f c classic = .none := fun classic => ackPlan_broadcast hd r c classic s
  have hview : recordView (homeHeard e r (entryTaken e r f true s)) = recordView s :=
    (recordView_homeHeard ..).trans (recordView_entryTaken ..)
  have hreplay : (some e).any (fun x => isReplay s x r) = false := hu.isReplay r
  have hdup : (some e).any (fun x => dsnSeen s x r f) = false := hu.dsnSeen r f
  unfold accept
  simp only [hreplay, hdup, hg, hplan, if_true, reduceCtorEq, decide_false, Bool.false_and, Bool.not_false, Bool.and_self,
    Bool.false_eq_true, if_false]
  exact (acknowledge_delivers ..).imp fun u ⟨hv, ha⟩ => ⟨hv.trans hview, congrArg (Prod.mk true) ha⟩

/-- R160 steps 5 to 9, R162: the first frame of a neighbour whose frames need no security, a broadcast, goes up. -/
theorem dataRecord_broadcast {e : Eui} (hk : f.kind = .data) (hsrc : f.src = .eui e) (hd : f.dst = Addr.broadcast)
    (hi : inWindow s r = true) (hsec : f.sec = none) (hun : fbit s 0 Fl.MAC_CTRL_RX_UNSEC = true) (hg : gateOpen s = true)
    (hnew : nbrsOf s e = []) (hl : learnsSuspect s r f (some e) = none) :
    ∃ u, recordView u = recordView s ∧ dataRecord r f s = ⟨false, true, deliver (some e) r f .unsecured u⟩ := by
  have he : srcEui s f = some e := by simp [srcEui, hsrc]
  have hat : nbrAt s r.berth e = none := by simp [nbrAt, hnew]
  have hheard : TablesOnly e s (heard r f (some e) s) := .of_heard r f
  have hgate : gateOpen (heard r f (some e) s) = true := (congrArg RecordView.gate hheard.view).trans hg
  obtain ⟨u, hv, hacc⟩ := accept_broadcast hd (hheard.unseen (.of_nil hnew)) hgate r .unsecured
  have hcheck : secCheck s r f (some e) true = .unsecured := by simp [secCheck, hsec]
  refine ⟨u, hv.trans hheard.view, ?_⟩
  simp [dataRecord, he, expectedAck_data hk, slotsOn_of_inWindow hi, hi, hun, hcheck, hl, secUsed, hat, hacc]

/-- R160, R161: the frame of a record that goes up joins the service engine's queue, and its reception is kept. -/
theorem delivered_step {what : Struct} {e : Eui} {u : State} (hs : s.mac.records = [r]) (hm : fget s 0 Fl.SVC_RAW_CFG_RX_MODE = 0)
    (hw : r.whole = true) (hf : r.frame = some f) (hk : f.kind = .data) (hrecent : s.mac.recent = [])
    (hu : recordView u = recordView (recordsTaken s))
    (hrun : runRecord r (recordsTaken s) = ⟨false, true, deliver (some e) r f .unsecured u⟩) :
    let t := settle (tapAll s (doReceiveRecord .clean what s))
    t.svc.upq = s.svc.upq ++ [⟨e, f.upper, r.sfdTime, r.name, r.berth, true, false⟩] ∧ t.mac.recent.length = 1 ∧
      t.mac.records = [] := by
  have hview := recordView_deliver hk e r u
  rw [hu] at hview
  have husvc : u.svc = s.svc := congrArg RecordView.svc hu
  obtain ⟨y, hy⟩ := receptionOf_whole hw hf (deliver (some e) r f .unsecured u)
  have hcfg := (congrArg RecordView.rawCfg hview).trans (rawCfg_recordsTaken s)
  have he : doReceiveRecord .clean what s = noteReception r true (deliver (some e) r f .unsecured u) := by
    rw [doReceiveRecord_clean hs (recentOf_of_nil hrecent r), hrun]
    exact rawCopies_noteReception hcfg hm ..
  dsimp only
  rw [he, mac_after, settle_svc, tapAll_svc, noteReception_eq, modMac_mac, modMac_svc, MacS.noting_records, hy,
    MacS.noting_recent ((congrArg RecordView.recent hview).trans hrecent), ← husvc]
  exact ⟨congrArg (fun v => v.svc.upq) hview, rfl, congrArg RecordView.records hview⟩

end

/-- Settles O20: each record from what its processing makes of it; that a good broadcast goes up does not rest on its cell. -/
theorem receiveRecordSteps : Obligations.ReceiveRecordSteps := by
  intro s what r hruns hs hm
  obtain ⟨hw, hphase⟩ := hruns
  refine ⟨fun hpart => ⟨_, engine_runs hw hphase _, ?broken⟩,
    fun m hwhole hrecent hd => ⟨_, engine_runs hw hphase _, structDrop_step hs hm hwhole hrecent hd⟩,
    fun y _ hy hp => ⟨_, engine_runs hw hphase _, ?again⟩,
    fun f hwhole hn hf ho => ⟨_, engine_runs hw hphase _, dropped_step rfl hs hm hn (runRecord_not_ours hwhole hf ho)⟩,
    fun f hwhole hn hf ho hk hi => ⟨_, engine_runs hw hphase _, dropped_step rfl hs hm hn ?offWindow⟩,
    fun f c hwhole hn hf ho hk hi hc hl hkey => ⟨_, engine_runs hw hphase _, dropped_step rfl hs hm hn ?noSlot⟩,
    fun f e hwhole hf ho hk hsrc hd hi hsec hun hg hrecent hnew hl _ _ => ⟨_, engine_runs hw hphase _, ?goesUp⟩⟩
  case broken =>
    rw [doReceiveRecord_not_whole hs hpart hm, mac_after, settle_tables, tapAll_tables, settle_svc, tapAll_svc]
    exact ⟨rfl, rfl, rfl⟩
  case again =>
    rw [doReceiveRecord_again hs hy hp hm, mac_after, settle_tables, tapAll_tables, settle_svc, tapAll_svc, rd_after (by decide)]
    exact ⟨rfl, rfl, rfl, rfl⟩
  case offWindow => exact (runRecord_data (s := recordsTaken s) hwhole hf ho hk).trans (dataRecord_offWindow hk hi)
  case noSlot =>
    exact (runRecord_data (s := recordsTaken s) hwhole hf ho hk).trans
      (dataRecord_secFail hk hi fun b => secCheck_noSlot hc hl hkey _ b)
  case goesUp =>
    obtain ⟨u, hu, hrun⟩ := dataRecord_broadcast (s := recordsTaken s) hk hsrc hd hi hsec hun hg hnew hl
    exact delivered_step hs hm hwhole hf hk hrecent hu ((runRecord_data (s := recordsTaken s) hwhole hf ho hk).trans hrun)

end Sys2Proof.Machine
end
